-- ==== Sys2Proof/Word.lean ====
section
/-! DEFINITION. The words of the part (widths from 00_scope.md section 5) and `Table`, a list whose length is part of its type. -/

namespace Sys2Proof

abbrev Byte := BitVec 8
abbrev Half := BitVec 16
/-- Free-running counts, frame numbers and 32-bit counters, all modulo 2^32. -/
abbrev Word := BitVec 32
/-- Floor time: milliseconds modulo 2^48 (R128). -/
abbrev FloorTime := BitVec 48
/-- A 36-bit byte address of the shelf controller's memory map. -/
abbrev Addr := BitVec 36
/-- A 16-bit two's complement audio sample. -/
abbrev Sample := BitVec 16

/-- A list of exactly `n` rows: the part's numbered tables. -/
structure Table (n : Nat) (α : Type) where
  rows : List α
  size_eq : rows.length = n
  deriving DecidableEq, Repr

def Table.get {n : Nat} {α : Type} (t : Table n α) (i : Fin n) : α :=
  t.rows[i.val]'(by rw [t.size_eq]; exact i.isLt)

def Table.set {n : Nat} {α : Type} (t : Table n α) (i : Fin n) (a : α) : Table n α :=
  ⟨t.rows.set i.val a, by simp [t.size_eq]⟩

def Table.modify {n : Nat} {α : Type} (t : Table n α) (i : Fin n) (f : α → α) : Table n α :=
  t.set i (f (t.get i))

def Table.replicate (n : Nat) {α : Type} (a : α) : Table n α :=
  ⟨List.replicate n a, by simp⟩

/-- The table whose row `i` is `f i`. -/
def Table.build {n : Nat} {α : Type} (f : Fin n → α) : Table n α :=
  ⟨(List.finRange n).map f, by simp⟩

def Table.map {n : Nat} {α β : Type} (f : α → β) (t : Table n α) : Table n β :=
  ⟨t.rows.map f, by simp [t.size_eq]⟩

@[ext] theorem Table.ext_rows {n : Nat} {α : Type} {t u : Table n α} (h : t.rows = u.rows) : t = u := by
  cases t; cases u; simp_all

@[simp] theorem Table.get_set_self {n : Nat} {α : Type} (t : Table n α) (i : Fin n) (a : α) :
    (t.set i a).get i = a := by
  simp [Table.get, Table.set]

@[simp] theorem Table.get_set_ne {n : Nat} {α : Type} (t : Table n α) {i j : Fin n} (a : α) (h : i ≠ j) :
    (t.set i a).get j = t.get j := by
  have : i.val ≠ j.val := fun e => h (Fin.ext e)
  simp [Table.get, Table.set, this]

theorem Table.get_set {n : Nat} {α : Type} (t : Table n α) (i j : Fin n) (a : α) :
    (t.set i a).get j = if i = j then a else t.get j := by
  split
  · next h => subst h; simp
  · next h => simp [h]

@[simp] theorem Table.get_modify_self {n : Nat} {α : Type} (t : Table n α) (i : Fin n) (f : α → α) :
    (t.modify i f).get i = f (t.get i) := by simp [Table.modify]

@[simp] theorem Table.get_modify_ne {n : Nat} {α : Type} (t : Table n α) {i j : Fin n} (f : α → α) (h : i ≠ j) :
    (t.modify i f).get j = t.get j := by simp [Table.modify, h]

theorem Table.get_modify {n : Nat} {α : Type} (t : Table n α) (i j : Fin n) (f : α → α) :
    (t.modify i f).get j = if i = j then f (t.get i) else t.get j := by
  simp [Table.modify, Table.get_set]

@[simp] theorem Table.get_replicate {n : Nat} {α : Type} (a : α) (i : Fin n) :
    (Table.replicate n a).get i = a := by simp [Table.get, Table.replicate]

@[simp] theorem Table.get_build {n : Nat} {α : Type} (f : Fin n → α) (i : Fin n) :
    (Table.build f).get i = f i := by simp [Table.get, Table.build]

@[simp] theorem Table.get_map {n : Nat} {α β : Type} (f : α → β) (t : Table n α) (i : Fin n) :
    (t.map f).get i = f (t.get i) := by simp [Table.get, Table.map]

/-- Two tables with equal rows everywhere are equal. -/
theorem Table.ext_get {n : Nat} {α : Type} {t u : Table n α} (h : ∀ i, t.get i = u.get i) : t = u := by
  obtain ⟨r, hr⟩ := t
  obtain ⟨q, hq⟩ := u
  apply Table.ext_rows
  apply List.ext_getElem (by simp [hr, hq])
  intro k h1 h2
  have := h ⟨k, hr ▸ h1⟩
  simpa [Table.get] using this

end Sys2Proof
end

