-- ==== Sys2Proof/Config.lean ====
section
/-! DEFINITION. Capacities and numberings of 00_scope.md section 4, and the values the spec leaves open. -/

namespace Sys2Proof

/-- Lines 0 to 95. -/
abbrev LineId := Fin 96
/-- Positions 0 to 7. -/
abbrev PosId := Fin 8
/-- Appearance keys 0 to 47 of a position. -/
abbrev KeyId := Fin 48
/-- Speaker channels 0 to 11 of a position. -/
abbrev SpkId := Fin 12
/-- Intercom groups 0 to 15. -/
abbrev GroupId := Fin 16
/-- Recorder channels 0 to 31. -/
abbrev ChanId := Fin 32
/-- Sources with an input queue, 0 to 119: line inbounds and position microphones. -/
abbrev SourceId := Fin 120
/-- Listeners 0 to 159. -/
abbrev ListenerId := Fin 160
/-- Slots 0 to 7 of a voice window. -/
abbrev SlotId := Fin 8
/-- A set of positions, bit p for position p (R185). -/
abbrev PosSet := BitVec 8

/-- Sixteen samples, 1 ms of audio (00_scope.md section 5). -/
abbrev Frame := Table 16 Sample

namespace Config

/-- Places of the event backlog (R167). -/
def backlogPlaces : Nat := 32
/-- Free backlog places a command fetch needs (R165). -/
def fetchPlaces : Nat := 4
/-- Requests a talk queue holds (R46). -/
def talkQueuePlaces : Nat := 8
/-- Owners a line holds (R1). -/
def ownerPlaces : Nat := 4
/-- Frames an input queue and an Output Store list hold (R117, R120). -/
def framePlaces : Nat := 4
/-- Upper end of missed_rings (R1). -/
def missedMax : Nat := 65535
/-- The offset an image may not pass (R178). -/
def imageLimit : Nat := 65536
/-- Bytes of the largest snapshot burst (R189). -/
def burstBytes : Nat := 64

/-- FREE VALUE (log 9): where in a section an index error found inside it is reported, for each draw. -/
opaque badIndexOffset (draw : Nat) : Nat

end Config
end Sys2Proof
end

