-- ==== Sys2Proof/Syntax.lean ====
section
/-! DEFINITION. The commands of the part: one constructor of `Instr` for each row of spec/opcode_table.json, with the row's operands. -/

namespace Sys2Proof

/-- Bytes 0 to 8 of a GROUPS record: the configuration that GROUP_SET gives (R185, R187). -/
structure GroupArgs where
  members : Byte
  hootCount : Byte
  hoot0 : Byte
  hoot1 : Byte
  maxTalkers : Byte
  queueTimeout : Byte
  talkLimit : Byte
  policy : Byte
  hangTime : Byte
  deriving DecidableEq, Repr

/-- AXI4 burst types. -/
inductive BurstType
  | fixed
  | incr
  | wrap
  deriving DecidableEq, Repr

/-- The address phase of a transaction with the attributes R109 names. `beats` is the length, a beat carries `2 ^ size` bytes. -/
structure Burst where
  addr : Addr
  beats : Nat
  size : Fin 4
  kind : BurstType
  id : Nat
  cache : BitVec 4
  prot : BitVec 3
  lock : Bool
  user : Nat
  deriving DecidableEq, Repr

/-- One 64-bit write beat with its byte strobes; lane i is bits 8i to 8i + 7. -/
structure Beat where
  data : BitVec 64
  strobe : BitVec 8
  deriving DecidableEq, Repr

/-- An upstream write transaction: its address phase and its beats in order. -/
structure WriteTxn where
  burst : Burst
  data : List Beat
  deriving DecidableEq, Repr

/-- AXI4 response codes; the last two are the error codes of R125. -/
inductive Resp
  | okay
  | exokay
  | slverr
  | decerr
  deriving DecidableEq, Repr

/-- The commands of the part. A host command carries its argument bytes as R187 lays them out;
an arrival carries its value; a response carries which access in flight of its kind it answers
(0 the oldest) and whether it is an error. -/
inductive Instr
  | lineSet (line type pad preferred ringDelay policy : Byte) (recallTime : Half)
  | lineService (line dir : Byte)
  | appearSet (pos key line : Byte)
  | seize (pos side line : Byte)
  | release (pos side : Byte)
  | hold (pos side : Byte)
  | privacy (pos side value : Byte)
  | forceClear (line : Byte)
  | handsetSet (pos side volume micPad : Byte)
  | positionSet (pos micPad duck ringLevel recallLevel supervisor : Byte)
  | speakerSet (pos chan kind subject flags volume : Byte)
  | groupSet (group : Byte) (cfg : GroupArgs)
  | talk (pos group : Byte)
  | talkEnd (pos group : Byte)
  | recorderSet (chan : Byte) (baseA ceilA baseB ceilB : Addr)
  | recordReturn (chan buffer : Byte)
  | query (kind index clear : Byte) (target : Addr)
  | restart
  | commandPost (v : Word)
  | commandFetch
  | commandFetchResponse (error : Bool) (slot : Table 32 Byte)
  | eventConsumed (v : Word)
  | eventWriteResponse (k : Nat) (error : Bool)
  | logConsumed (v : Word)
  | signalWord (line : LineId) (w : Word)
  | holdRecallExpiry (line : LineId)
  | ringDelayExpiry (line : LineId)
  | queueTimeoutExpiry (group : GroupId)
  | talkLimitExpiry (group : GroupId)
  | hangExpiry (group : GroupId)
  | frameInPulse (at_ : Nat)
  | pulseWatchExpiry
  | freewheelTimerExpiry
  | frameEventMix
  | recorderFrames
  | sessionSegment (chan : ChanId)
  | frameWriteResponse (k : Nat) (error : Bool)
  | logWriteResponse (k : Nat) (error : Bool)
  | controlWordWriteResponse (k : Nat) (error : Bool)
  | snapshotWriteResponse (k : Nat) (error : Bool)
  | statusWordWriteResponse (k : Nat) (error : Bool)
  | configReadResponse (error : Bool) (data : List Byte)
  | anchorWrite (v : Word)
  | timeSyncWord (w : BitVec 128)
  | upstreamWrite (t : WriteTxn)
  | upstreamRead (b : Burst)
  | outboundRead (b : Burst)
  | passThroughResponse (k : Nat) (resp : Resp) (data : List (BitVec 64))
  | downstreamGrant
  | powerOn (straps : BitVec 2)
  | resetN (straps : BitVec 2)
  | indexWordWriteResponse (k : Nat) (error : Bool)
  deriving DecidableEq, Repr

end Sys2Proof
end

