-- ==== Sys2Proof/Decode.lean ====
section
/-! DEFINITION. Command words: spec/opcode_table.json gives no row any bits (every row's fields are empty), so no word spells a
command. What the part itself decodes, a command slot, is `Machine.decodeSlot` (R187, R188). -/

namespace Sys2Proof

/-- The command that a word spells by the table's bits: none, for the table gives no row bits (log 17). -/
def decodeTableWord (_nbits _w : Nat) : Option Instr := none

end Sys2Proof
end

