-- ==== Sys2Proof/Machine/State.lean ====
section
/-! DEFINITION. The state of the part, block by block (00_scope.md section 2), its outcomes, and its value after power-on. -/

namespace Sys2Proof.Machine

/-! ### Enumerations (codes in R182, `Operands.lean`) -/

inductive LineType | ringdown | dial | hoot
  deriving DecidableEq, Repr
/-- The line states of section 1.2. -/
inductive LineState | outOfService | idle | ringing | connected | held | bridged
  deriving DecidableEq, Repr
inductive Hook | onHook | offHook
  deriving DecidableEq, Repr
inductive RingInd | quiet | ringing
  deriving DecidableEq, Repr
inductive Side | left | right
  deriving DecidableEq, Repr
inductive Policy | none | optional | required
  deriving DecidableEq, Repr
/-- Phases of a ring (R29). -/
inductive Phase | preferred | general | recall
  deriving DecidableEq, Repr
/-- Causes of LINE_STATE (R2). -/
inductive LineCause
  | ring | seized | answered | held | retrieved | recall | released | abandoned | farEndClear
  | forced | outOfService | inService | bridged | unbridged | restart
  deriving DecidableEq, Repr
/-- Causes of RING_END (R39). -/
inductive RingCause | answered | abandoned | farEndClear | forced | outOfService | restart
  deriving DecidableEq, Repr
inductive PhaseReason | expiry | appearance
  deriving DecidableEq, Repr
/-- Causes of FLOOR_REVOKED and FLOOR_WITHDRAWN (R169). -/
inductive FloorCause | preempt | talkLimit | membership | limit | restart
  deriving DecidableEq, Repr
/-- Causes of a session's end (R144). -/
inductive SessionCause
  | released | farEndClear | forced | outOfService | groupSilent | segment | restart
  deriving DecidableEq, Repr
inductive StepReason | initial | imperative | mismatch
  deriving DecidableEq, Repr
inductive ChanState | free | active | draining
  deriving DecidableEq, Repr
inductive Owner | part | host
  deriving DecidableEq, Repr
inductive Buf | bufA | bufB
  deriving DecidableEq, Repr
inductive Watch | locked | freewheel | acquiring
  deriving DecidableEq, Repr
inductive TimeStatus | unset | set
  deriving DecidableEq, Repr
inductive Execution | idle | fetching | executing
  deriving DecidableEq, Repr
/-- Operating states (R175). -/
inductive OpState | transparent | loading | running | configFault
  deriving DecidableEq, Repr
inductive FaultCode
  | none | memoryError | imageUnterminated | badSection | regionMisaligned | ringSize | regionOverlap | badIndex
  deriving DecidableEq, Repr
/-- Kinds of own access in the arbiter's order (R123). -/
inductive AccessKind
  | frameWrite | logWrite | eventWrite | lineControl | snapshot | commandFetch | config
  deriving DecidableEq, Repr
/-- Statuses of commands in the order of R166. -/
inductive Status
  | ok | okUnrecorded | queued | busy | duplicate | notAppearing | handsetBusy | notBound | outOfService
  | isPrivate | lineFull | notSeizable | notPresented | noRecorder | shared | notMember | micBusy
  | floorBusy | notHolding | badArgument | badCommand | memoryError
  deriving DecidableEq, Repr
/-- Kinds of a last-frame record (R90). -/
inductive FrameKind | none | captured | concealed | silent
  deriving DecidableEq, Repr
inductive Tone | ring | hold | recall
  deriving DecidableEq, Repr

/-- What a session records, and which conversation a bus mixes: a line or a group. -/
inductive Subject
  | line (l : LineId)
  | group (g : GroupId)
  deriving DecidableEq, Repr

/-- A handset, named by its position and side. -/
structure Handset where
  pos : PosId
  side : Side
  deriving DecidableEq, Repr

/-- Events of R169 with their fields. -/
inductive Event
  | commandDone (tag : Word) (kind : Byte) (status : Status)
  | lineState (line : LineId) (state : LineState) (cause : LineCause)
  | farEnd (line : LineId) (value : Hook)
  | ringStart (line : LineId) (phase : Phase) (pos : Option PosId)
  | ringPhase (line : LineId) (reason : PhaseReason)
  | ringEnd (line : LineId) (cause : RingCause) (pos : Option PosId)
  | positionAlert (pos : PosId) (on : Bool)
  | holdRecall (line : LineId) (pos : PosId)
  | floorGrant (group : GroupId) (pos : PosId)
  | floorTimeout (group : GroupId) (pos : PosId)
  | floorRevoked (group : GroupId) (pos : PosId) (cause : FloorCause)
  | floorWithdrawn (group : GroupId) (pos : PosId) (cause : FloorCause)
  | recordBuffer (chan : ChanId) (buf : Buf) (session first count : Word) (final : Bool)
  | recordLoss (chan : ChanId) (session frame : Word)
  | clockLost (frame : Word)
  | clockRestored (frame : Word)
  | timeStep (old new : FloorTime) (reason : StepReason)
  | eventsLost (count : Word)
  | fault (code : FaultCode) (kind : AccessKind) (addr : Addr) (count : Word)
  | commandRingFault (value taken : Word)
  deriving DecidableEq, Repr

/-! ### Line Controller -/

/-- A line record (R1). -/
structure LineRec where
  type : LineType
  state : LineState
  farEnd : Hook
  ringInd : RingInd
  owners : List Handset
  privacy : Bool
  heldBy : Option PosId
  preferred : Option PosId
  ringDelay : Nat
  recallTime : Nat
  policy : Policy
  recorder : Option ChanId
  pad : Nat
  group : Option GroupId
  missed : Nat
  recallDeadline : Option Word
  ctlPending : Bool
  deriving DecidableEq, Repr

/-- A handset's binding and settings (R9); `none` is FREE. -/
structure HandsetRec where
  binding : Option LineId
  volume : Nat
  micPad : Nat
  deriving DecidableEq, Repr

/-- The Line Controller: Line Table, handsets in the order LEFT, RIGHT of position 0, 1, …, and appearance maps. -/
structure LineCtl where
  lines : Table 96 LineRec
  handsets : Table 16 HandsetRec
  maps : Table 8 (Table 48 (Option LineId))
  deriving DecidableEq, Repr

/-! ### Ring Presenter -/

/-- A ring record (R29). -/
structure RingRec where
  phase : Phase
  shown : PosSet
  delayDeadline : Option Word
  recallPos : Option PosId
  deriving DecidableEq, Repr

/-- The counts and the alert indicator of a position (R30). -/
structure PosRing where
  ringCount : Nat
  recallCount : Nat
  alert : Bool
  deriving DecidableEq, Repr

structure RingCtl where
  rings : Table 96 (Option RingRec)
  counts : Table 8 PosRing
  deriving DecidableEq, Repr

/-! ### Talk Floor Controller -/

/-- A holder or queue entry: position, supervisor standing, deadline (R45). -/
structure FloorEntry where
  pos : PosId
  standing : Bool
  deadline : Option Word
  deriving DecidableEq, Repr

/-- A group record (R45). -/
structure GroupRec where
  members : PosSet
  hootLines : List LineId
  maxTalkers : Nat
  holders : List FloorEntry
  queue : List FloorEntry
  queueTimeout : Nat
  talkLimit : Nat
  policy : Policy
  hangTime : Nat
  recorder : Option ChanId
  hangDeadline : Option Word
  deriving DecidableEq, Repr

structure FloorCtl where
  groups : Table 16 GroupRec
  deriving DecidableEq, Repr

/-! ### Mix Planner -/

/-- A speaker channel record (R70); subject `none` is none. -/
structure SpkChan where
  subject : Option Subject
  side : Side
  volume : Nat
  on : Bool
  deriving DecidableEq, Repr

/-- The audio settings and supervisor mark of a position (R71). -/
structure PosSettings where
  speakerMicPad : Nat
  duck : Nat
  ringLevel : Nat
  recallLevel : Nat
  supervisor : Bool
  deriving DecidableEq, Repr

structure Planner where
  speakers : Table 8 (Table 12 SpkChan)
  settings : Table 8 PosSettings
  holdLevel : Nat
  deriving DecidableEq, Repr

/-! ### Mixing Engine -/

/-- A last-frame record (R90). -/
structure LastFrame where
  kind : FrameKind
  frame : Frame
  deriving DecidableEq, Repr

/-- A tone's waveform and cadence (R101). -/
structure ToneTable where
  samples : Table 32 Sample
  onFrames : Nat
  offFrames : Nat
  deriving DecidableEq, Repr

/-- The Mixing Engine (R90); `waiting` holds the frame events handed to it and not yet taken (R129).
Tones are in the order RING, HOLD, RECALL. -/
structure Mixer where
  last : Table 120 LastFrame
  underrun : Table 120 Word
  saturation : Table 160 Word
  phase : Table 3 Nat
  tones : Table 3 ToneTable
  waiting : List Word
  deriving DecidableEq, Repr

/-! ### Path unit -/

/-- The Region Table (R107). -/
structure Regions where
  inbound : Option Addr
  outbound : Option Addr
  signal : Option Addr
  control : Option Addr
  deriving DecidableEq, Repr

/-- Shadows of the watched words (R110, R111). -/
structure Shadows where
  signal : Table 96 Word
  post : Word
  evConsumed : Word
  logConsumed : Word
  timeSync : BitVec 128
  anchor : Word
  deriving DecidableEq, Repr

/-- A slot assembly record (R113). -/
structure Assembly where
  slot : Option SlotId
  marks : Table 32 (Option Byte)
  deriving DecidableEq, Repr

/-- The totals of a source's queue, their bases, and the torn counter (R119). -/
structure Totals where
  captured : Word
  taken : Word
  overrun : Word
  flushed : Word
  baseCaptured : Word
  baseTaken : Word
  baseOverrun : Word
  baseFlushed : Word
  torn : Word
  deriving DecidableEq, Repr

/-- A mixed frame with the number of its frame event (R120). -/
structure StoredFrame where
  number : Word
  frame : Frame
  deriving DecidableEq, Repr

/-- What an own access is for. Its kind, its requester and whether it reads follow from it (`Flags.lean`). -/
inductive Purpose
  | frameWrite (chan : ChanId) (buf : Buf) (frame session : Word)
  | closeRecord (index : Word)
  | logProduced (count : Word)
  | eventSlot (index : Word)
  | eventProduced (count : Word)
  | commandTaken (count : Word)
  | lineControl (line : LineId)
  | snapshot
  | commandFetch
  | imageRead
  | statusWord (state : OpState)
  deriving DecidableEq, Repr

/-- An access the part makes for itself (R123): its address, the data of a write, and for a read the number of
pass-through writes accepted before it was requested and not yet granted (R124). -/
structure OwnAccess where
  purpose : Purpose
  addr : Addr
  data : List Byte
  behind : Nat
  deriving DecidableEq, Repr

/-- A forwarded transaction. -/
inductive PassTxn
  | write (t : WriteTxn)
  | read (b : Burst)
  deriving DecidableEq, Repr

/-- An answer on the upstream port: an outbound read answered OKAY from the Output Store (R121), or the
downstream response to a forwarded transaction, unchanged (R109). -/
inductive Answer
  | outbound (b : Burst) (data : List Byte)
  | forwarded (t : PassTxn) (resp : Resp) (data : List (BitVec 64))
  deriving DecidableEq, Repr

/-- The path unit. `answer` is the model's own field: what the upstream port answered last (log 14). -/
structure PathUnit where
  regions : Regions
  shadows : Shadows
  assembly : Table 120 Assembly
  queues : Table 120 (List Frame)
  totals : Table 120 Totals
  store : Table 160 (List StoredFrame)
  unheld : Table 160 Word
  lastOwn : Bool
  passWaiting : List PassTxn
  passFlight : List PassTxn
  own : List OwnAccess
  flight : List OwnAccess
  answer : Option Answer
  deriving DecidableEq, Repr

/-! ### Frame Timer -/

/-- The Frame Timer (R128). A timer is the CLK cycle of its expiry, or stopped. `clock` is the model's own count of
CLK cycles since the last reset (log 4). -/
structure FrameTimer where
  counter : Word
  floor : FloorTime
  timeSet : TimeStatus
  watch : Watch
  watchTimer : Option Nat
  freeTimer : Option Nat
  refPulse : Option Nat
  good : Nat
  mismatches : Nat
  syncMismatch : Word
  clockLosses : Word
  clkPerMs : Nat
  clock : Nat
  deriving DecidableEq, Repr

/-! ### Recorder Unit -/

/-- A buffer of a recorder channel (R143). -/
structure Buffer where
  base : Addr
  ceil : Addr
  owner : Owner
  fill : Addr
  firstFrame : Option Word
  firstSession : Option Word
  deriving DecidableEq, Repr

/-- A session record; the end fields are present once it is a close record (R144). -/
structure Session where
  number : Word
  previous : Option Word
  subject : Subject
  channel : ChanId
  startFrame : Word
  endFrame : Option Word
  startTime : FloorTime
  endTime : Option FloorTime
  parties : List PosId
  written : Word
  lost : Word
  cause : Option SessionCause
  timeStepped : Bool
  deriving DecidableEq, Repr

/-- A waiting RECORD_BUFFER with its count of frame writes not yet returned (R150). -/
structure BufEvent where
  buf : Buf
  session : Word
  first : Word
  count : Word
  waiting : Nat
  deriving DecidableEq, Repr

/-- A recorder channel record (R143). `frameSeen`: a frame event has been taken since the session end (R154);
`placed`: the log index at which the held close record was placed (R155). -/
structure Channel where
  state : ChanState
  subject : Option Subject
  bufA : Buffer
  bufB : Buffer
  current : Buf
  overflowing : Bool
  segPending : Bool
  session : Option Session
  closeRecord : Option Session
  closeDone : Bool
  frameSeen : Bool
  placed : Option Word
  outstanding : Nat
  bufEvents : List BufEvent
  deriving DecidableEq, Repr

/-- The recorder frames of one frame event (R103 stage 8). -/
structure RecFrames where
  number : Word
  frames : Table 32 Frame
  deriving DecidableEq, Repr

structure RecUnit where
  channels : Table 32 Channel
  nextSession : Word
  frameNo : Word
  logBase : Addr
  logSize : Nat
  produced : Word
  consumed : Word
  logFaults : Word
  segLen : Nat
  inbox : List RecFrames
  deriving DecidableEq, Repr

/-! ### Command and Event Unit -/

/-- A recorded fault (R170). -/
structure FaultInfo where
  code : FaultCode
  kind : AccessKind
  addr : Addr
  deriving DecidableEq, Repr

/-- The Fault Record (R170). -/
structure FaultRecord where
  first : Option FaultInfo
  count : Word
  asserted : Bool
  cause : FaultCode
  deriving DecidableEq, Repr

/-- The Command and Event Unit (R163, R167, R170). -/
structure CmdUnit where
  cmdBase : Addr
  cmdSize : Nat
  posted : Word
  taken : Word
  execution : Execution
  curTag : Word
  curKind : Byte
  inHand : Option Instr
  snapError : Bool
  evBase : Addr
  evSize : Nat
  evProduced : Word
  evConsumed : Word
  backlog : List Event
  lost : Word
  evFaults : Word
  fault : FaultRecord
  deriving DecidableEq, Repr

/-! ### Configuration Loader -/

/-- The Configuration Loader (R175 to R178): operating state, sampled straps, image address, offset of the section
being read and the bytes read from there on, identifier of the expected section, and the region bases read. -/
structure Loader where
  op : OpState
  sel : BitVec 2
  image : Addr
  cursor : Nat
  buf : List Byte
  expected : Nat
  regions : Regions
  deriving DecidableEq, Repr

/-- A watched word handed by the path unit to the block that owns it and not yet taken (R110, R111). -/
inductive Handed
  | signalWord (line : LineId) (w : Word)
  | commandPost (v : Word)
  | eventConsumed (v : Word)
  | logConsumed (v : Word)
  | timeSync (w : BitVec 128)
  | anchor (v : Word)
  deriving DecidableEq, Repr

/-- The part. `draws` counts the free values drawn (log 9), `pending` is the queue of waiting commands. -/
structure State where
  lc : LineCtl
  rc : RingCtl
  fc : FloorCtl
  mp : Planner
  me : Mixer
  pu : PathUnit
  ft : FrameTimer
  ru : RecUnit
  cu : CmdUnit
  ld : Loader
  handed : List Handed
  draws : Nat
  pending : List Instr
  deriving DecidableEq, Repr

/-- Why the model stops on a command. -/
inductive Fault
  /-- A transaction at the upstream port is not an AXI4 burst, so R108 gives it no treatment (log 13).
  Raised by UPSTREAM_WRITE, UPSTREAM_READ and OUTBOUND_READ. Safe. -/
  | malformedBurst
  deriving DecidableEq, Repr

/-- A command without a meaning. -/
inductive Refusal
  /-- The command has no meaning in this model; no arm of `exec` answers so. Safe. -/
  | notModelled (mnemonic : String)
  deriving DecidableEq, Repr

/-! ### Values after power-on -/

/-- R1. -/
def LineRec.reset : LineRec :=
  { type := .ringdown, state := .outOfService, farEnd := .onHook, ringInd := .quiet, owners := [],
    privacy := false, heldBy := none, preferred := none, ringDelay := 0, recallTime := 0, policy := .none,
    recorder := none, pad := 0, group := none, missed := 0, recallDeadline := none, ctlPending := false }

/-- R9, R10. -/
def LineCtl.reset : LineCtl :=
  { lines := .replicate 96 .reset, handsets := .replicate 16 ⟨none, 0, 0⟩,
    maps := .replicate 8 (.replicate 48 none) }

/-- R29, R30. -/
def RingCtl.reset : RingCtl :=
  { rings := .replicate 96 none, counts := .replicate 8 ⟨0, 0, false⟩ }

/-- R45. -/
def GroupRec.reset : GroupRec :=
  { members := 0, hootLines := [], maxTalkers := 1, holders := [], queue := [], queueTimeout := 0,
    talkLimit := 0, policy := .none, hangTime := 0, recorder := none, hangDeadline := none }

/-- R26, R70, R71. -/
def Planner.reset : Planner :=
  { speakers := .replicate 8 (.replicate 12 ⟨none, .left, 0, false⟩),
    settings := .replicate 8 ⟨0, 0, 0, 0, false⟩, holdLevel := 0 }

/-- A frame of zeros. -/
def silence : Frame := .replicate 16 0

/-- R90. -/
def Mixer.reset : Mixer :=
  { last := .replicate 120 ⟨.none, silence⟩, underrun := .replicate 120 0, saturation := .replicate 160 0,
    phase := .replicate 3 0, tones := .replicate 3 ⟨.replicate 32 0, 1, 1⟩, waiting := [] }

/-- Every region absent (R107). -/
def Regions.absent : Regions := ⟨none, none, none, none⟩

/-- R110, R111. -/
def Shadows.zero : Shadows := ⟨.replicate 96 0, 0, 0, 0, 0, 0⟩

/-- R113: no current slot, no marks. -/
def Assembly.empty : Assembly := ⟨none, .replicate 32 none⟩

/-- R107, R113, R117, R119, R120, R121, R123, R127. -/
def PathUnit.reset : PathUnit :=
  { regions := .absent, shadows := .zero, assembly := .replicate 120 .empty, queues := .replicate 120 [],
    totals := .replicate 120 ⟨0, 0, 0, 0, 0, 0, 0, 0, 0⟩, store := .replicate 160 [],
    unheld := .replicate 160 0, lastOwn := false, passWaiting := [], passFlight := [], own := [],
    flight := [], answer := none }

/-- R128, R177. -/
def FrameTimer.reset : FrameTimer :=
  { counter := 0, floor := 0, timeSet := .unset, watch := .acquiring, watchTimer := none, freeTimer := none,
    refPulse := none, good := 0, mismatches := 0, syncMismatch := 0, clockLosses := 0, clkPerMs := 0, clock := 0 }

/-- R143. -/
def Buffer.reset : Buffer := ⟨0, 0, .part, 0, none, none⟩

/-- R143. -/
def Channel.reset : Channel :=
  { state := .free, subject := none, bufA := .reset, bufB := .reset, current := .bufA, overflowing := false,
    segPending := false, session := none, closeRecord := none, closeDone := false, frameSeen := false,
    placed := none, outstanding := 0, bufEvents := [] }

/-- R143, R145, R149, R155, R156, R157. -/
def RecUnit.reset : RecUnit :=
  { channels := .replicate 32 .reset, nextSession := 1, frameNo := 0, logBase := 0, logSize := 0,
    produced := 0, consumed := 0, logFaults := 0, segLen := 0, inbox := [] }

/-- R170, power-on. -/
def FaultRecord.reset : FaultRecord := ⟨none, 0, false, .none⟩

/-- R163, R167. -/
def CmdUnit.reset (fr : FaultRecord) : CmdUnit :=
  { cmdBase := 0, cmdSize := 0, posted := 0, taken := 0, execution := .idle, curTag := 0, curKind := 0,
    inHand := none, snapError := false, evBase := 0, evSize := 0, evProduced := 0, evConsumed := 0,
    backlog := [], lost := 0, evFaults := 0, fault := fr }

/-- R175, R176: TRANSPARENT with the straps sampled. -/
def Loader.reset (straps : BitVec 2) : Loader :=
  { op := .transparent, sel := straps, image := 0, cursor := 0, buf := [], expected := 1, regions := .absent }

/-- The part after a reset (R181): every block at its power-on values, nothing in flight, the Fault Record given.
The queue and the count of draws are not the part's and stay. -/
def State.afterReset (fr : FaultRecord) (straps : BitVec 2) (draws : Nat) (pending : List Instr) : State :=
  { lc := .reset, rc := .reset, fc := ⟨.replicate 16 .reset⟩, mp := .reset, me := .reset, pu := .reset,
    ft := .reset, ru := .reset, cu := .reset fr, ld := .reset straps, handed := [], draws := draws,
    pending := pending }

/-- The machine right after power-on, with straps 0 (log 19) and no command waiting. -/
def State.reset : State := State.afterReset .reset 0 0 []

end Sys2Proof.Machine
end

