-- ==== Sys2Proof/Machine/Operands.lean ====
section
/-! DEFINITION. Operand forms: the number codes of R182, how argument and image bytes are read (R184 to R188),
the clamps of R24, R26, R59, R73 and R179, and byte order (00_scope.md section 5). -/

namespace Sys2Proof.Machine

/-! ### Byte order -/

/-- The low `n` bytes of `v`, least significant first. -/
def leBytes (n v : Nat) : List Byte :=
  (List.range n).map fun i => BitVec.ofNat 8 (v / 256 ^ i)

/-- The number whose bytes, least significant first, are given. -/
def leNat : List Byte → Nat
  | [] => 0
  | b :: bs => b.toNat + 256 * leNat bs

/-- `n` bytes of a list from offset `o`, as a number. -/
def leAt (bs : List Byte) (o n : Nat) : Nat := leNat ((bs.drop o).take n)

/-- Byte `o` of a list; beyond its end 0. -/
def byteAt (bs : List Byte) (o : Nat) : Byte := bs.getD o 0

/-- A 36-bit address held in 5 bytes: the high 4 bits of the fifth are not used (R186). -/
def addrAt (bs : List Byte) (o : Nat) : Addr := BitVec.ofNat 36 (leAt bs o 5)

/-! ### Reading operands; `none` is an index or code error -/

/-- A byte that names one of `n` things. -/
def idArg (n : Nat) (b : Byte) : Option (Fin n) :=
  if h : b.toNat < n then some ⟨b.toNat, h⟩ else none

/-- A byte that names one of `n` things or, as 255, none. -/
def optIdArg (n : Nat) (b : Byte) : Option (Option (Fin n)) :=
  if b = 255 then some none else (idArg n b).map some

/-- A two-valued field: 0 no, 1 yes. -/
def flagArg (b : Byte) : Option Bool :=
  if b = 0 then some false else if b = 1 then some true else none

def sideArg (b : Byte) : Option Side :=
  if b = 0 then some .left else if b = 1 then some .right else none

def bufArg (b : Byte) : Option Buf :=
  if b = 0 then some .bufA else if b = 1 then some .bufB else none

def typeArg (b : Byte) : Option LineType :=
  if b = 0 then some .ringdown else if b = 1 then some .dial else if b = 2 then some .hoot else none

def policyArg (b : Byte) : Option Policy :=
  if b = 0 then some .none else if b = 1 then some .optional else if b = 2 then some .required else none

/-- The subject of a speaker channel entry: kind byte and number byte; the number is not read for kind none (R186). -/
def subjectArg (kind number : Byte) : Option (Option Subject) :=
  if kind = 0 then some none
  else if kind = 1 then (idArg 96 number).map fun l => some (.line l)
  else if kind = 2 then (idArg 16 number).map fun g => some (.group g)
  else none

/-- The handset that a position byte and a side byte name. -/
def handsetArg (pos side : Byte) : Option Handset :=
  match idArg 8 pos, sideArg side with
  | some p, some s => some ⟨p, s⟩
  | _, _ => none

/-- Hoot lines of a GROUPS record: `none` for a count above 2, a line of 96 or more (R58, R186). -/
def hootArg (c : GroupArgs) : Option (List LineId) :=
  if c.hootCount = 0 then some []
  else if c.hootCount = 1 then (idArg 96 c.hoot0).map fun l => [l]
  else if c.hootCount = 2 then
    match idArg 96 c.hoot0, idArg 96 c.hoot1 with
    | some l, some m => some [l, m]
    | _, _ => none
  else none

/-! ### Clamps (R24, R26, R59, R179) -/

def clampLevel (b : Byte) : Nat := min b.toNat 72
def clampPad (b : Byte) : Nat := min b.toNat 24
/-- ring_delay in 100 ms units, stored in frames. -/
def ringDelayFrames (units : Byte) : Nat := 100 * min units.toNat 100
/-- recall_time in seconds, stored in frames: 0 stays 0, 1 to 9 s become 10 s, above 600 s becomes 600 s. -/
def recallFrames (seconds : Half) : Nat :=
  if seconds = 0 then 0 else 1000 * min (max seconds.toNat 10) 600
/-- queue_timeout in 100 ms units, stored in frames; a byte cannot exceed 255 units. -/
def queueTimeoutFrames (units : Byte) : Nat := 100 * units.toNat
/-- talk_limit in seconds, stored in frames; a byte cannot exceed 255 s. -/
def talkLimitFrames (seconds : Byte) : Nat := 1000 * seconds.toNat
/-- hang_time in seconds, stored in frames. -/
def hangFrames (seconds : Byte) : Nat := 1000 * min seconds.toNat 60
def clampTalkers (n : Byte) : Nat := min (max n.toNat 1) 3
/-- on_frames and off_frames (R101). -/
def clampCadence (n : Nat) : Nat := min (max n 1) 10000
/-- Segment length in minutes, stored in frames (R157, R179). -/
def segmentFrames (minutes : Nat) : Nat := 60000 * min minutes 240
/-- clk_per_ms (R177). -/
def clampClk (n : Nat) : Nat := min (max n 50000) 1000000

/-! ### Codes (R182) -/

def LineType.code : LineType → Byte
  | .ringdown => 0 | .dial => 1 | .hoot => 2
def LineState.code : LineState → Byte
  | .outOfService => 0 | .idle => 1 | .ringing => 2 | .connected => 3 | .held => 4 | .bridged => 5
def Policy.code : Policy → Byte
  | .none => 0 | .optional => 1 | .required => 2
def Side.code : Side → Byte
  | .left => 0 | .right => 1
def Buf.code : Buf → Byte
  | .bufA => 0 | .bufB => 1
def flagCode (b : Bool) : Byte := if b then 1 else 0
def Hook.code : Hook → Byte
  | .onHook => 0 | .offHook => 1
def RingInd.code : RingInd → Byte
  | .quiet => 0 | .ringing => 1
def LineCause.code : LineCause → Byte
  | .ring => 0 | .seized => 1 | .answered => 2 | .held => 3 | .retrieved => 4 | .recall => 5 | .released => 6
  | .abandoned => 7 | .farEndClear => 8 | .forced => 9 | .outOfService => 10 | .inService => 11 | .bridged => 12
  | .unbridged => 13 | .restart => 14
def Phase.code : Phase → Byte
  | .preferred => 0 | .general => 1 | .recall => 2
def PhaseReason.code : PhaseReason → Byte
  | .expiry => 0 | .appearance => 1
def RingCause.code : RingCause → Byte
  | .answered => 0 | .abandoned => 1 | .farEndClear => 2 | .forced => 3 | .outOfService => 4 | .restart => 5
def FloorCause.code : FloorCause → Byte
  | .preempt => 0 | .talkLimit => 1 | .membership => 2 | .limit => 3 | .restart => 4
def SessionCause.code : SessionCause → Byte
  | .released => 0 | .farEndClear => 1 | .forced => 2 | .outOfService => 3 | .groupSilent => 4 | .segment => 5
  | .restart => 6
def StepReason.code : StepReason → Byte
  | .initial => 0 | .imperative => 1 | .mismatch => 2
def ChanState.code : ChanState → Byte
  | .free => 0 | .active => 1 | .draining => 2
def Owner.code : Owner → Byte
  | .part => 0 | .host => 1
def Watch.code : Watch → Byte
  | .locked => 0 | .freewheel => 1 | .acquiring => 2
def TimeStatus.code : TimeStatus → Byte
  | .unset => 0 | .set => 1
def Execution.code : Execution → Byte
  | .idle => 0 | .fetching => 1 | .executing => 2
/-- The operating state in the status word; TRANSPARENT is never written there. -/
def OpState.code : OpState → Byte
  | .transparent => 0 | .loading => 1 | .running => 2 | .configFault => 3
def FaultCode.code : FaultCode → Byte
  | .none => 0 | .memoryError => 1 | .imageUnterminated => 2 | .badSection => 3 | .regionMisaligned => 4
  | .ringSize => 5 | .regionOverlap => 6 | .badIndex => 7
def AccessKind.code : AccessKind → Byte
  | .frameWrite => 0 | .logWrite => 1 | .eventWrite => 2 | .lineControl => 3 | .snapshot => 4 | .commandFetch => 5
  | .config => 6
def Status.code : Status → Byte
  | .ok => 0 | .okUnrecorded => 1 | .queued => 2 | .busy => 3 | .duplicate => 4 | .notAppearing => 5
  | .handsetBusy => 6 | .notBound => 7 | .outOfService => 8 | .isPrivate => 9 | .lineFull => 10
  | .notSeizable => 11 | .notPresented => 12 | .noRecorder => 13 | .shared => 14 | .notMember => 15
  | .micBusy => 16 | .floorBusy => 17 | .notHolding => 18 | .badArgument => 19 | .badCommand => 20
  | .memoryError => 21
/-- A subject as kind byte and number byte; 0 and 255 where it is absent. -/
def subjectBytes : Option Subject → List Byte
  | none => [0, 255]
  | some (.line l) => [1, BitVec.ofNat 8 l.val]
  | some (.group g) => [2, BitVec.ofNat 8 g.val]
/-- A byte that names a thing, 255 where it is absent. -/
def idByte {n : Nat} (o : Option (Fin n)) : Byte :=
  match o with
  | none => 255
  | some i => BitVec.ofNat 8 i.val

/-! ### Causes that follow from one another (R3) -/

/-- The cause handed to the Recorder Unit for a clearing with this LINE_STATE cause (R3). -/
def LineCause.session : LineCause → SessionCause
  | .farEndClear => .farEndClear
  | .forced => .forced
  | .outOfService => .outOfService
  | .restart => .restart
  | _ => .released

/-- The cause handed to the Ring Presenter for a clearing with this LINE_STATE cause (R3, R39). -/
def LineCause.ringEnd : LineCause → RingCause
  | .farEndClear => .farEndClear
  | .forced => .forced
  | .outOfService => .outOfService
  | .restart => .restart
  | .abandoned => .abandoned
  | _ => .answered

/-! ### Table places -/

/-- The place of a handset: LEFT and RIGHT of position 0, then of position 1, … -/
def Handset.idx (h : Handset) : Fin 16 :=
  match h.side with
  | .left => ⟨2 * h.pos.val, by omega⟩
  | .right => ⟨2 * h.pos.val + 1, by omega⟩

def Tone.idx : Tone → Fin 3
  | .ring => 0 | .hold => 1 | .recall => 2

/-- The microphone source of a handset: 96 + 3p LEFT, 97 + 3p RIGHT (00_scope.md section 4). -/
def Handset.source (h : Handset) : SourceId :=
  match h.side with
  | .left => ⟨96 + 3 * h.pos.val, by omega⟩
  | .right => ⟨97 + 3 * h.pos.val, by omega⟩

/-- The speaker microphone source of a position: 98 + 3p. -/
def speakerSource (p : PosId) : SourceId := ⟨98 + 3 * p.val, by omega⟩

/-- The inbound source of a line. -/
def lineSource (l : LineId) : SourceId := ⟨l.val, by omega⟩

/-- Position `p` is in the set. -/
def inSet (s : PosSet) (p : PosId) : Bool := s.getLsbD p.val

/-- The set of one position. -/
def onlyPos (p : PosId) : PosSet := BitVec.ofNat 8 (2 ^ p.val)

end Sys2Proof.Machine
end

