-- ==== Sys2Proof/Machine/Flags.lean ====
section
/-! DEFINITION. Pins, levels and conditions that are computed from the state: near_end, EVENTn, FAULTn, the reserve,
deadlines that are due, and what an own access's kind, requester and direction are. -/

namespace Sys2Proof.Machine

/-- near_end is OFF_HOOK in CONNECTED, HELD and BRIDGED (R8). -/
def LineState.nearEnd : LineState → Hook
  | .connected | .held | .bridged => .offHook
  | .outOfService | .idle | .ringing => .onHook

/-- Places kept back for the completion of the command in hand (R167). -/
def CmdUnit.reserve (c : CmdUnit) : Nat :=
  match c.execution with
  | .idle => 0
  | .fetching | .executing => 2

/-- Free places of the backlog. -/
def CmdUnit.freePlaces (c : CmdUnit) : Nat := Config.backlogPlaces - c.backlog.length

/-- The event ring has room: produced − consumed, modulo 2^32, is below its size (R167). -/
def CmdUnit.room (c : CmdUnit) : Bool := (c.evProduced - c.evConsumed).toNat < c.evSize

/-- The Recording Log has room (R155). -/
def RecUnit.room (r : RecUnit) : Bool := (r.produced - r.consumed).toNat < r.logSize

/-- EVENTn is asserted while produced ≠ consumed (R169). -/
def State.eventAsserted (s : State) : Bool := s.cu.evProduced != s.cu.evConsumed

/-- FAULTn is asserted (R170). -/
def State.faultAsserted (s : State) : Bool := s.cu.fault.asserted

def State.running (s : State) : Bool := s.ld.op == .running

/-- The current frame number: the number of the most recent frame event (R129). -/
def State.now (s : State) : Word := s.ft.counter

/-- A deadline is due once the frame event of its number has been made (R141); every deadline lies less than 2^31 ahead. -/
def State.due (s : State) (d : Word) : Bool := (s.now - d).toNat < 2 ^ 31

/-- The kind of an own access (R123). -/
def Purpose.kind : Purpose → AccessKind
  | .frameWrite .. => .frameWrite
  | .closeRecord _ | .logProduced _ => .logWrite
  | .eventSlot _ | .eventProduced _ | .commandTaken _ => .eventWrite
  | .lineControl _ => .lineControl
  | .snapshot => .snapshot
  | .commandFetch => .commandFetch
  | .imageRead | .statusWord _ => .config

/-- The block that requests an own access, as a number of its own: Recorder Unit 0, Command and Event Unit 1,
Line Controller 2, Configuration Loader 3 (R123). -/
def Purpose.block : Purpose → Nat
  | .frameWrite .. | .closeRecord _ | .logProduced _ => 0
  | .eventSlot _ | .eventProduced _ | .commandTaken _ | .snapshot | .commandFetch => 1
  | .lineControl _ => 2
  | .imageRead | .statusWord _ => 3

def Purpose.isRead : Purpose → Bool
  | .commandFetch | .imageRead => true
  | _ => false

/-- A group has talkers while its holders list or its hoot_lines list is not empty (R45). -/
def GroupRec.hasTalkers (g : GroupRec) : Bool := !g.holders.isEmpty || !g.hootLines.isEmpty

/-- The position's entry stands in the list. -/
def entryOf (p : PosId) (es : List FloorEntry) : Bool := es.any (·.pos == p)

end Sys2Proof.Machine
end

