-- ==== Sys2Proof/Machine/Formats.lean ====
section
/-! DEFINITION. The records the part writes into memory, byte by byte (R183, R189). -/

namespace Sys2Proof.Machine

/-- Padding with zero bytes to `n` bytes. -/
def padTo (n : Nat) (bs : List Byte) : List Byte := bs ++ List.replicate (n - bs.length) 0

def finByte {n : Nat} (i : Fin n) : Byte := BitVec.ofNat 8 i.val

def wordBytes (w : Word) : List Byte := leBytes 4 w.toNat
def floorBytes (t : FloorTime) : List Byte := leBytes 6 t.toNat
def addrBytes (a : Addr) : List Byte := leBytes 5 a.toNat

/-- The 4 first bytes of an event slot: the kind code (R182) and bytes 1 to 3. -/
def Event.head : Event → List Byte
  | .commandDone _ kind status => [1, kind, status.code, 0]
  | .lineState line state cause => [2, finByte line, state.code, cause.code]
  | .farEnd line value => [3, finByte line, value.code, 0]
  | .ringStart line phase pos => [4, finByte line, phase.code, idByte pos]
  | .ringPhase line reason => [5, finByte line, Phase.general.code, reason.code]
  | .ringEnd line cause pos => [6, finByte line, cause.code, idByte pos]
  | .positionAlert pos on => [7, finByte pos, flagCode on, 0]
  | .holdRecall line pos => [8, finByte line, finByte pos, 0]
  | .floorGrant g pos => [9, finByte g, finByte pos, 0]
  | .floorTimeout g pos => [10, finByte g, finByte pos, 0]
  | .floorRevoked g pos cause => [11, finByte g, finByte pos, cause.code]
  | .floorWithdrawn g pos cause => [12, finByte g, finByte pos, cause.code]
  | .recordBuffer chan buf _ _ _ final => [13, finByte chan, buf.code, flagCode final]
  | .recordLoss chan _ _ => [14, finByte chan, 0, 0]
  | .clockLost _ => [15, 0, 0, 0]
  | .clockRestored _ => [16, 0, 0, 0]
  | .timeStep _ _ reason => [17, reason.code, 0, 0]
  | .eventsLost _ => [18, 0, 0, 0]
  | .fault code kind _ _ => [19, code.code, kind.code, 0]
  | .commandRingFault _ _ => [20, 0, 0, 0]

/-- Bytes 4 to 15 of an event slot, as far as they are not zero. -/
def Event.tail : Event → List Byte
  | .commandDone tag _ _ => wordBytes tag
  | .recordBuffer _ _ session first count _ => wordBytes session ++ wordBytes first ++ wordBytes count
  | .recordLoss _ session frame => wordBytes session ++ wordBytes frame
  | .clockLost frame | .clockRestored frame => wordBytes frame
  | .timeStep old new _ => floorBytes old ++ floorBytes new
  | .eventsLost count => wordBytes count
  | .fault _ _ addr count => padTo 8 (addrBytes addr) ++ wordBytes count
  | .commandRingFault value taken => wordBytes value ++ wordBytes taken
  | _ => []

/-- An event slot: 16 bytes (R189). -/
def Event.bytes (e : Event) : List Byte := padTo 16 (e.head ++ e.tail)

/-- The bytes of an absent item: 255 in each (R189, log 22). -/
def absentBytes (n : Nat) : List Byte := List.replicate n 255

/-- The 52 first bytes of a session block (R189): an absent previous session is 0, an absent end field 255 in each byte. -/
def Session.block (c : Session) : List Byte :=
  wordBytes c.number ++ wordBytes (c.previous.getD 0) ++ subjectBytes (some c.subject) ++
    [finByte c.channel, (c.cause.map SessionCause.code).getD 255,
      BitVec.ofNat 8 c.parties.length, flagCode c.timeStepped, 0, 0] ++
    ((c.parties.map finByte) ++ absentBytes 8).take 8 ++
    wordBytes c.startFrame ++ (c.endFrame.map wordBytes).getD (absentBytes 4) ++
    floorBytes c.startTime ++ (c.endTime.map floorBytes).getD (absentBytes 6) ++
    wordBytes c.written ++ wordBytes c.lost

/-- The session block where a channel holds no record: every item absent, the previous session 0, not-used bytes zero (R189,
log 22). -/
def noSessionBlock : List Byte := absentBytes 4 ++ wordBytes 0 ++ absentBytes 6 ++ [0, 0] ++ absentBytes 36

/-- A Recording Log record: 64 bytes (R155, R189). A close record has its end fields. -/
def Session.logRecord (c : Session) : List Byte := padTo 64 c.block

/-- The samples of a frame, least significant byte first (R149). -/
def frameBytes (f : Frame) : List Byte := f.rows.flatMap fun x => leBytes 2 x.toNat

/-- The frame whose 32 bytes are given: sample k in bytes 2k and 2k + 1 (R98). -/
def frameOfBytes (bs : List Byte) : Frame :=
  .build fun k => BitVec.ofNat 16 (leAt bs (2 * k.val) 2)

/-- The line control word: bit 0 near_end (R183, R184). -/
def controlWord (h : Hook) : List Byte := [h.code, 0, 0, 0]

/-- The status word (R176, R183). -/
def statusWordBytes (st : OpState) (code : FaultCode) (length : Nat) : List Byte :=
  [st.code, code.code, 0, 0] ++ leBytes 4 length

end Sys2Proof.Machine
end

