-- ==== Sys2Proof/Machine/Ops.lean ====
section
/-! DEFINITION. Shared operations: reading and writing the tables, asking for own accesses (R123), posting events (R167, R168),
recording faults (R126, R170), and completing a command (R166). -/

namespace Sys2Proof.Machine

/-! ### Tables -/

def State.line (s : State) (l : LineId) : LineRec := s.lc.lines.get l

def State.modLine (l : LineId) (f : LineRec → LineRec) (s : State) : State :=
  { s with lc := { s.lc with lines := s.lc.lines.modify l f } }

def State.handset (s : State) (h : Handset) : HandsetRec := s.lc.handsets.get h.idx

def State.modHandset (h : Handset) (f : HandsetRec → HandsetRec) (s : State) : State :=
  { s with lc := { s.lc with handsets := s.lc.handsets.modify h.idx f } }

/-- Position `p`'s appearance map. -/
def State.map (s : State) (p : PosId) : Table 48 (Option LineId) := s.lc.maps.get p

/-- Some key of `p`'s map holds the line (R10). -/
def State.appears (s : State) (p : PosId) (l : LineId) : Bool := (s.map p).rows.contains (some l)

def State.setKey (p : PosId) (k : KeyId) (l : Option LineId) (s : State) : State :=
  { s with lc := { s.lc with maps := s.lc.maps.modify p fun m => m.set k l } }

def State.ring (s : State) (l : LineId) : Option RingRec := s.rc.rings.get l

def State.setRing (l : LineId) (r : Option RingRec) (s : State) : State :=
  { s with rc := { s.rc with rings := s.rc.rings.set l r } }

def State.posRing (s : State) (p : PosId) : PosRing := s.rc.counts.get p

def State.setPosRing (p : PosId) (c : PosRing) (s : State) : State :=
  { s with rc := { s.rc with counts := s.rc.counts.set p c } }

def State.group (s : State) (g : GroupId) : GroupRec := s.fc.groups.get g

def State.modGroup (g : GroupId) (f : GroupRec → GroupRec) (s : State) : State :=
  { s with fc := { s.fc with groups := s.fc.groups.modify g f } }

def State.settings (s : State) (p : PosId) : PosSettings := s.mp.settings.get p

def State.speakers (s : State) (p : PosId) : Table 12 SpkChan := s.mp.speakers.get p

def State.chan (s : State) (c : ChanId) : Channel := s.ru.channels.get c

def State.modChan (c : ChanId) (f : Channel → Channel) (s : State) : State :=
  { s with ru := { s.ru with channels := s.ru.channels.modify c f } }

/-! ### Own accesses -/

/-- The number of pass-through writes that wait for a grant; an own read requested now follows them (R124). -/
def PathUnit.writesWaiting (p : PathUnit) : Nat :=
  (p.passWaiting.filter fun t => match t with | .write _ => true | .read _ => false).length

/-- A block asks the path unit for an own access (R123). -/
def requestOwn (purpose : Purpose) (addr : Addr) (data : List Byte) (s : State) : State :=
  let behind := if purpose.isRead then s.pu.writesWaiting else 0
  { s with pu := { s.pu with own := s.pu.own ++ [⟨purpose, addr, data, behind⟩] } }

/-- A place in the Control Block (R183). Before RUNNING no region is present and no such access is asked for. -/
def controlAddr (s : State) (offset : Nat) : Addr := s.pu.regions.control.getD 0 + BitVec.ofNat 36 offset

/-- The accesses in flight of the purposes that `which` picks, oldest first. -/
def State.flying (s : State) (which : Purpose → Bool) : List OwnAccess :=
  s.pu.flight.filter fun a => which a.purpose

/-- Removes the `k`th element that `which` picks. -/
def dropNth {α : Type} (which : α → Bool) : Nat → List α → List α
  | _, [] => []
  | k, a :: as =>
    if which a then
      match k with
      | 0 => as
      | k + 1 => a :: dropNth which k as
    else a :: dropNth which k as

/-- The response to the `k`th access in flight that `which` picks: the access, and the state without it in flight.
A response to nothing in flight is ignored (R127, log 10). -/
def takeFlight (which : Purpose → Bool) (k : Nat) (s : State) : Option (OwnAccess × State) :=
  match (s.flying which)[k]? with
  | none => none
  | some a => some (a, { s with pu := { s.pu with flight := dropNth (fun x => which x.purpose) k s.pu.flight } })

/-! ### Events -/

/-- The unit after events have entered its ring or backlog, and the slot writes it asks for (R168). -/
structure Emission where
  unit : CmdUnit
  slots : List OwnAccess
  deriving DecidableEq, Repr

/-- The write of an event's slot (R168). -/
def CmdUnit.slotWrite (c : CmdUnit) (e : Event) : OwnAccess :=
  ⟨.eventSlot c.evProduced, c.evBase + BitVec.ofNat 36 (16 * (c.evProduced.toNat % c.evSize)), e.bytes, 0⟩

/-- Writes an event into the ring: a slot write is asked for and produced rises by 1 (R168). -/
def Emission.write (m : Emission) (e : Event) : Emission :=
  ⟨{ m.unit with evProduced := m.unit.evProduced + 1 }, m.slots ++ [m.unit.slotWrite e]⟩

/-- Moves backlog entries into the ring, oldest first, while it has room (R167, R168). -/
def Emission.drainFrom : List Event → Emission → Emission
  | [], m => ⟨{ m.unit with backlog := [] }, m.slots⟩
  | e :: es, m => if m.unit.room then drainFrom es (m.write e) else ⟨{ m.unit with backlog := e :: es }, m.slots⟩

def CmdUnit.drained (c : CmdUnit) : Emission := Emission.drainFrom c.backlog ⟨c, []⟩

/-- Places an event needs in the backlog: 1, and 1 more for the EVENTS_LOST marker (R167). -/
def CmdUnit.places (c : CmdUnit) : Nat := if c.lost = 0 then 1 else 2

/-- The marker that goes ahead of the next admitted event. -/
def CmdUnit.marker (c : CmdUnit) : List Event := if c.lost = 0 then [] else [.eventsLost c.lost]

/-- `v + 1`, saturating at 2^32 − 1. -/
def satSucc (v : Word) : Word := if v = BitVec.allOnes 32 then v else v + 1

/-- The backlog takes an event, behind the marker if events were lost. -/
def CmdUnit.queued (c : CmdUnit) (e : Event) : CmdUnit := { c with backlog := c.backlog ++ c.marker ++ [e], lost := 0 }

/-- Arrival of an event posted by a block (R167). `keep` is the reserve it must leave free. -/
def CmdUnit.takeEvent (c : CmdUnit) (keep : Nat) (e : Event) : Emission :=
  if c.backlog = [] ∧ c.lost = 0 ∧ c.room = true then Emission.write ⟨c, []⟩ e
  else if c.places + keep ≤ c.freePlaces then
    if c.backlog = [] then (c.queued e).drained else ⟨c.queued e, []⟩
  else ⟨{ c with lost := satSucc c.lost }, []⟩

/-- The unit's new state, and its slot writes asked for. -/
def emit (m : Emission) (s : State) : State := { s with cu := m.unit, pu := { s.pu with own := s.pu.own ++ m.slots } }

/-- The backlog drains into the ring while it has room (R168). -/
def drain (s : State) : State := emit s.cu.drained s

/-- Arrival of an event (R167). -/
def postKeeping (keep : Nat) (e : Event) (s : State) : State := emit (s.cu.takeEvent keep e) s

/-- Posts an event other than the completion of the command in hand: it leaves the reserve free. -/
def post (e : Event) (s : State) : State := postKeeping s.cu.reserve e s

/-- Posts several events in order. -/
def postAll (es : List Event) (s : State) : State := es.foldl (fun s e => post e s) s

/-! ### Faults -/

/-- Arrival of a fault at the Fault Record (R170). -/
def recordFault (code : FaultCode) (kind : AccessKind) (addr : Addr) (s : State) : State :=
  let f := s.cu.fault
  { s with cu := { s.cu with fault :=
    { first := some (f.first.getD ⟨code, kind, addr⟩), count := satSucc f.count, asserted := true, cause := code } } }

/-- The access was made while the operating state was not RUNNING: an image read, or a status word of LOADING or
CONFIG_FAULT (R126, R176). -/
def Purpose.madeBeforeRunning : Purpose → Bool
  | .imageRead => true
  | .statusWord st => st != .running
  | _ => false

/-- An error response to an own access (R126): the fault is recorded, and FAULT posted unless the access is a
configuration access made before RUNNING; outside RUNNING no event is posted (R175). -/
def memoryFault (a : OwnAccess) (s : State) : State :=
  let kind := a.purpose.kind
  let s := recordFault .memoryError kind a.addr s
  if a.purpose.madeBeforeRunning || !s.running then s
  else post (.fault .memoryError kind a.addr s.cu.fault.count) s

/-- The fault of an own access, if its response is an error. -/
def faultIf (error : Bool) (a : OwnAccess) (s : State) : State := if error then memoryFault a s else s

/-! ### Completion -/

/-- Completes the command in hand (R165, R166): COMMAND_DONE, taken + 1, a write of the command taken word, IDLE. -/
def complete (status : Status) (s : State) : State :=
  let c := s.cu
  let s := postKeeping 0 (.commandDone c.curTag c.curKind status) s
  let taken := s.cu.taken + 1
  let s := requestOwn (.commandTaken taken) (controlAddr s 4) (wordBytes taken) s
  { s with cu := { s.cu with taken := taken, execution := .idle, inHand := none } }

/-- The command is the one in hand: it has been fetched and handed to its block (R165, log 2). -/
def State.holds (s : State) (c : Instr) : Bool :=
  s.running && s.cu.execution == .executing && s.cu.inHand == some c

/-- The outcome type of a step. -/
abbrev Out := Host.Outcome State Fault Refusal

/-- A host command: taken when it is the command in hand, it acts and completes with its status. -/
def runCommand (c : Instr) (act : State → State × Status) (s : State) : Out :=
  if s.holds c then
    let r := act s
    .next (complete r.2 r.1)
  else .next s

/-- An arrival that can come only in RUNNING (R107, R175): elsewhere it does not take place (log 3). -/
def inRunning (act : State → State) (s : State) : Out := if s.running then .next (act s) else .next s

/-- A block takes a watched word: its entry leaves the hand-over list (R110, log 1). -/
def takeHanded (h : Handed) (s : State) : State := { s with handed := s.handed.erase h }

end Sys2Proof.Machine
end

