-- ==== Sys2Proof/Machine/Recorder.lean ====
section
/-! DEFINITION. The Recorder Unit (08_compliance_recording.md): channels, sessions, buffers, the Recording Log, and its commands. -/

namespace Sys2Proof.Machine

/-! ### Channels and sessions -/

def Buf.other : Buf → Buf
  | .bufA => .bufB
  | .bufB => .bufA

def Channel.buffer (c : Channel) : Buf → Buffer
  | .bufA => c.bufA
  | .bufB => c.bufB

def Channel.setBuffer (c : Channel) (b : Buf) (x : Buffer) : Channel :=
  match b with
  | .bufA => { c with bufA := x }
  | .bufB => { c with bufB := x }

def Channel.here (c : Channel) : Buffer := c.buffer c.current

/-- Appends a position that is not yet in the list (R148). -/
def addParty (p : PosId) (ps : List PosId) : List PosId := if p ∈ ps then ps else ps ++ [p]

/-- The positions of a subject's present owners or holders, each once, in order (R157). -/
def subjectParties (s : State) : Subject → List PosId
  | .line l => (s.line l).owners.foldl (fun ps h => addParty h.pos ps) []
  | .group g => (s.group g).holders.map (·.pos)

/-- The lowest-numbered FREE channel (R147). -/
def freeChannel (s : State) : Option ChanId :=
  (List.finRange 32).find? fun c => (s.chan c).state == .free

/-- From 4,294,967,295 the session number counter goes to 1 (R145). -/
def succSession (n : Word) : Word := if n = BitVec.allOnes 32 then 1 else n + 1

/-- The session record that opens now (R147, R157). -/
def newSession (s : State) (c : ChanId) (subject : Subject) (previous : Option Word) (parties : List PosId) : Session :=
  { number := s.ru.nextSession, previous := previous, subject := subject, channel := c, startFrame := s.ru.frameNo,
    endFrame := none, startTime := s.ft.floor, endTime := none, parties := parties, written := 0, lost := 0,
    cause := none, timeStepped := false }

/-- The buffer a channel starts a session with: the current one, unless it is HOST's and the other is PART's (R147). -/
def Channel.startBuf (c : Channel) : Buf :=
  if c.here.owner = .host ∧ (c.buffer c.current.other).owner = .part then c.current.other else c.current

/-- Channel `c` becomes ACTIVE with a new session (R147). -/
def openSession (c : ChanId) (subject : Subject) (parties : List PosId) (s : State) : State :=
  let new := newSession s c subject none parties
  let s := s.modChan c fun ch =>
    { ch with state := .active, subject := some subject, overflowing := false, segPending := false,
              current := ch.startBuf, session := some new, closeRecord := none, closeDone := false,
              frameSeen := false, placed := none }
  { s with ru := { s.ru with nextSession := succSession s.ru.nextSession } }

/-- An allocation request (R147): `none` where no channel is FREE. -/
def allocate (subject : Subject) (parties : List PosId) (s : State) : Option (ChanId × State) :=
  (freeChannel s).map fun c => (c, openSession c subject parties s)

/-- A party arrival (R148). -/
def partyArrival (c : ChanId) (p : PosId) (s : State) : State :=
  s.modChan c fun ch => { ch with session := ch.session.map fun x => { x with parties := addParty p x.parties } }

/-- A session with its end fields filled in now (R153, R157). -/
def endedSession (s : State) (x : Session) (cause : SessionCause) : Session :=
  { x with endFrame := some s.ru.frameNo, endTime := some s.ft.floor, cause := some cause }

/-- A session end (R153): the channel goes DRAINING with the session as its close record. -/
def sessionEnd (c : ChanId) (cause : SessionCause) (s : State) : State :=
  match (s.chan c).session with
  | none => s
  | some x =>
    s.modChan c fun ch =>
      { ch with state := .draining, segPending := false, session := none,
                closeRecord := some (endedSession s x cause), closeDone := false, frameSeen := false, placed := none }

/-- A time step reaches the Recorder Unit (R140, R159). -/
def markStepped (s : State) : State :=
  { s with ru := { s.ru with channels := s.ru.channels.map fun ch =>
    if ch.state = .active then { ch with session := ch.session.map fun x => { x with timeStepped := true } } else ch } }

/-! ### The Recording Log (R155, R156) -/

/-- Places a close record: a 64-byte write at its slot, produced + 1. -/
def placeRecord (x : Session) (s : State) : State :=
  let n := s.ru.produced
  let s := requestOwn (.closeRecord n) (s.ru.logBase + BitVec.ofNat 36 (64 * (n.toNat % s.ru.logSize))) x.logRecord s
  { s with ru := { s.ru with produced := n + 1 } }

/-- The channel holds a close record that waits for room: DRAINING, close step done, not placed. -/
def Channel.waits (ch : Channel) : Bool := ch.state == .draining && ch.closeDone && ch.placed.isNone

/-- Places the close record a channel holds. -/
def placeHeld (c : ChanId) (s : State) : State :=
  match (s.chan c).closeRecord with
  | none => s
  | some x =>
    let n := s.ru.produced
    (placeRecord x s).modChan c fun ch => { ch with placed := some n }

/-- Waiting records take room as it appears, in channel-number order (R156). -/
def placeWaiting (s : State) : State :=
  (List.finRange 32).foldl (fun s c => if s.ru.room && (s.chan c).waits then placeHeld c s else s) s

/-- The index word that a slot write's response allows (R155, R168): where the access of index `i` was the earliest of its
sort not yet answered, the count up to the next one that is not, or all produced. A response that completes several accesses, the
later ones having returned before it, brings about this one word write and not one for each: the model's choice (log 39). -/
def announce (index : Purpose → Option Word) (i produced : Word) (before : State) : Option Word :=
  match (before.pu.flight ++ before.pu.own).filterMap fun a => index a.purpose with
  | j :: rest => if i = j then some (rest.head?.getD produced) else none
  | [] => none

def Purpose.recordIndex : Purpose → Option Word
  | .closeRecord i => some i
  | _ => none

/-- The count includes the record of index `i`. -/
def counted (count i : Word) : Bool := 0 < (count - i).toNat && (count - i).toNat < 2 ^ 31

/-- A draining channel whose placed record counts as written becomes FREE (R155). -/
def freeWritten (count : Word) (s : State) : State :=
  { s with ru := { s.ru with channels := s.ru.channels.map fun ch =>
    if ch.state = .draining ∧ (ch.placed.map (counted count)).getD false = true then
      { ch with state := .free, subject := none, closeRecord := none, closeDone := false, frameSeen := false,
                placed := none }
    else ch } }

/-- A write of the log produced word (R155). -/
def requestLogWord (count : Word) (s : State) : State :=
  requestOwn (.logProduced count) (controlAddr s 16) (wordBytes count) s

/-! ### Frames (R149 to R151) -/

def Purpose.isFrameWrite : Purpose → Bool
  | .frameWrite .. => true
  | _ => false

/-- The waiting event counts this frame among its frames. -/
def BufEvent.counts (e : BufEvent) (b : Buf) (frame : Word) : Bool :=
  e.buf == b && (frame - e.first).toNat < e.count.toNat

/-- Frame writes of the event's frames whose responses have not yet returned (R150). -/
def writesOf (s : State) (c : ChanId) (e : BufEvent) : Nat :=
  ((s.pu.own ++ s.pu.flight).filter fun a => match a.purpose with
    | .frameWrite c' b frame _ => c' == c && e.counts b frame
    | _ => false).length

/-- Frames a buffer's addresses span. -/
def frameCount (lo hi : Addr) : Word := BitVec.ofNat 32 ((hi.toNat - lo.toNat) / 32)

/-- Buffer full (R150): the current buffer passes to HOST, the other becomes current, and its RECORD_BUFFER waits for
the responses of its writes. -/
def bufferFull (c : ChanId) (s : State) : State :=
  let ch := s.chan c
  let x := ch.here
  let e : BufEvent := { buf := ch.current, session := x.firstSession.getD 0, first := x.firstFrame.getD 0,
                        count := frameCount x.base x.ceil, waiting := 0 }
  let waiting := writesOf s c e
  let s := s.modChan c fun ch => { ch.setBuffer ch.current { x with owner := .host } with current := ch.current.other }
  if waiting = 0 then post (.recordBuffer c e.buf e.session e.first e.count false) s
  else s.modChan c fun ch => { ch with bufEvents := ch.bufEvents ++ [{ e with waiting := waiting }] }

/-- A frame of an ACTIVE channel whose current buffer is PART's is written at the fill (R149). -/
def writeFrame (c : ChanId) (n : Word) (f : Frame) (x : Session) (s : State) : State :=
  let ch := s.chan c
  let b := ch.here
  let b' : Buffer :=
    if b.fill = b.base then { b with fill := b.fill + 32, firstFrame := some n, firstSession := some x.number }
    else { b with fill := b.fill + 32 }
  let s := requestOwn (.frameWrite c ch.current n x.number) b.fill (frameBytes f) s
  let s := s.modChan c fun ch =>
    { ch.setBuffer ch.current b' with
      session := some { x with written := x.written + 1 }, outstanding := ch.outstanding + 1 }
  if b'.fill = b'.ceil then bufferFull c s else s

/-- Overflow (R151): the frame is lost, and the first of a run posts RECORD_LOSS. -/
def loseFrame (c : ChanId) (n : Word) (x : Session) (s : State) : State :=
  let first := !(s.chan c).overflowing
  let s := s.modChan c fun ch => { ch with session := some { x with lost := x.lost + 1 }, overflowing := true }
  if first then post (.recordLoss c x.number n) s else s

/-- The segment of an open session is due at frame event `n` (R157). -/
def segmentDue (segLen : Nat) (n : Word) (ch : Channel) (x : Session) : Bool :=
  (0 < segLen && n == x.startFrame + BitVec.ofNat 32 segLen) || ch.segPending

/-- A due segment with room in the log (R157): the close record is placed and a new session opens on the channel. -/
def cutSegment (c : ChanId) (x : Session) (s : State) : State :=
  let old := endedSession s x .segment
  let new := newSession s c x.subject (some x.number) (subjectParties s x.subject)
  let s := placeRecord old s
  let s := s.modChan c fun ch => { ch with session := some new, segPending := false }
  { s with ru := { s.ru with nextSession := succSession s.ru.nextSession } }

/-- The segment test of an ACTIVE channel, made after its frame of a frame event (R157). -/
def segmentTest (c : ChanId) (s : State) : State :=
  let ch := s.chan c
  match ch.state, ch.session with
  | .active, some x =>
    if segmentDue s.ru.segLen s.ru.frameNo ch x then
      if s.ru.room then cutSegment c x s
      else s.modChan c fun ch => { ch with segPending := true }
    else s
  | _, _ => s

/-- The close step (R154): the buffer is closed short, and the record is placed or waits. -/
def closeStep (c : ChanId) (s : State) : State :=
  let ch := s.chan c
  let b := ch.here
  let s :=
    if b.owner = .part ∧ b.fill ≠ b.base then
      post (.recordBuffer c ch.current (b.firstSession.getD 0) (b.firstFrame.getD 0) (frameCount b.base b.fill) true)
        (s.modChan c fun ch => { ch.setBuffer ch.current { b with owner := .host } with current := ch.current.other })
    else s
  let s := s.modChan c fun ch => { ch with closeDone := true }
  if s.ru.room then placeHeld c s else s

/-- The conditions of the close step hold: a frame event taken since the end, and no write outstanding (R154). -/
def Channel.closes (ch : Channel) : Bool :=
  ch.state == .draining && !ch.closeDone && ch.frameSeen && ch.outstanding == 0

/-- A channel's frame of frame event `n` (R149). -/
def takeChannelFrame (n : Word) (frames : Table 32 Frame) (c : ChanId) (s : State) : State :=
  let ch := s.chan c
  match ch.state with
  | .free => s
  | .active =>
    match ch.session with
    | none => s
    | some x =>
      let s := if ch.here.owner = .part then writeFrame c n (frames.get c) x s else loseFrame c n x s
      segmentTest c s
  | .draining =>
    let s := s.modChan c fun ch => { ch with frameSeen := true }
    if (s.chan c).closes then closeStep c s else s

/-- Arrival of the recorder frames of a frame event (R149). -/
def takeFrames (r : RecFrames) (s : State) : State :=
  let s := { s with ru := { s.ru with frameNo := r.number } }
  (List.finRange 32).foldl (fun s c => takeChannelFrame r.number r.frames c s) s

/-- The oldest recorder frames handed by the Mixing Engine are taken; where none wait nothing arrives. -/
def recorderFrames (s : State) : State :=
  match s.ru.inbox with
  | [] => s
  | r :: rest => takeFrames r { s with ru := { s.ru with inbox := rest } }

def execRecorderFrames (s : State) : Out := inRunning recorderFrames s

/-- The segment of channel `c` is due at the oldest recorder frames that wait (R157). -/
def segmentWaits (c : ChanId) (s : State) : Bool :=
  match s.ru.inbox, (s.chan c).state, (s.chan c).session with
  | r :: _, .active, some x => segmentDue s.ru.segLen r.number (s.chan c) x
  | _, _, _ => false

/-- SESSION_SEGMENT. The segment has no expiry of its own: its test is part of the taking of the recorder frames at which it
is due (R141, R157), so this row is that taking, and has no effect where the segment is not due at it (log 7). -/
def sessionSegment (c : ChanId) (s : State) : State := if segmentWaits c s then recorderFrames s else s

def execSessionSegment (c : ChanId) (s : State) : Out := inRunning (sessionSegment c) s

/-! ### Responses -/

/-- A frame whose write met an error is lost to its session while that session's record is not placed (R149). -/
def loseWritten (number : Word) (x : Session) : Session :=
  if x.number = number then { x with written := x.written - 1, lost := x.lost + 1 } else x

/-- A frame write's response counts down the events that count its frame; those that reach 0 leave the list. -/
def countDown (b : Buf) (frame : Word) (es : List BufEvent) : List BufEvent :=
  es.map fun e => if e.counts b frame then { e with waiting := e.waiting - 1 } else e

/-- The RECORD_BUFFER events of a channel whose writes have all returned are posted, in order (R150). -/
def postBuffers (c : ChanId) (s : State) : State :=
  let ready := (s.chan c).bufEvents.filter (·.waiting == 0)
  let s := s.modChan c fun ch => { ch with bufEvents := ch.bufEvents.filter fun e => e.waiting != 0 }
  postAll (ready.map fun e => .recordBuffer c e.buf e.session e.first e.count false) s

/-- The Recorder Unit takes the response to a frame write (R149, R150, R154). Where it completes a filled buffer and brings about
the close step too, the filled buffer's RECORD_BUFFER comes before the one with final = yes: the model's choice (log 41). -/
def frameReturned (c : ChanId) (b : Buf) (frame number : Word) (error : Bool) (s : State) : State :=
  let s := s.modChan c fun ch =>
    { ch with
      outstanding := ch.outstanding - 1
      bufEvents := countDown b frame ch.bufEvents
      session := if error then ch.session.map (loseWritten number) else ch.session
      closeRecord := if error && ch.placed.isNone then ch.closeRecord.map (loseWritten number) else ch.closeRecord }
  let s := postBuffers c s
  if (s.chan c).closes then closeStep c s else s

/-- Response to the `k`th frame write in flight (R149, R126). -/
def frameWriteResponse (k : Nat) (error : Bool) (s : State) : State :=
  match takeFlight Purpose.isFrameWrite k s with
  | none => s
  | some (a, s') =>
    match a.purpose with
    | .frameWrite c b frame number => frameReturned c b frame number error (faultIf error a s')
    | _ => s

def execFrameWriteResponse (k : Nat) (error : Bool) (s : State) : Out := inRunning (frameWriteResponse k error) s

def Purpose.isLogWrite (p : Purpose) : Bool := p.kind == .logWrite

/-- Response to the `k`th Recording Log write in flight (R155, R126). -/
def logWriteResponse (k : Nat) (error : Bool) (s : State) : State :=
  match takeFlight Purpose.isLogWrite k s with
  | none => s
  | some (a, s') =>
    let t := faultIf error a s'
    match a.purpose with
    | .closeRecord i =>
      match announce Purpose.recordIndex i s.ru.produced s with
      | some count => requestLogWord count t
      | none => t
    | .logProduced count => freeWritten count t
    | _ => s

def execLogWriteResponse (k : Nat) (error : Bool) (s : State) : Out := inRunning (logWriteResponse k error) s

/-- A log consumed value (R156). -/
def logConsumed (v : Word) (s : State) : State :=
  if (s.ru.produced - v).toNat > s.ru.logSize then
    { s with ru := { s.ru with logFaults := s.ru.logFaults + 1 } }
  else placeWaiting { s with ru := { s.ru with consumed := v } }

def execLogConsumed (v : Word) (s : State) : Out :=
  inRunning (fun s => logConsumed v (takeHanded (.logConsumed v) s)) s

/-! ### Commands -/

/-- An empty PART-owned buffer (R146). -/
def Buffer.fresh (base ceil : Addr) : Buffer := ⟨base, ceil, .part, base, none, none⟩

/-- A buffer's base and ceiling are multiples of 32 and the ceiling is above the base (R146, R162). -/
def bufferOk (base ceil : Addr) : Bool :=
  base.toNat % 32 == 0 && ceil.toNat % 32 == 0 && base.toNat < ceil.toNat

/-- Stores a new pair of buffers (R146). -/
def setBuffers (c : ChanId) (baseA ceilA baseB ceilB : Addr) (s : State) : State :=
  s.modChan c fun ch => { ch with bufA := .fresh baseA ceilA, bufB := .fresh baseB ceilB, current := .bufA }

/-- RECORDER_SET (R146). -/
def recorderSet (chan : Byte) (baseA ceilA baseB ceilB : Addr) (s : State) : State × Status :=
  match idArg 32 chan with
  | none => (s, .badArgument)
  | some c =>
    if bufferOk baseA ceilA && bufferOk baseB ceilB then
      if (s.chan c).state = .free then (setBuffers c baseA ceilA baseB ceilB s, .ok) else (s, .busy)
    else (s, .badArgument)

def execRecorderSet (chan : Byte) (baseA ceilA baseB ceilB : Addr) (s : State) : Out :=
  runCommand (.recorderSet chan baseA ceilA baseB ceilB) (recorderSet chan baseA ceilA baseB ceilB) s

/-- A HOST-owned buffer given back (R152): PART's, its fill at its base; current if the current one is HOST's. -/
def returnBuffer (b : Buf) (ch : Channel) : Channel :=
  let x := ch.buffer b
  let ch' := ch.setBuffer b { x with owner := .part, fill := x.base, firstFrame := none, firstSession := none }
  if ch.here.owner = .host then { ch' with current := b, overflowing := false } else ch'

/-- RECORD_RETURN (R152). -/
def recordReturn (chan buffer : Byte) (s : State) : State × Status :=
  match idArg 32 chan, bufArg buffer with
  | some c, some b =>
    if ((s.chan c).buffer b).owner = .part then (s, .ok) else (s.modChan c (returnBuffer b), .ok)
  | _, _ => (s, .badArgument)

def execRecordReturn (chan buffer : Byte) (s : State) : Out :=
  runCommand (.recordReturn chan buffer) (recordReturn chan buffer) s

end Sys2Proof.Machine
end

