-- ==== Sys2Proof/Machine/Clock.lean ====
section
/-! DEFINITION. The Frame Timer (07_frame_clock_and_floor_time.md): frame events, following FRAME_IN, floor time. -/

namespace Sys2Proof.Machine

/-- A frame event (R129): its number is one above the last; the Mixing Engine is handed it. The blocks that keep
deadlines read the number from the frame counter (log 5). -/
def frameEvent (s : State) : State :=
  let n := s.ft.counter + 1
  { s with
    ft := { s.ft with counter := n, floor := if s.ft.timeSet = .set then s.ft.floor + 1 else s.ft.floor }
    me := { s.me with waiting := s.me.waiting ++ [n] } }

/-- Time has come to a CLK cycle (log 4). -/
def reachTime (at_ : Nat) (s : State) : State := { s with ft := { s.ft with clock := max s.ft.clock at_ } }

/-- The cycle at which the pulse watch started at a cycle expires: 3 ms later (R128, R177). -/
def FrameTimer.watchFrom (t : FrameTimer) (at_ : Nat) : Nat := at_ + 3 * t.clkPerMs

/-- A spacing passes the test of R133, in whole cycles as R177 gives it. -/
def spacingOk (clk cycles : Nat) : Bool := 95 * clk / 100 ≤ cycles && cycles ≤ (105 * clk + 99) / 100

/-- The locking pulse (R134). -/
def lock (at_ : Nat) (s : State) : State :=
  let s := { s with ft := { s.ft with
    watch := .locked, freeTimer := none, refPulse := none, good := 0, watchTimer := some (s.ft.watchFrom at_) } }
  let s := frameEvent s
  post (.clockRestored s.ft.counter) s

/-- A pulse in ACQUIRING or FREEWHEEL becomes the reference, with this good-pulse count (R133). -/
def takeReference (at_ good : Nat) (s : State) : State :=
  { s with ft := { s.ft with
    watch := .acquiring, refPulse := some at_, good := good, watchTimer := some (s.ft.watchFrom at_) } }

/-- A FRAME_IN pulse at a CLK cycle (R130, R133, R134). -/
def frameInPulse (at_ : Nat) (s : State) : State :=
  let s := reachTime at_ s
  match s.ft.watch with
  | .locked => frameEvent { s with ft := { s.ft with watchTimer := some (s.ft.watchFrom at_) } }
  | .freewheel => takeReference at_ 0 s
  | .acquiring =>
    match s.ft.refPulse with
    | none => takeReference at_ 0 s
    | some r =>
      if spacingOk s.ft.clkPerMs (at_ - r) then
        if s.ft.good + 1 = 8 then lock at_ s else takeReference at_ (s.ft.good + 1) s
      else takeReference at_ 0 s

def execFrameInPulse (at_ : Nat) (s : State) : Out := inRunning (frameInPulse at_) s

/-- Pulse-watch expiry (R131); without effect while the timer is stopped. -/
def pulseWatchExpiry (s : State) : State :=
  match s.ft.watchTimer with
  | none => s
  | some e =>
    let s := reachTime e s
    match s.ft.watch with
    | .locked =>
      let s := { s with ft := { s.ft with watch := .freewheel, watchTimer := none, clockLosses := s.ft.clockLosses + 1 } }
      let s := post (.clockLost s.ft.counter) s
      let s := frameEvent s
      { s with ft := { s.ft with freeTimer := some (e + s.ft.clkPerMs) } }
    | .acquiring => { s with ft := { s.ft with watch := .freewheel, refPulse := none, good := 0, watchTimer := none } }
    | .freewheel => s

def execPulseWatchExpiry (s : State) : Out := inRunning pulseWatchExpiry s

/-- Freewheel timer expiry (R132); without effect while the timer is stopped. -/
def freewheelExpiry (s : State) : State :=
  match s.ft.freeTimer with
  | none => s
  | some e =>
    let s := frameEvent (reachTime e s)
    { s with ft := { s.ft with freeTimer := some (e + s.ft.clkPerMs) } }

def execFreewheelTimerExpiry (s : State) : Out := inRunning freewheelExpiry s

/-! ### Floor time (R136 to R140) -/

/-- The floor time of a sync word: bytes 0 to 5 (R183, R184). -/
def syncFloor (w : BitVec 128) : FloorTime := w.extractLsb' 0 48

/-- The imperative flag: bit 0 of byte 8 (R183, R184). -/
def syncImperative (w : BitVec 128) : Bool := w.getLsbD 64

/-- A time step (R140). -/
def timeStep (new : FloorTime) (reason : StepReason) (s : State) : State :=
  let old := s.ft.floor
  let s := { s with ft := { s.ft with floor := new, mismatches := 0 } }
  markStepped (post (.timeStep old new reason) s)

/-- Arrival of a sync word (R136 to R139). -/
def timeSync (w : BitVec 128) (s : State) : State :=
  let v := syncFloor w
  let d := (v - s.ft.floor).toInt
  match s.ft.timeSet with
  | .unset => timeStep v .initial { s with ft := { s.ft with timeSet := .set } }
  | .set =>
    if syncImperative w then
      if d = 0 then { s with ft := { s.ft with mismatches := 0 } } else timeStep v .imperative s
    else if -1 ≤ d ∧ d ≤ 1 then { s with ft := { s.ft with mismatches := 0 } }
    else
      let s := { s with ft := { s.ft with
        syncMismatch := s.ft.syncMismatch + 1, mismatches := s.ft.mismatches + 1 } }
      if 3 ≤ s.ft.mismatches then timeStep v .mismatch s else s

def execTimeSyncWord (w : BitVec 128) (s : State) : Out :=
  inRunning (fun s => timeSync w (takeHanded (.timeSync w) s)) s

end Sys2Proof.Machine
end

