-- ==== Sys2Proof/Machine/Bursts.lean ====
section
/-! DEFINITION. Which bytes the beats of an AXI4 burst carry (R108). The beat addresses are AXI4's own (PRESUMED, log 15). -/

namespace Sys2Proof.Machine

/-- Bytes of one beat. -/
def beatBytes (b : Burst) : Nat := 2 ^ b.size.val

/-- The address of beat `k`: AXI4's rule for FIXED, INCR and WRAP bursts. -/
def beatAddr (b : Burst) (k : Nat) : Nat :=
  let n := beatBytes b
  let start := b.addr.toNat
  let a := start / n * n + k * n
  match b.kind with
  | .fixed => start
  | .incr => if k = 0 then start else a
  | .wrap =>
    let box := n * b.beats
    if k = 0 then start
    else if start / box * box + box ≤ a then a - box else a

/-- The lanes a beat may use, as first and last lane of its 8-byte unit. -/
def beatLanes (b : Burst) (k : Nat) : Nat × Nat :=
  let n := beatBytes b
  let a := beatAddr b k
  (a % 8, (a / n * n + n - 1) % 8)

/-- Addresses of the bytes beat `k` of a read covers, ascending. -/
def readBytes (b : Burst) (k : Nat) : List Nat :=
  let a := beatAddr b k
  let (lo, hi) := beatLanes b k
  (List.range (hi + 1 - lo)).map (a + ·)

/-- Addresses of all bytes a read covers, beat by beat. -/
def burstBytes (b : Burst) : List Nat :=
  (List.range b.beats).flatMap (readBytes b)

/-- The bytes a write beat writes, ascending: those whose strobes are on (R108). -/
def writtenBytes (b : Burst) (k : Nat) (w : Beat) : List (Nat × Byte) :=
  let unit := beatAddr b k / 8 * 8
  (List.range 8).filterMap fun i =>
    if w.strobe.getLsbD i then some (unit + i, w.data.extractLsb' (8 * i) 8) else none

/-- The written bytes of each beat of a write transaction, in beat order. -/
def txnBytes (t : WriteTxn) : List (List (Nat × Byte)) :=
  t.data.zipIdx.map fun (w, k) => writtenBytes t.burst k w

/-- The address phase is one AXI4 burst: 1 to 256 beats (FIXED at most 16, WRAP 2, 4, 8 or 16 and aligned)
that does not cross a 4 KiB boundary (R108). -/
def burstOk (b : Burst) : Bool :=
  let n := beatBytes b
  let start := b.addr.toNat
  match b.kind with
  | .fixed => 1 ≤ b.beats && b.beats ≤ 16
  | .incr => 1 ≤ b.beats && b.beats ≤ 256 && start / 4096 == (start / n * n + b.beats * n - 1) / 4096
  | .wrap => [2, 4, 8, 16].contains b.beats && start % n == 0

/-- The strobes of beat `k` lie in the lanes the beat may use. -/
def strobesOk (b : Burst) (k : Nat) (w : Beat) : Bool :=
  let (lo, hi) := beatLanes b k
  (List.range 8).all fun i => !w.strobe.getLsbD i || (lo ≤ i && i ≤ hi)

/-- The write transaction is one AXI4 burst with all its beats. -/
def writeOk (t : WriteTxn) : Bool :=
  burstOk t.burst && t.data.length == t.burst.beats &&
    t.data.zipIdx.all fun (w, k) => strobesOk t.burst k w

end Sys2Proof.Machine
end

