-- ==== Sys2Proof/Machine/MemoryPath.lean ====
section
/-! DEFINITION. The path unit (06_voice_windows_capture_and_the_output_store.md): forwarding, capture, watched words,
outbound reads and the downstream arbiter. -/

namespace Sys2Proof.Machine

/-! ### Regions (R107, R108, R111) -/

/-- The offset of an address in a region of `size` bytes, if the region is present and holds it. -/
def offsetIn (base : Option Addr) (size a : Nat) : Option Nat :=
  match base with
  | none => none
  | some b => if b.toNat ≤ a ∧ a < b.toNat + size then some (a - b.toNat) else none

/-- The anchor address that the straps select (R176). -/
def anchorAddr (sel : BitVec 2) : Addr :=
  if sel = 0 then 0x000000100 else if sel = 1 then 0x000100000 else if sel = 2 then 0x400000000 else 0x800000000

/-- The source and slot whose inbound window holds an address (R112). -/
def inboundPlace (s : State) (a : Nat) : Option (SourceId × SlotId) :=
  match offsetIn s.pu.regions.inbound 32768 a with
  | none => none
  | some x =>
    if h : x / 256 < 120 then some (⟨x / 256, h⟩, ⟨x % 256 / 32, by omega⟩) else none

/-! ### Capture (R113 to R117) -/

/-- Appends a captured frame to a full or not yet full queue, and counts (R115, R117). -/
def pushFrame (f : Frame) (q : List Frame) (t : Totals) : List Frame × Totals :=
  if Config.framePlaces ≤ q.length then
    (q.tail ++ [f], { t with captured := t.captured + 1, overrun := t.overrun + 1 })
  else (q ++ [f], { t with captured := t.captured + 1 })

/-- The frame of a source is captured: appended to its queue, counted, the record cleared (R115). -/
def capture (i : SourceId) (bytes : List Byte) (s : State) : State :=
  let r := pushFrame (frameOfBytes bytes) (s.pu.queues.get i) (s.pu.totals.get i)
  { s with pu := { s.pu with
      queues := s.pu.queues.set i r.1
      totals := s.pu.totals.set i r.2
      assembly := s.pu.assembly.set i .empty } }

/-- Marks bytes of a slot; a byte already marked takes the new value. -/
def markBytes (bytes : List (Nat × Byte)) (marks : Table 32 (Option Byte)) : Table 32 (Option Byte) :=
  bytes.foldl (fun m b => m.set ⟨b.1 % 32, Nat.mod_lt _ (by decide)⟩ (some b.2)) marks

/-- The record of a source before the bytes of a beat into slot `k` are marked; a slot abandoned is torn (R114). -/
def openSlot (k : SlotId) (a : Assembly) (t : Totals) : Assembly × Totals :=
  match a.slot with
  | none => ({ a with slot := some k }, t)
  | some j => if j = k then (a, t) else (⟨some k, .replicate 32 none⟩, { t with torn := t.torn + 1 })

/-- The bytes of a slot once every mark holds a value. -/
def fullMarks (marks : Table 32 (Option Byte)) : Option (List Byte) :=
  if marks.rows.all Option.isSome then some (marks.rows.map fun m => m.getD 0) else none

/-- Arrival of a write beat's bytes in slot `k` of source `i` (R114, R115). Byte `n` of a slot lies at an address
with `n` as its remainder by 32, since the Inbound Region is 32 KiB aligned. -/
def assemble (i : SourceId) (k : SlotId) (bytes : List (Nat × Byte)) (s : State) : State :=
  let r := openSlot k (s.pu.assembly.get i) (s.pu.totals.get i)
  let marks := markBytes bytes r.1.marks
  let s := { s with pu := { s.pu with
    assembly := s.pu.assembly.set i ⟨r.1.slot, marks⟩
    totals := s.pu.totals.set i r.2 } }
  match fullMarks marks with
  | some all => capture i all s
  | none => s

/-- Capture treatment of one beat; a beat with no byte written touches nothing (R114). -/
def captureBeat (bytes : List (Nat × Byte)) (s : State) : State :=
  match bytes with
  | [] => s
  | (a, _) :: _ =>
    match inboundPlace s a with
    | some (i, k) => assemble i k bytes s
    | none => s

/-! ### Watched words (R110, R111) -/

/-- A watched word. -/
inductive Watched
  | signal (l : LineId)
  | timeSync
  | post
  | evConsumed
  | logConsumed
  | anchor
  deriving DecidableEq, Repr

/-- The watched word of the Signal Region at an offset, with the byte of the word (R183). -/
def signalWordAt (x : Nat) : Option (Watched × Nat) :=
  if h : x / 4 < 96 then some (.signal ⟨x / 4, h⟩, x % 4)
  else if 512 ≤ x ∧ x < 528 then some (.timeSync, x - 512)
  else none

/-- The watched word of the Control Block at an offset, with the byte of the word (R183). -/
def controlWordAt (x : Nat) : Option (Watched × Nat) :=
  if x < 4 then some (.post, x)
  else if 12 ≤ x ∧ x < 16 then some (.evConsumed, x - 12)
  else if 20 ≤ x ∧ x < 24 then some (.logConsumed, x - 20)
  else none

/-- The watched words an address lies in, each with the byte of the word: of the regions, and the anchor's. -/
def watchedAt (s : State) (a : Nat) : List (Watched × Nat) :=
  ((offsetIn s.pu.regions.signal 2048 a).bind signalWordAt).toList ++
    ((offsetIn s.pu.regions.control 64 a).bind controlWordAt).toList ++
    ((offsetIn (some (anchorAddr s.ld.sel)) 4 a).map fun x => (Watched.anchor, x)).toList

/-- Byte `i` of a word replaced. -/
def setByte {n : Nat} (w : BitVec n) (i : Nat) (b : Byte) : BitVec n :=
  (w &&& ~~~(BitVec.ofNat n 255 <<< (8 * i))) ||| ((b.setWidth n) <<< (8 * i))

/-- A byte written into a watched word replaces the byte of its shadow. -/
def shadowByte (w : Watched) (i : Nat) (b : Byte) (h : Shadows) : Shadows :=
  match w with
  | .signal l => { h with signal := h.signal.modify l fun x => setByte x i b }
  | .timeSync => { h with timeSync := setByte h.timeSync i b }
  | .post => { h with post := setByte h.post i b }
  | .evConsumed => { h with evConsumed := setByte h.evConsumed i b }
  | .logConsumed => { h with logConsumed := setByte h.logConsumed i b }
  | .anchor => { h with anchor := setByte h.anchor i b }

/-- The shadows after a transaction's written bytes, in order. -/
def shadowBytes (s : State) (bytes : List (Nat × Byte)) : Shadows :=
  bytes.foldl (fun h b => (watchedAt s b.1).foldl (fun h w => shadowByte w.1 w.2 b.2 h) h) s.pu.shadows

/-- The word handed on, where it was written. -/
def handIf (wrote : Bool) (h : Handed) : List Handed := if wrote then [h] else []

/-- The words a transaction hands on: each watched word it wrote, signal words in ascending line order; the time sync
word where its last byte was written (R110, R111). -/
def handOns (written : List (Watched × Nat)) (h : Shadows) : List Handed :=
  let wrote (w : Watched) : Bool := written.any fun x => x.1 == w
  ((List.finRange 96).flatMap fun l => handIf (wrote (.signal l)) (.signalWord l (h.signal.get l))) ++
    handIf (written.contains (.timeSync, 15)) (.timeSync h.timeSync) ++
    handIf (wrote .post) (.commandPost h.post) ++
    handIf (wrote .evConsumed) (.eventConsumed h.evConsumed) ++
    handIf (wrote .logConsumed) (.logConsumed h.logConsumed) ++
    handIf (wrote .anchor) (.anchor h.anchor)

/-- Watched-word treatment of a whole transaction. -/
def watchWords (bytes : List (Nat × Byte)) (s : State) : State :=
  let h := shadowBytes s bytes
  let written := bytes.flatMap fun b => watchedAt s b.1
  { s with pu := { s.pu with shadows := h }, handed := s.handed ++ handOns written h }

/-! ### Upstream transactions (R108, R109) -/

/-- A transaction is accepted for forwarding. -/
def forward (t : PassTxn) (s : State) : State :=
  { s with pu := { s.pu with passWaiting := s.pu.passWaiting ++ [t] } }

/-- Acceptance of an upstream write: forwarded, inbound bytes captured beat by beat, watched words handed on. -/
def acceptWrite (t : WriteTxn) (s : State) : State :=
  let beats := txnBytes t
  let s := forward (.write t) s
  let s := beats.foldl (fun s b => captureBeat b s) s
  watchWords beats.flatten s

/-- UPSTREAM_WRITE. -/
def execUpstreamWrite (t : WriteTxn) (s : State) : Out :=
  if writeOk t then .next (acceptWrite t s) else .fault .malformedBurst

/-! ### Outbound reads (R121) -/

/-- The frame that slot `k` of a listener's window holds. -/
def heldFrame (s : State) (j : ListenerId) (k : Nat) : Option StoredFrame :=
  (s.pu.store.get j).find? fun f => f.number.toNat % 8 == k

/-- The byte of the Outbound Region at an offset. -/
def outboundByte (s : State) (x : Nat) : Byte :=
  if h : x / 256 < 160 then
    match heldFrame s ⟨x / 256, h⟩ (x % 256 / 32) with
    | some f => byteAt (frameBytes f.frame) (x % 32)
    | none => 0
  else 0

/-- The slots, numbered through all windows, that the offsets of a read cover. -/
def coveredSlots (offsets : List Nat) : List Nat := (offsets.map (· / 32)).eraseDups

/-- Counts a covered slot for which no frame is held. -/
def countUnheld (s : State) (slot : Nat) (t : Table 160 Word) : Table 160 Word :=
  if h : slot / 8 < 160 then
    match heldFrame s ⟨slot / 8, h⟩ (slot % 8) with
    | some _ => t
    | none => t.modify ⟨slot / 8, h⟩ (· + 1)
  else t

/-- Offsets in the Outbound Region of the bytes a read covers; `none` for a read outside the region. -/
def outboundOffsets (s : State) (b : Burst) : Option (List Nat) :=
  match s.pu.regions.outbound with
  | none => none
  | some base =>
    match offsetIn (some base) 65536 b.addr.toNat with
    | some _ => some ((burstBytes b).map (· - base.toNat))
    | none => none

/-- An outbound read is answered OKAY from the Output Store as it stands, and unheld slots are counted (R121, R122). -/
def answerOutbound (b : Burst) (offsets : List Nat) (s : State) : State :=
  { s with pu := { s.pu with
      answer := some (.outbound b (offsets.map (outboundByte s)))
      unheld := (coveredSlots offsets).foldl (fun t k => countUnheld s k t) s.pu.unheld } }

/-- Acceptance of an upstream read: answered from the Output Store in the Outbound Region, else forwarded (R108). -/
def acceptRead (b : Burst) (s : State) : State :=
  match outboundOffsets s b with
  | some offsets => answerOutbound b offsets s
  | none => forward (.read b) s

/-- UPSTREAM_READ. The path unit classifies the read by its addresses, whichever row names it. -/
def execUpstreamRead (b : Burst) (s : State) : Out :=
  if burstOk b then .next (acceptRead b s) else .fault .malformedBurst

/-- OUTBOUND_READ. -/
def execOutboundRead (b : Burst) (s : State) : Out :=
  if burstOk b then .next (acceptRead b s) else .fault .malformedBurst

/-! ### Responses and the arbiter (R109, R123 to R125) -/

/-- The response to the `k`th forwarded transaction in flight returns upstream unchanged. One response code stands for the whole
transaction, a read of many beats too: the model's choice (log 36). -/
def execPassThroughResponse (k : Nat) (resp : Resp) (data : List (BitVec 64)) (s : State) : Out :=
  match s.pu.passFlight[k]? with
  | none => .next s
  | some t =>
    .next { s with pu := { s.pu with
      passFlight := s.pu.passFlight.eraseIdx k, answer := some (.forwarded t resp data) } }

/-- Own accesses that may be granted now, in the order asked: a read behind no earlier pass-through write, a write
behind no earlier write of its block; `blocks` are those with an earlier write waiting (R124). -/
def eligible (blocks : List Nat) : List OwnAccess → List OwnAccess
  | [] => []
  | a :: as =>
    if a.purpose.isRead then
      if a.behind = 0 then a :: eligible blocks as else eligible blocks as
    else if blocks.contains a.purpose.block then eligible blocks as
    else a :: eligible (a.purpose.block :: blocks) as

/-- The first of a list with the least kind in the arbiter's order (R123). -/
def firstKind : List OwnAccess → Option OwnAccess
  | [] => none
  | a :: as =>
    match firstKind as with
    | none => some a
    | some b => if a.purpose.kind.code ≤ b.purpose.kind.code then some a else some b

/-- The own access to grant next. -/
def nextOwn (s : State) : Option OwnAccess := firstKind (eligible [] s.pu.own)

/-- The data of an own access as it is issued: a line control word carries the near_end of that moment (R8). -/
def issued (s : State) (a : OwnAccess) : OwnAccess :=
  match a.purpose with
  | .lineControl l => { a with data := controlWord (s.line l).state.nearEnd }
  | _ => a

/-- Issuing a line control word clears the line's mark (R8). -/
def clearMark (a : OwnAccess) (s : State) : State :=
  match a.purpose with
  | .lineControl l => s.modLine l fun r => { r with ctlPending := false }
  | _ => s

/-- Grants an own access. -/
def grantOwn (a : OwnAccess) (s : State) : State :=
  clearMark a { s with pu := { s.pu with
    own := s.pu.own.erase a, flight := s.pu.flight ++ [issued s a], lastOwn := true } }

/-- One pass-through write fewer stands ahead of the waiting own reads. -/
def oneLess (a : OwnAccess) : OwnAccess := { a with behind := a.behind - 1 }

/-- Grants the pass-through transaction accepted first. -/
def grantForwarded (t : PassTxn) (rest : List PassTxn) (s : State) : State :=
  { s with pu := { s.pu with
    passWaiting := rest, passFlight := s.pu.passFlight ++ [t], lastOwn := false,
    own := match t with
      | .write _ => s.pu.own.map oneLess
      | .read _ => s.pu.own } }

/-- DOWNSTREAM_GRANT (R123): when both classes wait, the class not granted last. -/
def execDownstreamGrant (s : State) : Out :=
  match s.pu.passWaiting, nextOwn s with
  | [], none => .next s
  | [], some a => .next (grantOwn a s)
  | t :: rest, none => .next (grantForwarded t rest s)
  | t :: rest, some a => if s.pu.lastOwn then .next (grantForwarded t rest s) else .next (grantOwn a s)

/-- Response to the `k`th line control word in flight: not repeated on error (R8, R126). -/
def controlWordWriteResponse (k : Nat) (error : Bool) (s : State) : State :=
  match takeFlight (fun p => p.kind == .lineControl) k s with
  | none => s
  | some (a, s') => faultIf error a s'

def execControlWordWriteResponse (k : Nat) (error : Bool) (s : State) : Out :=
  inRunning (controlWordWriteResponse k error) s

/-! ### The path unit's share of RESTART (R118, R127) -/

def flushPath (s : State) : State :=
  { s with pu := { s.pu with
      queues := .replicate 120 []
      totals := .build fun i =>
        let t := s.pu.totals.get i
        { t with flushed := t.flushed + BitVec.ofNat 32 (s.pu.queues.get i).length }
      assembly := .replicate 120 .empty
      store := .replicate 160 [] } }

end Sys2Proof.Machine
end

