-- ==== Sys2Proof/Machine/Hang.lean ====
section
/-! DEFINITION. A group's recording hang (section 3.8 of 03_intercom_groups_and_the_talk_floor.md), and the removal of a
hoot line that leaves service (R64). -/

namespace Sys2Proof.Machine

/-- A group's session ends and its recorder is removed (R65, R66, R68). -/
def endGroupSession (g : GroupId) (cause : SessionCause) (s : State) : State :=
  match (s.group g).recorder with
  | none => s
  | some c => (sessionEnd c cause s).modGroup g fun r => { r with recorder := none }

/-- Start of the hang of a group left with a recorder and no talkers (R65). -/
def startHang (g : GroupId) (s : State) : State :=
  let r := s.group g
  if r.hasTalkers = true ∨ r.recorder = none then s
  else if 0 < r.hangTime then
    s.modGroup g fun r => { r with hangDeadline := some (s.now + BitVec.ofNat 32 r.hangTime) }
  else endGroupSession g .groupSilent s

/-- Hang expiry (R66). -/
def hangExpiry (g : GroupId) (s : State) : State :=
  match (s.group g).hangDeadline with
  | none => s
  | some d =>
    if s.due d then endGroupSession g .groupSilent (s.modGroup g fun r => { r with hangDeadline := none })
    else s

def execHangExpiry (g : GroupId) (s : State) : Out := inRunning (hangExpiry g) s

/-- The line leaves its group's hoot_lines list, which closes up (R64). -/
def removeHoot (g : GroupId) (l : LineId) (s : State) : State :=
  s.modGroup g fun r => { r with hootLines := r.hootLines.filter (· != l) }

end Sys2Proof.Machine
end

