-- ==== Sys2Proof/Machine/RingPresenter.lean ====
section
/-! DEFINITION. The Ring Presenter (02_ring_presentation_and_recall.md): where a line rings, and the counts and alert
indicators of the positions. -/

namespace Sys2Proof.Machine

/-- Every position whose map holds the line (R29, GENERAL). -/
def appearing (s : State) (l : LineId) : PosSet :=
  (List.finRange 8).foldl (fun set p => if s.appears p l then set ||| onlyPos p else set) 0

/-- `p` joins a presentation set: its counts rise, with POSITION_ALERT where ring_count leaves 0 (R30). -/
def addShown (isRecall : Bool) (p : PosId) (s : State) : State :=
  let c := s.posRing p
  let s := s.setPosRing p
    { ringCount := c.ringCount + 1, recallCount := if isRecall then c.recallCount + 1 else c.recallCount, alert := true }
  if c.ringCount = 0 then post (.positionAlert p true) s else s

/-- `p` leaves a presentation set: its counts fall, with POSITION_ALERT where ring_count reaches 0 (R30). -/
def dropShown (isRecall : Bool) (p : PosId) (s : State) : State :=
  let c := s.posRing p
  let s := s.setPosRing p
    { ringCount := c.ringCount - 1, recallCount := if isRecall then c.recallCount - 1 else c.recallCount,
      alert := decide (1 < c.ringCount) }
  if c.ringCount = 1 then post (.positionAlert p false) s else s

/-- Moves the counts from one presentation set to another, positions in number order (R31, R34, R36, log 12). -/
def moveShown (isRecall : Bool) (old new : PosSet) (s : State) : State :=
  (List.finRange 8).foldl (fun s p =>
    if inSet old p = inSet new p then s
    else if inSet new p = true then addShown isRecall p s
    else dropShown isRecall p s) s

/-- The ring record and the RING_START event's position of a new ring (R31). -/
def newRing (s : State) (l : LineId) : RingRec × Option PosId :=
  let r := s.line l
  let general : RingRec := { phase := .general, shown := appearing s l, delayDeadline := none, recallPos := none }
  match r.preferred with
  | none => (general, none)
  | some p =>
    if s.appears p l = true ∧ 0 < r.ringDelay then
      ({ phase := .preferred, shown := onlyPos p, delayDeadline := some (s.now + BitVec.ofNat 32 r.ringDelay),
         recallPos := none }, some p)
    else (general, none)

/-- Start of a new ring (R31). -/
def startRing (l : LineId) (s : State) : State :=
  let (r, pos) := newRing s l
  let s := s.setRing l (some r)
  let s := post (.ringStart l r.phase pos) s
  moveShown false 0 r.shown s

/-- Start of a recall ring for position `p` (R32). -/
def startRecall (l : LineId) (p : PosId) (s : State) : State :=
  let s := s.setRing l (some { phase := .recall, shown := onlyPos p, delayDeadline := none, recallPos := some p })
  let s := post (.ringStart l .recall (some p)) s
  moveShown true 0 (onlyPos p) s

/-- End of a ring (R39): RING_END, the counts lowered in position order, the record removed. The alerts of step 3 are
posted as each count reaches 0: nothing else is posted between. -/
def endRing (l : LineId) (cause : RingCause) (pos : Option PosId) (s : State) : State :=
  match s.ring l with
  | none => s
  | some r =>
    let s := post (.ringEnd l cause pos) s
    let s := moveShown (r.phase == .recall) r.shown 0 s
    s.setRing l none

/-- A ring in PREFERRED widens to GENERAL (R34, R36). -/
def widen (l : LineId) (reason : PhaseReason) (r : RingRec) (s : State) : State :=
  let shown := appearing s l
  let s := s.setRing l (some { phase := .general, shown := shown, delayDeadline := none, recallPos := none })
  let s := post (.ringPhase l reason) s
  moveShown false r.shown shown s

/-- The line is presented to the position (R33). -/
def presented (r : RingRec) (p : PosId) : Bool := inSet r.shown p

/-- The notice that the line left `p`'s map (R36 to R38), given after the map has changed. -/
def lineRemoved (p : PosId) (l : LineId) (s : State) : State :=
  match s.ring l with
  | none => s
  | some r =>
    match r.phase with
    | .preferred => if inSet r.shown p then widen l .appearance r s else s
    | .general =>
      if inSet r.shown p then
        dropShown false p (s.setRing l (some { r with shown := r.shown &&& ~~~(onlyPos p) }))
      else s
    | .recall => s

/-- The notice that the line came onto `p`'s map (R36 to R38). -/
def lineAdded (p : PosId) (l : LineId) (s : State) : State :=
  match s.ring l with
  | none => s
  | some r =>
    match r.phase with
    | .general =>
      if inSet r.shown p then s
      else addShown false p (s.setRing l (some { r with shown := r.shown ||| onlyPos p }))
    | .preferred | .recall => s

/-- Ring delay expiry (R34). -/
def ringDelayExpiry (l : LineId) (s : State) : State :=
  match s.ring l with
  | none => s
  | some r =>
    match r.phase, r.delayDeadline with
    | .preferred, some d => if s.due d then widen l .expiry r s else s
    | _, _ => s

def execRingDelayExpiry (l : LineId) (s : State) : Out := inRunning (ringDelayExpiry l) s

end Sys2Proof.Machine
end

