-- ==== Sys2Proof/Machine/Lines.lean ====
section
/-! DEFINITION. The Line Controller (01_lines_appearances_and_handsets.md): line states, signal words, and the commands on
lines, handsets and appearances. -/

namespace Sys2Proof.Machine

/-! ### Steps on a line -/

/-- A place in the Signal Region (R183). -/
def signalAddr (s : State) (offset : Nat) : Addr := s.pu.regions.signal.getD 0 + BitVec.ofNat 36 offset

/-- Marks the line's control write pending and asks for it, unless it is marked already (R8). -/
def markControl (l : LineId) (s : State) : State :=
  if (s.line l).ctlPending then s
  else requestOwn (.lineControl l) (signalAddr s (1024 + 4 * l.val)) []
    (s.modLine l fun r => { r with ctlPending := true })

/-- A change of a line's state: near_end's mark (R8) and LINE_STATE (R2). -/
def setLineState (l : LineId) (st : LineState) (cause : LineCause) (s : State) : State :=
  let moved := (s.line l).state.nearEnd ≠ st.nearEnd
  let s := s.modLine l fun r => { r with state := st }
  let s := if moved then markControl l s else s
  post (.lineState l st cause) s

def bindHandset (h : Handset) (l : LineId) (s : State) : State :=
  s.modHandset h fun r => { r with binding := some l }

def freeHandset (h : Handset) (s : State) : State :=
  s.modHandset h fun r => { r with binding := none }

/-- A new ring of the line: RINGING with cause RING, handed to the Ring Presenter (R4, R7). -/
def enterRinging (l : LineId) (s : State) : State := startRing l (setLineState l .ringing .ring s)

/-- The level rule (R4). -/
def levelRule (l : LineId) (s : State) : State :=
  let r := s.line l
  if r.type ≠ .hoot ∧ r.state = .idle ∧ r.ringInd = .ringing then enterRinging l s else s

/-- The session of a line ends and recorder leaves its record (R3). -/
def endLineSession (l : LineId) (cause : SessionCause) (s : State) : State :=
  match (s.line l).recorder with
  | none => s
  | some c => (sessionEnd c cause s).modLine l fun r => { r with recorder := none }

/-- Clearing a line towards `st`, IDLE or OUT_OF_SERVICE (R3), then the level rule (R4). -/
def clearLine (l : LineId) (cause : LineCause) (st : LineState) (s : State) : State :=
  let r := s.line l
  let s := r.owners.foldl (fun s h => freeHandset h s) s
  let s := s.modLine l fun r =>
    { r with owners := [], heldBy := none, recallDeadline := none, privacy := false }
  let s := if r.state = .ringing then endRing l cause.ringEnd none s else s
  let s := endLineSession l cause.session s
  levelRule l (setLineState l st cause s)

/-- The line rings in phase RECALL. -/
def recalling (s : State) (l : LineId) : Bool :=
  match s.ring l with
  | some r => r.phase == .recall
  | none => false

/-! ### Signal words (R5 to R7) -/

/-- A change of far_end (R6). -/
def farEndChange (l : LineId) (far : Hook) (s : State) : State :=
  let s := post (.farEnd l far) s
  let st := (s.line l).state
  if far = .onHook ∧ (st = .held ∨ st = .ringing ∧ recalling s l = true) then clearLine l .farEndClear .idle s
  else s

/-- A ring ends ABANDONED and counts as missed (R7, R42). -/
def abandonRing (l : LineId) (s : State) : State :=
  let s := endRing l .abandoned none s
  let s := s.modLine l fun r => { r with missed := min (r.missed + 1) Config.missedMax }
  setLineState l .idle .abandoned s

/-- A change of ring_indicator (R7). -/
def ringChange (l : LineId) (ind : RingInd) (s : State) : State :=
  let r := s.line l
  if r.type = .hoot then s
  else
    match ind, r.state with
    | .ringing, .idle => enterRinging l s
    | .quiet, .ringing => if recalling s l then s else abandonRing l s
    | _, _ => s

/-- The far_end of a signal word: bit 0 (R183). -/
def wordFarEnd (w : Word) : Hook := if w.getLsbD 0 then .offHook else .onHook

/-- The ring_indicator of a signal word: bit 1 (R183). -/
def wordRing (w : Word) : RingInd := if w.getLsbD 1 then .ringing else .quiet

/-- Arrival of a signal word (R5). -/
def signalWord (l : LineId) (w : Word) (s : State) : State :=
  let r := s.line l
  let far := wordFarEnd w
  let ind := wordRing w
  if far = r.farEnd ∧ ind = r.ringInd then s
  else
    let s := s.modLine l fun r => { r with farEnd := far, ringInd := ind }
    if r.state = .outOfService then s
    else
      let s := if far = r.farEnd then s else farEndChange l far s
      if ind = r.ringInd then s else ringChange l ind s

def execSignalWord (l : LineId) (w : Word) (s : State) : Out :=
  inRunning (fun s => signalWord l w (takeHanded (.signalWord l w) s)) s

/-! ### Hold recall (R20) -/

def holdRecallExpiry (l : LineId) (s : State) : State :=
  let r := s.line l
  match r.state, r.recallDeadline, r.heldBy with
  | .held, some d, some p =>
    if s.due d then
      let s := s.modLine l fun r => { r with recallDeadline := none, heldBy := none }
      let s := post (.holdRecall l p) s
      startRecall l p (setLineState l .ringing .recall s)
    else s
  | _, _, _ => s

def execHoldRecallExpiry (l : LineId) (s : State) : Out := inRunning (holdRecallExpiry l) s

/-! ### SEIZE (R11 to R16) -/

/-- The recorder check of a line for position `p` (R16): `none` where it refuses. -/
def recorderCheck (l : LineId) (p : PosId) (s : State) : Option (State × Status) :=
  match (s.line l).policy with
  | .none => some (s, .ok)
  | .optional =>
    match allocate (.line l) [p] s with
    | some (c, s') => some (s'.modLine l fun r => { r with recorder := some c }, .ok)
    | none => some (s, .okUnrecorded)
  | .required =>
    match allocate (.line l) [p] s with
    | some (c, s') => some (s'.modLine l fun r => { r with recorder := some c }, .ok)
    | none => none

/-- The handset becomes the line's sole owner and the line enters CONNECTED (R12, R13, R15). -/
def takeLine (h : Handset) (l : LineId) (cause : LineCause) (s : State) : State :=
  let s := bindHandset h l s
  let s := s.modLine l fun r => { r with owners := [h] }
  setLineState l .connected cause s

/-- Tells the Recorder Unit of a position that comes onto a recorded line (R14, R15, R148). -/
def lineParty (l : LineId) (p : PosId) (s : State) : State :=
  match (s.line l).recorder with
  | none => s
  | some c => partyArrival c p s

/-- Outgoing seize (R12). -/
def seizeIdle (h : Handset) (l : LineId) (s : State) : State × Status :=
  match recorderCheck l h.pos s with
  | none => (s, .noRecorder)
  | some (s', st) => (takeLine h l .seized s', st)

/-- Answer (R13). -/
def seizeRinging (h : Handset) (l : LineId) (s : State) : State × Status :=
  match s.ring l with
  | none => (s, .notPresented)
  | some r =>
    if presented r h.pos = false then (s, .notPresented)
    else if r.phase = .recall then
      (lineParty l h.pos (takeLine h l .answered (endRing l .answered (some h.pos) s)), .ok)
    else
      match recorderCheck l h.pos s with
      | none => (s, .noRecorder)
      | some (s', st) => (takeLine h l .answered (endRing l .answered (some h.pos) s'), st)

/-- Join (R14). -/
def seizeConnected (h : Handset) (l : LineId) (s : State) : State × Status :=
  let r := s.line l
  if r.privacy then (s, .isPrivate)
  else if Config.ownerPlaces ≤ r.owners.length then (s, .lineFull)
  else
    let s := bindHandset h l s
    let s := s.modLine l fun r => { r with owners := r.owners ++ [h] }
    (lineParty l h.pos s, .ok)

/-- Retrieve (R15). -/
def seizeHeld (h : Handset) (l : LineId) (s : State) : State × Status :=
  let r := s.line l
  if r.privacy = true ∧ r.heldBy ≠ some h.pos then (s, .isPrivate)
  else
    let s := s.modLine l fun r => { r with recallDeadline := none, heldBy := none }
    (lineParty l h.pos (takeLine h l .retrieved s), .ok)

/-- SEIZE (R11). -/
def seize (pos side line : Byte) (s : State) : State × Status :=
  match handsetArg pos side, idArg 96 line with
  | some h, some l =>
    let r := s.line l
    if s.appears h.pos l = false then (s, .notAppearing)
    else if (s.handset h).binding.isSome then (s, .handsetBusy)
    else if r.state = .outOfService then (s, .outOfService)
    else if r.state = .bridged ∨ r.type = .hoot then (s, .notSeizable)
    else
      match r.state with
      | .idle => seizeIdle h l s
      | .ringing => seizeRinging h l s
      | .connected => seizeConnected h l s
      | .held => seizeHeld h l s
      | .outOfService | .bridged => (s, .notSeizable)
  | _, _ => (s, .badArgument)

def execSeize (pos side line : Byte) (s : State) : Out :=
  runCommand (.seize pos side line) (seize pos side line) s

/-! ### RELEASE, HOLD, PRIVACY (R18, R19, R21) -/

/-- The line a handset argument is bound to, or the status that refuses the command. -/
def boundLine (pos side : Byte) (s : State) : Except Status (Handset × LineId) :=
  match handsetArg pos side with
  | none => .error .badArgument
  | some h =>
    match (s.handset h).binding with
    | none => .error .notBound
    | some l => .ok (h, l)

/-- Takes a handset off its line: out of the owner list, which closes up, and FREE. -/
def leaveLine (h : Handset) (l : LineId) (s : State) : State :=
  (freeHandset h s).modLine l fun r => { r with owners := r.owners.filter (· != h) }

/-- RELEASE (R18). -/
def release (pos side : Byte) (s : State) : State × Status :=
  match boundLine pos side s with
  | .error st => (s, st)
  | .ok (h, l) =>
    let s := leaveLine h l s
    if (s.line l).owners = [] then (clearLine l .released .idle s, .ok) else (s, .ok)

def execRelease (pos side : Byte) (s : State) : Out := runCommand (.release pos side) (release pos side) s

/-- HOLD (R19). -/
def hold (pos side : Byte) (s : State) : State × Status :=
  match boundLine pos side s with
  | .error st => (s, st)
  | .ok (h, l) =>
    if 1 < (s.line l).owners.length then (s, .shared)
    else
      let deadline := if 0 < (s.line l).recallTime
        then some (s.now + BitVec.ofNat 32 (s.line l).recallTime) else none
      let s := (leaveLine h l s).modLine l fun r => { r with heldBy := some h.pos, recallDeadline := deadline }
      (setLineState l .held .held s, .ok)

def execHold (pos side : Byte) (s : State) : Out := runCommand (.hold pos side) (hold pos side) s

/-- PRIVACY (R21). -/
def privacy (pos side value : Byte) (s : State) : State × Status :=
  match flagArg value with
  | none => (s, .badArgument)
  | some v =>
    match boundLine pos side s with
    | .error st => (s, st)
    | .ok (_, l) => (s.modLine l fun r => { r with privacy := v }, .ok)

def execPrivacy (pos side value : Byte) (s : State) : Out :=
  runCommand (.privacy pos side value) (privacy pos side value) s

/-! ### Maintenance commands (R22 to R26) -/

/-- FORCE_CLEAR (R22). -/
def forceClear (line : Byte) (s : State) : State × Status :=
  match idArg 96 line with
  | none => (s, .badArgument)
  | some l =>
    match (s.line l).state with
    | .idle => (s, .ok)
    | .ringing | .connected | .held => (clearLine l .forced .idle s, .ok)
    | .bridged => (s, .notSeizable)
    | .outOfService => (s, .outOfService)

def execForceClear (line : Byte) (s : State) : Out := runCommand (.forceClear line) (forceClear line) s

/-- A BRIDGED line goes OUT_OF_SERVICE and leaves its group (R23, R64). -/
def bridgedOut (l : LineId) (s : State) : State :=
  match (s.line l).group with
  | none => setLineState l .outOfService .outOfService s
  | some g =>
    let s := removeHoot g l s
    let s := s.modLine l fun r => { r with group := none }
    startHang g (setLineState l .outOfService .outOfService s)

/-- LINE_SERVICE (R23). -/
def lineService (line dir : Byte) (s : State) : State × Status :=
  match idArg 96 line, flagArg dir with
  | some l, some true =>
    if (s.line l).state = .outOfService then (levelRule l (setLineState l .idle .inService s), .ok) else (s, .ok)
  | some l, some false =>
    match (s.line l).state with
    | .outOfService => (s, .ok)
    | .idle => (setLineState l .outOfService .outOfService s, .ok)
    | .ringing | .connected | .held => (clearLine l .outOfService .outOfService s, .ok)
    | .bridged => (bridgedOut l s, .ok)
  | _, _ => (s, .badArgument)

def execLineService (line dir : Byte) (s : State) : Out := runCommand (.lineService line dir) (lineService line dir) s

/-- LINE_SET (R24). -/
def lineSet (line type pad preferred ringDelay policy : Byte) (recallTime : Half) (s : State) : State × Status :=
  match idArg 96 line, typeArg type, optIdArg 8 preferred, policyArg policy with
  | some l, some ty, some pref, some pol =>
    if (s.line l).state = .idle ∨ (s.line l).state = .outOfService then
      let s := s.modLine l fun r =>
        { r with type := ty, pad := clampPad pad, preferred := pref, ringDelay := ringDelayFrames ringDelay,
                 recallTime := recallFrames recallTime, policy := pol }
      (levelRule l s, .ok)
    else (s, .busy)
  | _, _, _, _ => (s, .badArgument)

def execLineSet (line type pad preferred ringDelay policy : Byte) (recallTime : Half) (s : State) : Out :=
  runCommand (.lineSet line type pad preferred ringDelay policy recallTime)
    (lineSet line type pad preferred ringDelay policy recallTime) s

/-- The old line of a key may not leave it: a handset of `p` is bound to it, it is HELD by `p`, or it recalls at `p` (R25). -/
def keyBusy (p : PosId) (l : LineId) (s : State) : Bool :=
  (s.handset ⟨p, .left⟩).binding == some l || (s.handset ⟨p, .right⟩).binding == some l ||
  ((s.line l).state == .held && (s.line l).heldBy == some p) ||
  (match s.ring l with
    | some r => r.phase == .recall && r.recallPos == some p
    | none => false)

/-- APPEAR_SET (R25): the removal is told to the Ring Presenter before the addition (R37). -/
def appearSet (pos key line : Byte) (s : State) : State × Status :=
  match idArg 8 pos, idArg 48 key, optIdArg 96 line with
  | some p, some k, some new =>
    let old := (s.map p).get k
    if old = new then (s, .ok)
    else if (match new with | some l => s.appears p l | none => false) = true then (s, .duplicate)
    else if (match old with | some o => keyBusy p o s | none => false) = true then (s, .busy)
    else
      let s := s.setKey p k new
      let s := match old with | some o => lineRemoved p o s | none => s
      let s := match new with | some l => lineAdded p l s | none => s
      (s, .ok)
  | _, _, _ => (s, .badArgument)

def execAppearSet (pos key line : Byte) (s : State) : Out :=
  runCommand (.appearSet pos key line) (appearSet pos key line) s

/-- HANDSET_SET (R26). -/
def handsetSet (pos side volume micPad : Byte) (s : State) : State × Status :=
  match handsetArg pos side with
  | none => (s, .badArgument)
  | some h => (s.modHandset h fun r => { r with volume := clampLevel volume, micPad := clampPad micPad }, .ok)

def execHandsetSet (pos side volume micPad : Byte) (s : State) : Out :=
  runCommand (.handsetSet pos side volume micPad) (handsetSet pos side volume micPad) s

/-! ### Bridging (R27) and RESTART (R28) -/

/-- A bridge request for group `g`: accepted for a HOOT line in IDLE; without effect on one already BRIDGED in `g`. -/
def bridge (g : GroupId) (l : LineId) (s : State) : State :=
  if (s.line l).type = .hoot ∧ (s.line l).state = .idle then
    setLineState l .bridged .bridged (s.modLine l fun r => { r with group := some g })
  else s

/-- An unbridge request: accepted for a HOOT line in BRIDGED; the level rule leaves it IDLE. -/
def unbridge (l : LineId) (s : State) : State :=
  if (s.line l).type = .hoot ∧ (s.line l).state = .bridged then
    levelRule l (setLineState l .idle .unbridged (s.modLine l fun r => { r with group := none }))
  else s

/-- The Line Controller's share of RESTART for one line (R28). -/
def restartLine (l : LineId) (s : State) : State :=
  match (s.line l).state with
  | .ringing | .connected | .held => clearLine l .restart .idle s
  | .idle | .bridged | .outOfService => s

/-- The Line Controller's share of RESTART, lines in number order (R28, R43). -/
def restartLines (s : State) : State := (List.finRange 96).foldl (fun s l => restartLine l s) s

end Sys2Proof.Machine
end

