-- ==== Sys2Proof/Machine/TalkFloor.lean ====
section
/-! DEFINITION. The Talk Floor Controller (03_intercom_groups_and_the_talk_floor.md): floor places, talk queues, GROUP_SET. -/

namespace Sys2Proof.Machine

/-! ### Grants (R49, R50, R54) -/

/-- A deadline `frames` ahead of the current frame, absent for 0. -/
def deadlineIn (s : State) (frames : Nat) : Option Word :=
  if 0 < frames then some (s.now + BitVec.ofNat 32 frames) else none

/-- Grant of a place (R50). -/
def grantPlace (g : GroupId) (p : PosId) (standing : Bool) (s : State) : State :=
  let r := s.group g
  let s := s.modGroup g fun r => { r with holders := r.holders ++ [⟨p, standing, deadlineIn s r.talkLimit⟩] }
  let s := post (.floorGrant g p) s
  let s := s.modGroup g fun r => { r with hangDeadline := none }
  match r.recorder with
  | none => s
  | some c => partyArrival c p s

/-- One grant of the pass: the head of the queue, while places are free (R54). -/
def grantPassN : Nat → GroupId → State → State
  | 0, _, s => s
  | n + 1, g, s =>
    match (s.group g).queue with
    | [] => s
    | e :: rest =>
      if (s.group g).holders.length < (s.group g).maxTalkers then
        grantPassN n g (grantPlace g e.pos e.standing (s.modGroup g fun r => { r with queue := rest }))
      else s

/-- The grant pass (R54). -/
def grantPass (g : GroupId) (s : State) : State := grantPassN (s.group g).queue.length g s

/-- A channel is allocated to the group if one is FREE (R49, R63). -/
def allocateGroup (g : GroupId) (parties : List PosId) (s : State) : Option State :=
  (allocate (.group g) parties s).map fun (c, s') => s'.modGroup g fun r => { r with recorder := some c }

/-- The group recorder check of R49 with the policy given: `none` where it refuses. -/
def groupCheck (g : GroupId) (policy : Policy) (parties : List PosId) (s : State) : Option (State × Status) :=
  match policy with
  | .none => some (s, .ok)
  | .optional =>
    match allocateGroup g parties s with
    | some s' => some (s', .ok)
    | none => some (s, .okUnrecorded)
  | .required => (allocateGroup g parties s).map fun s' => (s', .ok)

/-! ### TALK and TALK_END (R48 to R53) -/

/-- The position holds or waits in another group (R48, condition 5). -/
def talksElsewhere (p : PosId) (g : GroupId) (s : State) : Bool :=
  (List.finRange 16).any fun h => h != g && (entryOf p (s.group h).holders || entryOf p (s.group h).queue)

/-- Supervisor pre-emption (R51): the oldest non-supervisor holder `q` is revoked and `p` is granted a place. -/
def preempt (g : GroupId) (p : PosId) (q : FloorEntry) (s : State) : State :=
  let s := s.modGroup g fun r => { r with holders := r.holders.erase q }
  grantPlace g p true (post (.floorRevoked g q.pos .preempt) s)

/-- Queueing (R52). -/
def enqueue (g : GroupId) (p : PosId) (standing : Bool) (s : State) : State :=
  s.modGroup g fun r => { r with queue := r.queue ++ [⟨p, standing, deadlineIn s r.queueTimeout⟩] }

/-- TALK once its conditions are passed and every place is taken (R51, R52). -/
def talkFull (g : GroupId) (p : PosId) (s : State) : State × Status :=
  let r := s.group g
  let mark := (s.settings p).supervisor
  match (if mark then r.holders.find? (fun e => !e.standing) else none) with
  | some q => (preempt g p q s, .ok)
  | none =>
    if r.queue.length < Config.talkQueuePlaces then (enqueue g p mark s, .queued) else (s, .floorBusy)

/-- TALK (R48). -/
def talk (pos group : Byte) (s : State) : State × Status :=
  match idArg 8 pos, idArg 16 group with
  | some p, some g =>
    let r := s.group g
    if inSet r.members p = false then (s, .notMember)
    else if entryOf p r.holders then (s, .ok)
    else if entryOf p r.queue then (s, .queued)
    else if talksElsewhere p g s then (s, .micBusy)
    else if r.holders.length < r.maxTalkers then
      if r.hasTalkers = false ∧ r.recorder = none then
        match groupCheck g r.policy [] s with
        | none => (s, .noRecorder)
        | some (s', st) => (grantPlace g p (s.settings p).supervisor s', st)
      else (grantPlace g p (s.settings p).supervisor s, .ok)
    else talkFull g p s
  | _, _ => (s, .badArgument)

def execTalk (pos group : Byte) (s : State) : Out := runCommand (.talk pos group) (talk pos group) s

/-- The entry of a position leaves a list, which closes up. -/
def dropEntry (p : PosId) (es : List FloorEntry) : List FloorEntry := es.filter (·.pos != p)

/-- TALK_END (R53). -/
def talkEnd (pos group : Byte) (s : State) : State × Status :=
  match idArg 8 pos, idArg 16 group with
  | some p, some g =>
    let r := s.group g
    if entryOf p r.holders then
      (startHang g (grantPass g (s.modGroup g fun r => { r with holders := dropEntry p r.holders })), .ok)
    else if entryOf p r.queue then (s.modGroup g fun r => { r with queue := dropEntry p r.queue }, .ok)
    else (s, .notHolding)
  | _, _ => (s, .badArgument)

def execTalkEnd (pos group : Byte) (s : State) : Out := runCommand (.talkEnd pos group) (talkEnd pos group) s

/-! ### Floor timers (R55, R56) -/

/-- The entry's deadline is due. -/
def entryDue (s : State) (e : FloorEntry) : Bool :=
  match e.deadline with
  | some d => s.due d
  | none => false

/-- Queue timeout expiry: the first entry in queue order whose deadline is due (R55, log 6). -/
def queueTimeoutExpiry (g : GroupId) (s : State) : State :=
  match (s.group g).queue.find? (entryDue s) with
  | none => s
  | some e => post (.floorTimeout g e.pos) (s.modGroup g fun r => { r with queue := r.queue.erase e })

def execQueueTimeoutExpiry (g : GroupId) (s : State) : Out := inRunning (queueTimeoutExpiry g) s

/-- Talk limit expiry: the first holder in holders order whose deadline is due (R56, log 6). -/
def talkLimitExpiry (g : GroupId) (s : State) : State :=
  match (s.group g).holders.find? (entryDue s) with
  | none => s
  | some e =>
    let s := s.modGroup g fun r => { r with holders := r.holders.erase e }
    startHang g (grantPass g (post (.floorRevoked g e.pos .talkLimit) s))

def execTalkLimitExpiry (g : GroupId) (s : State) : Out := inRunning (talkLimitExpiry g) s

/-! ### GROUP_SET (R58 to R63) -/

/-- The recording step of R63: `none` where it refuses, else the state with the channel it allocates and the status. -/
def recordingStep (g : GroupId) (members : PosSet) (hoots : List LineId) (maxTalkers : Nat) (policy : Policy)
    (s : State) : Option (State × Status) :=
  let r := s.group g
  let stays (e : FloorEntry) : Bool := inSet members e.pos
  let willTalk := !hoots.isEmpty || r.holders.any stays || r.queue.any stays
  if r.recorder.isSome = true ∨ willTalk = false then some (s, .ok)
  else if r.hasTalkers = false then groupCheck g policy [] s
  else if policy = .required then groupCheck g .required (((r.holders.filter stays).take maxTalkers).map (·.pos)) s
  else some (s, .ok)

/-- The membership step (R61). -/
def membershipStep (g : GroupId) (members : PosSet) (s : State) : State :=
  let r := s.group g
  let out (e : FloorEntry) : Bool := !inSet members e.pos
  let s := s.modGroup g fun r =>
    { r with holders := r.holders.filter (fun e => !out e), queue := r.queue.filter (fun e => !out e) }
  let s := postAll ((r.holders.filter out).map fun e => .floorRevoked g e.pos .membership) s
  postAll ((r.queue.filter out).map fun e => .floorWithdrawn g e.pos .membership) s

/-- The limit step (R62): the newest grants go first. -/
def limitStep (g : GroupId) (maxTalkers : Nat) (s : State) : State :=
  let gone := ((s.group g).holders.drop maxTalkers).reverse
  let s := s.modGroup g fun r => { r with holders := r.holders.take maxTalkers }
  postAll (gone.map fun e => .floorRevoked g e.pos .limit) s

/-- The hang step (R60 step 8); `recorded`: the group had a recorder before the command. -/
def hangStep (g : GroupId) (recorded : Bool) (s : State) : State :=
  let r := s.group g
  if r.hasTalkers then s.modGroup g fun r => { r with hangDeadline := none }
  else if recorded = true ∧ r.hangDeadline = none then startHang g s
  else s

/-- Steps 2 to 8 of an accepted GROUP_SET (R60). -/
def applyGroup (g : GroupId) (c : GroupArgs) (hoots : List LineId) (policy : Policy) (old : GroupRec) (s : State) :
    State :=
  let s := s.modGroup g fun r =>
    { r with members := c.members, hootLines := hoots, maxTalkers := clampTalkers c.maxTalkers,
             queueTimeout := queueTimeoutFrames c.queueTimeout, talkLimit := talkLimitFrames c.talkLimit,
             policy := policy, hangTime := hangFrames c.hangTime }
  let s := (old.hootLines.filter fun l => !hoots.contains l).foldl (fun s l => unbridge l s) s
  let s := (hoots.filter fun l => !old.hootLines.contains l).foldl (fun s l => bridge g l s) s
  let s := membershipStep g c.members s
  let s := limitStep g (clampTalkers c.maxTalkers) s
  let s := grantPass g s
  hangStep g old.recorder.isSome s

/-- A hoot line that stands in the way of GROUP_SET: conditions 2, 3 and 4 of R58 in order. -/
def hootStatus (g : GroupId) (hoots : List LineId) (s : State) : Option Status :=
  if hoots.any (fun l => (s.line l).type != .hoot) then some .badArgument
  else if hoots.any (fun l => (s.line l).state == .bridged && (s.line l).group != some g) then some .busy
  else if hoots.any (fun l => (s.line l).state == .outOfService) then some .outOfService
  else none

/-- GROUP_SET (R58). -/
def groupSet (group : Byte) (c : GroupArgs) (s : State) : State × Status :=
  match idArg 16 group, hootArg c, policyArg c.policy with
  | some g, some hoots, some policy =>
    if hoots.Nodup then
      match hootStatus g hoots s with
      | some st => (s, st)
      | none =>
        match recordingStep g c.members hoots (clampTalkers c.maxTalkers) policy s with
        | none => (s, .noRecorder)
        | some (s', st) => (applyGroup g c hoots policy (s.group g) s', st)
    else (s, .badArgument)
  | _, _, _ => (s, .badArgument)

def execGroupSet (group : Byte) (cfg : GroupArgs) (s : State) : Out :=
  runCommand (.groupSet group cfg) (groupSet group cfg) s

/-! ### Entry into RUNNING (R47) and RESTART (R68) -/

/-- One group's share of the bridging at entry into RUNNING (R47). -/
def bridgeGroup (g : GroupId) (s : State) : State :=
  let r := s.group g
  if r.hootLines = [] then s
  else
    let s := match groupCheck g r.policy [] s with
      | some (s', _) => s'
      | none => s
    r.hootLines.foldl (fun s l => bridge g l s) s

def bridgeGroups (s : State) : State := (List.finRange 16).foldl (fun s g => bridgeGroup g s) s

/-- One group's share of RESTART (R68). -/
def restartGroup (g : GroupId) (s : State) : State :=
  let r := s.group g
  let s := s.modGroup g fun r => { r with holders := [], queue := [], hangDeadline := none }
  let s := postAll (r.holders.map fun e => .floorRevoked g e.pos .restart) s
  let s := postAll (r.queue.map fun e => .floorWithdrawn g e.pos .restart) s
  if r.hootLines = [] then endGroupSession g .restart s else s

/-- The Talk Floor Controller's share of RESTART, groups in number order (R68). -/
def restartGroups (s : State) : State := (List.finRange 16).foldl (fun s g => restartGroup g s) s

end Sys2Proof.Machine
end

