-- ==== Sys2Proof/Machine/CommandRing.lean ====
section
/-! DEFINITION. The Command and Event Unit (09_command_ring_event_ring_and_queries.md) but for QUERY: posting and fetching
commands, the decoding of a slot (R187, R188), the event ring's words, and RESTART. -/

namespace Sys2Proof.Machine

/-! ### Posting and fetching (R164, R165) -/

/-- A command post value (R164). -/
def commandPost (v : Word) (s : State) : State :=
  if (v - s.cu.taken).toNat > s.cu.cmdSize then post (.commandRingFault v s.cu.taken) s
  else { s with cu := { s.cu with posted := v } }

def execCommandPost (v : Word) (s : State) : Out :=
  inRunning (fun s => commandPost v (takeHanded (.commandPost v) s)) s

/-- The conditions of a fetch (R165). -/
def State.fetches (s : State) : Bool :=
  s.cu.execution == .idle && s.cu.posted != s.cu.taken && Config.fetchPlaces ≤ s.cu.freePlaces

/-- The address of the slot that is next to fetch. -/
def CmdUnit.slotAddr (c : CmdUnit) : Addr := c.cmdBase + BitVec.ofNat 36 (32 * (c.taken.toNat % c.cmdSize))

/-- The unit enters FETCHING and asks for the slot (R165). -/
def commandFetch (s : State) : State :=
  if s.fetches then
    requestOwn .commandFetch s.cu.slotAddr [] { s with cu := { s.cu with execution := .fetching } }
  else s

def execCommandFetch (s : State) : Out := inRunning commandFetch s

/-! ### Decoding a slot (R187, R188) -/

/-- Bytes 0 to 8 of a GROUPS record, from offset `o`. -/
def groupArgs (bs : List Byte) (o : Nat) : GroupArgs :=
  { members := byteAt bs o, hootCount := byteAt bs (o + 1), hoot0 := byteAt bs (o + 2), hoot1 := byteAt bs (o + 3),
    maxTalkers := byteAt bs (o + 4), queueTimeout := byteAt bs (o + 5), talkLimit := byteAt bs (o + 6),
    policy := byteAt bs (o + 7), hangTime := byteAt bs (o + 8) }

/-- The command of a slot, by its kind byte and argument bytes; `none` for a kind not in the list (R187, R188). -/
def decodeSlot (bs : List Byte) : Option Instr :=
  let a (i : Nat) : Byte := byteAt bs (8 + i)
  match (byteAt bs 4).toNat with
  | 1 => some (.lineSet (a 0) (a 1) (a 2) (a 3) (a 4) (a 5) (BitVec.ofNat 16 (leAt bs 14 2)))
  | 2 => some (.lineService (a 0) (a 1))
  | 3 => some (.appearSet (a 0) (a 1) (a 2))
  | 4 => some (.seize (a 0) (a 1) (a 2))
  | 5 => some (.release (a 0) (a 1))
  | 6 => some (.hold (a 0) (a 1))
  | 7 => some (.privacy (a 0) (a 1) (a 2))
  | 8 => some (.forceClear (a 0))
  | 9 => some (.handsetSet (a 0) (a 1) (a 2) (a 3))
  | 10 => some (.positionSet (a 0) (a 1) (a 2) (a 3) (a 4) (a 5))
  | 11 => some (.speakerSet (a 0) (a 1) (a 2) (a 3) (a 4) (a 5))
  | 12 => some (.groupSet (a 0) (groupArgs bs 9))
  | 13 => some (.talk (a 0) (a 1))
  | 14 => some (.talkEnd (a 0) (a 1))
  | 15 => some (.recorderSet (a 0) (addrAt bs 12) (addrAt bs 17) (addrAt bs 22) (addrAt bs 27))
  | 16 => some (.recordReturn (a 0) (a 1))
  | 17 => some (.query (a 0) (a 1) (a 2) (addrAt bs 12))
  | 18 => some .restart
  | _ => none

/-- The nine bytes of a GROUPS record that GROUP_SET gives. -/
def groupArgBytes (c : GroupArgs) : List Byte :=
  [c.members, c.hootCount, c.hoot0, c.hoot1, c.maxTalkers, c.queueTimeout, c.talkLimit, c.policy, c.hangTime]

/-- The kind code of a host command (R182) and its argument bytes (R187); `none` for what no slot carries. -/
def slotFields : Instr → Option (Byte × List Byte)
  | .lineSet line type pad preferred ringDelay policy recallTime =>
    some (1, [line, type, pad, preferred, ringDelay, policy] ++ leBytes 2 recallTime.toNat)
  | .lineService line dir => some (2, [line, dir])
  | .appearSet pos key line => some (3, [pos, key, line])
  | .seize pos side line => some (4, [pos, side, line])
  | .release pos side => some (5, [pos, side])
  | .hold pos side => some (6, [pos, side])
  | .privacy pos side value => some (7, [pos, side, value])
  | .forceClear line => some (8, [line])
  | .handsetSet pos side volume micPad => some (9, [pos, side, volume, micPad])
  | .positionSet pos micPad duck ringLevel recallLevel supervisor =>
    some (10, [pos, micPad, duck, ringLevel, recallLevel, supervisor])
  | .speakerSet pos chan kind subject flags volume => some (11, [pos, chan, kind, subject, flags, volume])
  | .groupSet group cfg => some (12, group :: groupArgBytes cfg)
  | .talk pos group => some (13, [pos, group])
  | .talkEnd pos group => some (14, [pos, group])
  | .recorderSet chan baseA ceilA baseB ceilB =>
    some (15, [chan, 0, 0, 0] ++ addrBytes baseA ++ addrBytes ceilA ++ addrBytes baseB ++ addrBytes ceilB)
  | .recordReturn chan buffer => some (16, [chan, buffer])
  | .query kind index clear target => some (17, [kind, index, clear, 0] ++ addrBytes target)
  | .restart => some (18, [])
  | .commandPost .. | .commandFetch | .commandFetchResponse .. | .eventConsumed .. | .eventWriteResponse ..
  | .logConsumed .. | .signalWord .. | .holdRecallExpiry .. | .ringDelayExpiry .. | .queueTimeoutExpiry ..
  | .talkLimitExpiry .. | .hangExpiry .. | .frameInPulse .. | .pulseWatchExpiry | .freewheelTimerExpiry
  | .frameEventMix | .recorderFrames | .sessionSegment .. | .frameWriteResponse .. | .logWriteResponse ..
  | .controlWordWriteResponse .. | .snapshotWriteResponse .. | .statusWordWriteResponse ..
  | .configReadResponse .. | .anchorWrite .. | .timeSyncWord .. | .upstreamWrite .. | .upstreamRead ..
  | .outboundRead .. | .passThroughResponse .. | .downstreamGrant | .powerOn .. | .resetN ..
  | .indexWordWriteResponse .. => none

/-- The slot that carries a host command under a tag (R187), its unused bytes zero. -/
def slotBytes (tag : Word) (c : Instr) : Option (List Byte) :=
  (slotFields c).map fun f => padTo 32 (padTo 8 (wordBytes tag ++ [f.1]) ++ f.2)

def Purpose.isFetch : Purpose → Bool
  | .commandFetch => true
  | _ => false

/-- The slot's tag and kind become the current ones, whatever the response says (R165). -/
def setCurrent (bs : List Byte) (s : State) : State :=
  { s with cu := { s.cu with curTag := BitVec.ofNat 32 (leAt bs 0 4), curKind := byteAt bs 4 } }

/-- The unit enters EXECUTING with the command in hand. -/
def handCommand (c : Instr) (s : State) : State :=
  { s with cu := { s.cu with execution := .executing, inHand := some c } }

/-- A fetched slot (R165). -/
def fetched (a : OwnAccess) (error : Bool) (bs : List Byte) (s : State) : State :=
  let s := setCurrent bs s
  if error then complete .memoryError (memoryFault a s)
  else
    match decodeSlot bs with
    | none => complete .badCommand s
    | some c => handCommand c s

/-- Response to the command fetch in flight (R165). A fetch is in flight only in FETCHING. -/
def commandFetchResponse (error : Bool) (slot : Table 32 Byte) (s : State) : State :=
  match takeFlight Purpose.isFetch 0 s with
  | none => s
  | some (a, s') => if s.cu.execution = .fetching then fetched a error slot.rows s' else s'

def execCommandFetchResponse (error : Bool) (slot : Table 32 Byte) (s : State) : Out :=
  inRunning (commandFetchResponse error slot) s

/-! ### The event ring's words (R168) -/

/-- An event consumed value (R168). -/
def eventConsumed (v : Word) (s : State) : State :=
  if (s.cu.evProduced - v).toNat > s.cu.evSize then { s with cu := { s.cu with evFaults := s.cu.evFaults + 1 } }
  else drain { s with cu := { s.cu with evConsumed := v } }

def execEventConsumed (v : Word) (s : State) : Out :=
  inRunning (fun s => eventConsumed v (takeHanded (.eventConsumed v) s)) s

def Purpose.slotIndex : Purpose → Option Word
  | .eventSlot i => some i
  | _ => none

def Purpose.isEventSlot (p : Purpose) : Bool := p.slotIndex.isSome

/-- A write of the event produced word (R168). -/
def requestEventWord (count : Word) (s : State) : State :=
  requestOwn (.eventProduced count) (controlAddr s 8) (wordBytes count) s

/-- Response to the `k`th event slot write in flight (R168, R126). -/
def eventWriteResponse (k : Nat) (error : Bool) (s : State) : State :=
  match takeFlight Purpose.isEventSlot k s with
  | none => s
  | some (a, s') =>
    let t := faultIf error a s'
    match announce Purpose.slotIndex (a.purpose.slotIndex.getD 0) s.cu.evProduced s with
    | some count => requestEventWord count t
    | none => t

def execEventWriteResponse (k : Nat) (error : Bool) (s : State) : Out := inRunning (eventWriteResponse k error) s

def Purpose.isIndexWord : Purpose → Bool
  | .eventProduced _ | .commandTaken _ => true
  | _ => false

/-- Response to the `k`th write of the event produced or command taken word in flight; done even on error (R126). -/
def indexWordWriteResponse (k : Nat) (error : Bool) (s : State) : State :=
  match takeFlight Purpose.isIndexWord k s with
  | none => s
  | some (a, s') => faultIf error a s'

def execIndexWordWriteResponse (k : Nat) (error : Bool) (s : State) : Out :=
  inRunning (indexWordWriteResponse k error) s

/-! ### RESTART (R173) -/

/-- The Mixing Engine's share: every last-frame record NONE (R105). -/
def forgetFrames (s : State) : State :=
  { s with me := { s.me with last := s.me.last.map fun r => { r with kind := .none } } }

/-- FAULTn is released if a memory fault asserted it (R170). -/
def releaseMemoryFault (s : State) : State :=
  if s.cu.fault.cause = .memoryError then
    { s with cu := { s.cu with fault := { s.cu.fault with asserted := false } } }
  else s

/-- The shares of RESTART, in order (R173). They are taken at one moment, with no frame event between two of them: the model's
choice (log 37). -/
def restart (s : State) : State × Status :=
  (releaseMemoryFault (forgetFrames (flushPath (restartGroups (restartLines s)))), .ok)

def execRestart (s : State) : Out := runCommand .restart restart s

end Sys2Proof.Machine
end

