-- ==== Sys2Proof/Machine/ConfigLoad.lean ====
section
/-! DEFINITION. The Configuration Loader (10_configuration_image_and_start_up.md): the anchor, the image's sections and their
checks, CONFIG_FAULT, and the entry into RUNNING. -/

namespace Sys2Proof.Machine

/-! ### The status word and the start of a load (R176, R177) -/

/-- Asks for a write of the status word (R176). -/
def writeStatus (op : OpState) (code : FaultCode) (length : Nat) (s : State) : State :=
  requestOwn (.statusWord op) (anchorAddr s.ld.sel + 4) (statusWordBytes op code length) s

/-- Asks for the image's next bytes, one read at a time (R177, log 8). -/
def requestImage (s : State) : State :=
  requestOwn .imageRead (s.ld.image + BitVec.ofNat 36 (s.ld.cursor + s.ld.buf.length)) [] s

/-- What an image section sets of a line, at its power-on value. -/
def LineRec.unloaded (r : LineRec) : LineRec :=
  { r with type := .ringdown, state := .outOfService, preferred := none, ringDelay := 0, recallTime := 0,
           policy := .none, pad := 0 }

/-- What an image section sets of a group, at its power-on value. -/
def GroupRec.unloaded (r : GroupRec) : GroupRec :=
  { r with members := 0, hootLines := [], maxTalkers := 1, queueTimeout := 0, talkLimit := 0, policy := .none,
           hangTime := 0 }

/-- Every item that an image section sets goes back to its power-on value, in every block (R177). -/
def unloadImage (s : State) : State :=
  { s with
    lc := { lines := s.lc.lines.map LineRec.unloaded,
            handsets := s.lc.handsets.map fun h => { h with volume := 0, micPad := 0 },
            maps := .replicate 8 (.replicate 48 none) }
    fc := { groups := s.fc.groups.map GroupRec.unloaded }
    mp := .reset
    me := { s.me with tones := Mixer.reset.tones }
    ft := { s.ft with clkPerMs := 0 }
    ru := { s.ru with
      channels := s.ru.channels.map fun c => { c with bufA := .reset, bufB := .reset, current := .bufA },
      segLen := 0, logBase := 0, logSize := 0 }
    cu := { s.cu with cmdBase := 0, cmdSize := 0, evBase := 0, evSize := 0 }
    ld := { s.ld with regions := .absent } }

/-- The image address that an image address word names: 16 times its value (R184). -/
def imageAddr (v : Word) : Addr := BitVec.ofNat 36 (16 * v.toNat)

/-- Entry into LOADING (R177). -/
def startLoad (v : Word) (s : State) : State :=
  let s := unloadImage s
  let s := { s with ld := { s.ld with op := .loading, image := imageAddr v, cursor := 0, buf := [], expected := 1 } }
  requestImage (writeStatus .loading .none 0 s)

/-- Arrival of an image address value (R175): it starts a load from TRANSPARENT and CONFIG_FAULT if it is not 0. -/
def anchorWrite (v : Word) (s : State) : State :=
  match s.ld.op with
  | .transparent | .configFault => if v = 0 then s else startLoad v s
  | .loading | .running => s

def execAnchorWrite (v : Word) (s : State) : Out := .next (anchorWrite v (takeHanded (.anchor v) s))

/-- A load ends in CONFIG_FAULT with the fault found at an offset (R178). -/
def configFault (code : FaultCode) (offset : Nat) (s : State) : State :=
  let s := { s with ld := { s.ld with op := .configFault } }
  let s := recordFault code .config (s.ld.image + BitVec.ofNat 36 offset) s
  writeStatus .configFault code offset s

/-! ### Sections (R185, R186) -/

/-- The length of a section, header included. -/
def sectionLength : Nat → Nat
  | 1 => 40
  | 2 => 56
  | 3 => 776
  | 4 => 872
  | 5 => 200
  | 6 => 216
  | 7 => 1040
  | 8 => 16
  | 9 => 8
  | _ => 0

/-- The records of `n` bytes that lie whole in the bytes given, at most `count`. -/
def wholeRecords (n count : Nat) (bs : List Byte) : List (List Byte) :=
  (List.range (min count (bs.length / n))).map fun i => (bs.drop (n * i)).take n

/-- Record `i` of a section of records of `n` bytes. -/
def record (n : Nat) (bs : List Byte) (i : Nat) : List Byte := (bs.drop (n * i)).take n

/-- A line's record has no index error (R186). -/
def lineRecordOk (b : List Byte) : Bool :=
  (typeArg (byteAt b 0)).isSome && (optIdArg 8 (byteAt b 2)).isSome && (policyArg (byteAt b 6)).isSome &&
    (flagArg (byteAt b 7)).isSome

/-- The keys of a position's record. -/
def recordKeys (b : List Byte) : List (Option (Option LineId)) :=
  (List.range 48).map fun i => optIdArg 96 (byteAt b i)

/-- The subject of channel `i` of a position's record, if it has no index error. -/
def recordSubject (b : List Byte) (i : Nat) : Option (Option Subject) :=
  subjectArg (byteAt b (60 + 4 * i)) (byteAt b (61 + 4 * i))

/-- A subject of a position's record stands on its keys, if it is a line (R89). -/
def subjectPlaced (keys : List LineId) : Subject → Bool
  | .line l => keys.contains l
  | .group _ => true

/-- A position's record has no index error and keeps the laws of R10 and R89. -/
def positionRecordOk (b : List Byte) : Bool :=
  let keys := recordKeys b
  let lines : List LineId := keys.filterMap Option.join
  let subjects := (List.range 12).map (recordSubject b)
  let named : List Subject := subjects.filterMap Option.join
  keys.all Option.isSome && decide lines.Nodup && (flagArg (byteAt b 52)).isSome && subjects.all Option.isSome &&
    decide named.Nodup && named.all (subjectPlaced lines)

/-- A group's record has no index error (R186). A hoot line of 96 or more is found here, in the section, and not by the check at
its end: the model's choice (log 38). -/
def groupRecordOk (b : List Byte) : Bool :=
  (hootArg (groupArgs b 0)).isSome && (policyArg (byteAt b 7)).isSome

/-- A channel's record keeps the laws of R162. -/
def channelRecordOk (b : List Byte) : Bool :=
  bufferOk (addrAt b 0) (addrAt b 8) && bufferOk (addrAt b 16) (addrAt b 24)

/-- The checks made in a section, on the records whose bytes have all been read (R178). -/
def recordsOk (ident : Nat) (body : List Byte) : Bool :=
  match ident with
  | 3 => (wholeRecords 8 96 body).all lineRecordOk
  | 4 => (wholeRecords 108 8 body).all positionRecordOk
  | 5 => (wholeRecords 12 16 body).all groupRecordOk
  | 7 => (wholeRecords 32 32 body).all channelRecordOk
  | _ => true

/-! ### Checks at the end of a section (R178) -/

/-- The bases that the REGIONS section gives: Inbound, Outbound, Signal, Control. -/
def regionBases (body : List Byte) : List Addr := (List.range 4).map fun i => addrAt body (8 * i)

/-- Sizes of the regions, which are their alignments too (R107). -/
def regionSizes : List Nat := [32768, 65536, 2048, 64]

/-- A ring entry of the RINGS section. -/
structure RingEntry where
  base : Addr
  size : Nat
  slot : Nat
  least : Nat
  most : Nat
  deriving DecidableEq, Repr

/-- Command ring, event ring and Recording Log, with their slot sizes and ranges (00_scope.md section 4). -/
def ringEntries (body : List Byte) : List RingEntry :=
  [⟨addrAt body 0, leAt body 8 4, 32, 16, 1024⟩, ⟨addrAt body 16, leAt body 24 4, 16, 64, 4096⟩,
    ⟨addrAt body 32, leAt body 40 4, 64, 16, 1024⟩]

/-- A power of two up to 4096. -/
def isPowerOfTwo (n : Nat) : Bool := ((List.range 13).map (2 ^ ·)).contains n

def RingEntry.sizeOk (r : RingEntry) : Bool := r.least ≤ r.size && r.size ≤ r.most && isPowerOfTwo r.size

/-- Two spans of bytes share one, addresses taken modulo 2^36 (log 23). -/
def spansMeet (a b : Addr × Nat) : Bool := (b.1 - a.1).toNat < a.2 || (a.1 - b.1).toNat < b.2

/-- Two spans of the list share a byte. -/
def anyMeet : List (Addr × Nat) → Bool
  | [] => false
  | a :: as => as.any (spansMeet a) || anyMeet as

/-- The spans of the four regions. -/
def regionSpans (r : Regions) : List (Addr × Nat) :=
  [(r.inbound.getD 0, 32768), (r.outbound.getD 0, 65536), (r.signal.getD 0, 2048), (r.control.getD 0, 64)]

/-- The failure of a list of GROUPS records against the lines (R47). -/
def groupsOk (s : State) (body : List Byte) : Bool :=
  let hoots := ((List.range 16).map fun i => (hootArg (groupArgs (record 12 body i) 0)).getD []).flatten
  decide hoots.Nodup && hoots.all fun l => (s.line l).type == .hoot && (s.line l).state != .outOfService

/-- The check at the end of a section: the code of its failure. -/
def endFault (s : State) (ident : Nat) (body : List Byte) : Option FaultCode :=
  match ident with
  | 1 =>
    if ((regionBases body).zip regionSizes).all fun r => r.1.toNat % r.2 == 0 then none else some .regionMisaligned
  | 2 =>
    let rings := ringEntries body
    if rings.any fun r => r.base.toNat % r.slot != 0 then some .regionMisaligned
    else if rings.any fun r => !r.sizeOk then some .ringSize
    else if anyMeet (regionSpans s.ld.regions ++ rings.map fun r => (r.base, r.size * r.slot)) then some .regionOverlap
    else none
  | 5 => if groupsOk s body then none else some .badIndex
  | _ => none

/-! ### Storing a section (R177, R179) -/

/-- A LINES record (R1): a line in service goes IDLE. -/
def loadLine (b : List Byte) (r : LineRec) : LineRec :=
  { r with type := (typeArg (byteAt b 0)).getD .ringdown, pad := clampPad (byteAt b 1),
           preferred := (optIdArg 8 (byteAt b 2)).getD none, ringDelay := ringDelayFrames (byteAt b 3),
           recallTime := recallFrames (BitVec.ofNat 16 (leAt b 4 2)), policy := (policyArg (byteAt b 6)).getD .none,
           state := if byteAt b 7 = 1 then .idle else .outOfService }

def loadLines (body : List Byte) (s : State) : State :=
  { s with lc := { s.lc with lines := .build fun l => loadLine (record 8 body l.val) (s.line l) } }

/-- The side of a handset's place in its table. -/
def placeSide (i : Fin 16) : Nat := i.val % 2

/-- Handset settings of a POSITIONS record: LEFT in bytes 53 and 54, RIGHT in 55 and 56. -/
def loadHandset (b : List Byte) (side : Nat) (r : HandsetRec) : HandsetRec :=
  { r with volume := clampLevel (byteAt b (53 + 2 * side)), micPad := clampPad (byteAt b (54 + 2 * side)) }

/-- A speaker channel entry of a POSITIONS record, stored as SPEAKER_SET would (R89). -/
def loadSpeaker (b : List Byte) (i : Nat) : SpkChan :=
  let flags := byteAt b (62 + 4 * i)
  ⟨(recordSubject b i).getD none, if flags.getLsbD 0 then .right else .left, clampLevel (byteAt b (63 + 4 * i)),
    flags.getLsbD 1⟩

def loadSettings (b : List Byte) : PosSettings :=
  ⟨clampPad (byteAt b 48), clampPad (byteAt b 49), clampLevel (byteAt b 50), clampLevel (byteAt b 51), byteAt b 52 == 1⟩

def loadPositions (body : List Byte) (s : State) : State :=
  let rec_ (i : Nat) : List Byte := record 108 body i
  { s with
    lc := { s.lc with
      handsets := .build fun i => loadHandset (rec_ (i.val / 2)) (placeSide i) (s.lc.handsets.get i)
      maps := .build fun p => .build fun k => (optIdArg 96 (byteAt (rec_ p.val) k.val)).getD none }
    mp := { s.mp with
      speakers := .build fun p => .build fun c => loadSpeaker (rec_ p.val) c.val
      settings := .build fun p => loadSettings (rec_ p.val) } }

/-- A GROUPS record (R45, R179). -/
def loadGroup (b : List Byte) (r : GroupRec) : GroupRec :=
  let c := groupArgs b 0
  { r with members := c.members, hootLines := (hootArg c).getD [], maxTalkers := clampTalkers c.maxTalkers,
           queueTimeout := queueTimeoutFrames c.queueTimeout, talkLimit := talkLimitFrames c.talkLimit,
           policy := (policyArg c.policy).getD .none, hangTime := hangFrames c.hangTime }

def loadGroups (body : List Byte) (s : State) : State :=
  { s with fc := { groups := .build fun g => loadGroup (record 12 body g.val) (s.group g) } }

/-- A tone's 68 bytes (R101). -/
def loadTone (b : List Byte) : ToneTable :=
  ⟨.build fun k => BitVec.ofNat 16 (leAt b (2 * k.val) 2), clampCadence (leAt b 64 2), clampCadence (leAt b 66 2)⟩

def loadTones (body : List Byte) (s : State) : State :=
  { s with
    me := { s.me with tones := .build fun t => loadTone (record 68 body t.val) }
    mp := { s.mp with holdLevel := clampLevel (byteAt body 204) } }

/-- A RECORDERS record, stored as RECORDER_SET would (R162). -/
def loadChannel (b : List Byte) (c : Channel) : Channel :=
  { c with bufA := .fresh (addrAt b 0) (addrAt b 8), bufB := .fresh (addrAt b 16) (addrAt b 24), current := .bufA }

def loadRecorders (body : List Byte) (s : State) : State :=
  { s with ru := { s.ru with
    channels := .build fun c => loadChannel (record 32 body c.val) (s.chan c)
    segLen := segmentFrames (leAt body 1024 4) } }

/-- The Region Table read, kept until the entry into RUNNING (R107). -/
def loadRegions (body : List Byte) (s : State) : State :=
  { s with ld := { s.ld with
    regions := ⟨some (addrAt body 0), some (addrAt body 8), some (addrAt body 16), some (addrAt body 24)⟩ } }

def loadRings (body : List Byte) (s : State) : State :=
  { s with
    cu := { s.cu with cmdBase := addrAt body 0, cmdSize := leAt body 8 4, evBase := addrAt body 16,
                      evSize := leAt body 24 4 }
    ru := { s.ru with logBase := addrAt body 32, logSize := leAt body 40 4 } }

def loadTiming (body : List Byte) (s : State) : State :=
  { s with ft := { s.ft with clkPerMs := clampClk (leAt body 0 4) } }

/-- Stores a section that has passed its checks. -/
def storeSection (ident : Nat) (body : List Byte) (s : State) : State :=
  match ident with
  | 1 => loadRegions body s
  | 2 => loadRings body s
  | 3 => loadLines body s
  | 4 => loadPositions body s
  | 5 => loadGroups body s
  | 6 => loadTones body s
  | 7 => loadRecorders body s
  | 8 => loadTiming body s
  | _ => s

/-! ### Entry into RUNNING (R180) -/

/-- The path unit's share of step 1 (R107, R127). -/
def enterPath (s : State) : State :=
  { s with
    ld := { s.ld with op := .running }
    pu := { s.pu with regions := s.ld.regions, shadows := .zero, assembly := .replicate 120 .empty,
                      queues := .replicate 120 [], store := .replicate 160 [] } }

/-- The entry values of step 2, lines apart. -/
def enterCounts (s : State) : State :=
  { s with
    cu := { s.cu with posted := 0, taken := 0, execution := .idle, evProduced := 0, evConsumed := 0 }
    ru := { s.ru with frameNo := 0, produced := 0, consumed := 0 }
    me := { s.me with phase := .replicate 3 0, last := s.me.last.map fun r => { r with kind := .none } } }

/-- Every line's control write is marked (R8). The writes are asked for in line-number order, the model's choice (log 35). -/
def markLines (s : State) : State := (List.finRange 96).foldl (fun s l => markControl l s) s

/-- FAULTn is released; first fault, count and cause stay (step 3, log 24). -/
def releaseFault (s : State) : State :=
  { s with cu := { s.cu with fault := { s.cu.fault with asserted := false } } }

/-- The index words written with 0 (step 4). -/
def writeZeroIndices (s : State) : State :=
  requestLogWord 0 (requestEventWord 0 (requestOwn (.commandTaken 0) (controlAddr s 4) (wordBytes 0) s))

/-- The Frame Timer starts (step 7, R128). -/
def startTimer (s : State) : State :=
  let t := s.ft
  { s with ft := { t with counter := 0, watch := .acquiring, refPulse := none, good := 0,
                          freeTimer := some (t.clock + t.clkPerMs), watchTimer := some (t.watchFrom t.clock) } }

/-- Entry into RUNNING, in the steps of R180; `length` is the image length. -/
def enterRunning (length : Nat) (s : State) : State :=
  let s := markLines (enterCounts (enterPath s))
  let s := bridgeGroups (writeZeroIndices (releaseFault s))
  startTimer (writeStatus .running .none length s)

/-! ### Reading the image (R178) -/

/-- What the loader does with the bytes it holds. -/
inductive LoadStep
  | needMore
  | bad (code : FaultCode) (offset : Nat)
  | badInSection (length : Nat)
  | store (length : Nat)
  | finish (length : Nat)
  deriving DecidableEq, Repr

/-- The tests at a section header, in the order of R186. -/
def headerFault (cursor expected ident length : Nat) : Option FaultCode :=
  if Config.imageLimit < cursor + length then some .imageUnterminated
  else if ident ≠ expected ∨ length ≠ sectionLength expected then some .badSection
  else none

/-- The loader's next step on the section at its cursor. -/
def loadStep (s : State) : LoadStep :=
  let l := s.ld
  if Config.imageLimit < l.cursor + 8 then .bad .imageUnterminated l.cursor
  else if l.buf.length < 8 then .needMore
  else
    let ident := leAt l.buf 0 4
    let length := leAt l.buf 4 4
    let body := (l.buf.take length).drop 8
    match headerFault l.cursor l.expected ident length with
    | some code => .bad code l.cursor
    | none =>
      if ident = 9 then .finish (l.cursor + length)
      else if recordsOk ident body = false then .badInSection length
      else if l.buf.length < length then .needMore
      else
        match endFault s ident body with
        | some code => .bad code (l.cursor + length)
        | none => .store length

/-- Stores the section at the cursor and moves on to the next. -/
def nextSection (length : Nat) (s : State) : State :=
  let s := storeSection s.ld.expected ((s.ld.buf.take length).drop 8) s
  { s with ld := { s.ld with
    cursor := s.ld.cursor + length, buf := s.ld.buf.drop length, expected := s.ld.expected + 1 } }

/-- Takes the sections that the bytes read hold, at most `n` of them. -/
def takeSections : Nat → State → State
  | 0, s => requestImage s
  | n + 1, s =>
    match loadStep s with
    | .needMore => requestImage s
    | .bad code offset => configFault code offset s
    | .badInSection length =>
      configFault .badIndex (s.ld.cursor + Config.badIndexOffset s.draws % (length + 1)) { s with draws := s.draws + 1 }
    | .store length => takeSections n (nextSection length s)
    | .finish length => enterRunning length s

def Purpose.isImageRead : Purpose → Bool
  | .imageRead => true
  | _ => false

/-- Bytes of the image arrive in LOADING. -/
def imageBytes (data : List Byte) (s : State) : State :=
  takeSections 10 { s with ld := { s.ld with buf := s.ld.buf ++ data } }

/-- Response to the image read in flight (R178). Outside LOADING its data are discarded, an error is recorded (R126). -/
def execConfigReadResponse (error : Bool) (data : List Byte) (s : State) : Out :=
  match takeFlight Purpose.isImageRead 0 s with
  | none => .next s
  | some (a, s') =>
    if s.ld.op = .loading then
      if error then .next (configFault .memoryError (s.ld.cursor + s.ld.buf.length) s')
      else .next (imageBytes data s')
    else .next (faultIf error a s')

def Purpose.isStatusWord : Purpose → Bool
  | .statusWord _ => true
  | _ => false

/-- Response to the `k`th status word write in flight; on error the state stays (R176, R126). -/
def execStatusWordWriteResponse (k : Nat) (error : Bool) (s : State) : Out :=
  match takeFlight Purpose.isStatusWord k s with
  | none => .next s
  | some (a, s') => .next (faultIf error a s')

end Sys2Proof.Machine
end

