-- ==== Sys2Proof/Machine/MixPlan.lean ====
section
/-! DEFINITION. The Mix Planner (04_speaker_channels_and_the_mix_plan.md): its commands, and the plan derived at a frame event. -/

namespace Sys2Proof.Machine

/-! ### POSITION_SET and SPEAKER_SET (R26, R72, R73) -/

def positionSet (pos micPad duck ringLevel recallLevel supervisor : Byte) (s : State) : State × Status :=
  match idArg 8 pos, flagArg supervisor with
  | some p, some mark =>
    let x : PosSettings :=
      ⟨clampPad micPad, clampPad duck, clampLevel ringLevel, clampLevel recallLevel, mark⟩
    ({ s with mp := { s.mp with settings := s.mp.settings.set p x } }, .ok)
  | _, _ => (s, .badArgument)

def execPositionSet (pos micPad duck ringLevel recallLevel supervisor : Byte) (s : State) : Out :=
  runCommand (.positionSet pos micPad duck ringLevel recallLevel supervisor)
    (positionSet pos micPad duck ringLevel recallLevel supervisor) s

/-- Byte 2 of a speaker channel entry: bit 0 side, bit 1 state (R185). -/
def spkChan (subject : Option Subject) (flags volume : Byte) : SpkChan :=
  ⟨subject, if flags.getLsbD 0 then .right else .left, clampLevel volume, flags.getLsbD 1⟩

def setSpeaker (p : PosId) (c : SpkId) (x : SpkChan) (s : State) : State :=
  { s with mp := { s.mp with speakers := s.mp.speakers.modify p fun t => t.set c x } }

/-- Another channel of `p` already holds the subject (R72, condition 4). -/
def subjectElsewhere (p : PosId) (c : SpkId) (x : Subject) (s : State) : Bool :=
  (List.finRange 12).any fun d => d != c && ((s.speakers p).get d).subject == some x

/-- SPEAKER_SET (R72, R73). -/
def speakerSet (pos chan kind subject flags volume : Byte) (s : State) : State × Status :=
  match idArg 8 pos, idArg 12 chan, subjectArg kind subject with
  | some p, some c, some none => (setSpeaker p c (spkChan none flags volume) s, .ok)
  | some p, some c, some (some x) =>
    let lacks := match x with
      | .line l => if s.appears p l then none else some Status.notAppearing
      | .group g => if inSet (s.group g).members p then none else some Status.notMember
    match lacks with
    | some st => (s, st)
    | none =>
      if subjectElsewhere p c x s then (s, .duplicate)
      else (setSpeaker p c (spkChan (some x) flags volume) s, .ok)
  | _, _, _ => (s, .badArgument)

def execSpeakerSet (pos chan kind subject flags volume : Byte) (s : State) : Out :=
  runCommand (.speakerSet pos chan kind subject flags volume) (speakerSet pos chan kind subject flags volume) s

/-! ### Buses (R75 to R77) -/

/-- A source term: a source and the pad at which it enters its bus. -/
structure SourceTerm where
  source : SourceId
  pad : Nat
  deriving DecidableEq, Repr

/-- The source terms of a line's bus; empty where it has none (R75). -/
def lineBus (s : State) (l : LineId) : List SourceTerm :=
  let r := s.line l
  if r.state = .connected ∨ r.state = .held then
    ⟨lineSource l, r.pad⟩ :: r.owners.map fun h => ⟨h.source, (s.handset h).micPad⟩
  else []

/-- The source terms of a group's bus; empty where it has none (R76). -/
def groupBus (s : State) (g : GroupId) : List SourceTerm :=
  let r := s.group g
  r.holders.map (fun e => ⟨speakerSource e.pos, (s.settings e.pos).speakerMicPad⟩) ++
    r.hootLines.map fun l => ⟨lineSource l, (s.line l).pad⟩

/-- The source terms of a conversation's bus. -/
def busTerms (s : State) : Subject → List SourceTerm
  | .line l => lineBus s l
  | .group g => groupBus s g

/-- All conversations, lines first. -/
def subjects : List Subject := (List.finRange 96).map .line ++ (List.finRange 16).map .group

/-- The buses of the plan with their source terms. -/
def planBuses (s : State) : List (Subject × List SourceTerm) :=
  (subjects.map fun x => (x, busTerms s x)).filter fun b => !b.2.isEmpty

/-- A source that stands in a bus is referenced (R77). -/
def referenced (buses : List (Subject × List SourceTerm)) (i : SourceId) : Bool :=
  buses.any fun b => b.2.any fun t => t.source == i

/-! ### Terms (R78 to R84) -/

inductive Operand
  | bus (b : Subject)
  | tone (t : Tone)
  deriving DecidableEq, Repr

/-- A listener term: operand, exclusion, attenuation (R78). -/
structure Term where
  operand : Operand
  excl : Option SourceId
  att : Nat
  deriving DecidableEq, Repr

/-- A total attenuation, limited to 72 (R78, R92). -/
def attenuation (parts : List Nat) : Nat := min parts.sum 72

/-- Line outbound (R79). -/
def lineTerms (s : State) (l : LineId) : List Term :=
  let r := s.line l
  match r.state with
  | .connected => [⟨.bus (.line l), some (lineSource l), 0⟩]
  | .held => [⟨.tone .hold, none, attenuation [s.mp.holdLevel]⟩]
  | .bridged =>
    match r.group with
    | some g => [⟨.bus (.group g), some (lineSource l), 0⟩]
    | none => []
  | .idle | .ringing | .outOfService => []

/-- Handset earpiece (R80). -/
def handsetTerms (s : State) (h : Handset) : List Term :=
  match (s.handset h).binding with
  | some l => [⟨.bus (.line l), some h.source, attenuation [(s.handset h).volume]⟩]
  | none => []

/-- The duck value of a position (R81). -/
def duckValue (s : State) (p : PosId) : Nat :=
  if (s.handset ⟨p, .left⟩).binding.isSome ∨ (s.handset ⟨p, .right⟩).binding.isSome then (s.settings p).duck else 0

/-- The term of a speaker channel, if its conditions hold (R82). -/
def channelTerm (s : State) (p : PosId) (c : SpkChan) : Option Term :=
  let att := attenuation [c.volume, duckValue s p]
  match c.subject with
  | none => none
  | some (.group g) =>
    let r := s.group g
    if inSet r.members p = true ∧ r.hasTalkers = true then
      some ⟨.bus (.group g), if entryOf p r.holders then some (speakerSource p) else none, att⟩
    else none
  | some (.line l) =>
    let r := s.line l
    if s.appears p l = true ∧ (r.state = .connected ∨ r.state = .held) ∧ r.privacy = false ∧
        (s.handset ⟨p, .left⟩).binding ≠ some l ∧ (s.handset ⟨p, .right⟩).binding ≠ some l then
      some ⟨.bus (.line l), none, att⟩
    else none

/-- The tone term of a loudspeaker (R83). -/
def toneTerms (s : State) (p : PosId) : Side → List Term
  | .left => if 0 < (s.posRing p).ringCount then [⟨.tone .ring, none, attenuation [(s.settings p).ringLevel]⟩] else []
  | .right =>
    if 0 < (s.posRing p).recallCount then [⟨.tone .recall, none, attenuation [(s.settings p).recallLevel]⟩] else []

/-- Loudspeaker (R82, R83). -/
def speakerTerms (s : State) (p : PosId) (side : Side) : List Term :=
  ((s.speakers p).rows.filter fun c => c.on && c.side == side).filterMap (channelTerm s p) ++ toneTerms s p side

/-- Recorder channel (R84). -/
def recorderTerms (s : State) (c : ChanId) : List Term :=
  let ch := s.chan c
  match ch.state, ch.subject with
  | .active, some x => if (busTerms s x).isEmpty then [] else [⟨.bus x, none, 0⟩]
  | _, _ => []

/-- The term list of a listener, by its number (00_scope.md section 4). -/
def listenerTerms (s : State) (j : ListenerId) : List Term :=
  if h : j.val < 96 then lineTerms s ⟨j.val, h⟩
  else if h : j.val < 128 then
    let p : PosId := ⟨(j.val - 96) / 4, by omega⟩
    match (j.val - 96) % 4 with
    | 0 => handsetTerms s ⟨p, .left⟩
    | 1 => handsetTerms s ⟨p, .right⟩
    | 2 => speakerTerms s p .left
    | _ => speakerTerms s p .right
  else recorderTerms s ⟨j.val - 128, by omega⟩

/-- The plan of a frame event (R74). -/
structure Plan where
  buses : List (Subject × List SourceTerm)
  terms : Table 160 (List Term)
  deriving DecidableEq, Repr

def derivePlan (s : State) : Plan := ⟨planBuses s, .build (listenerTerms s)⟩

end Sys2Proof.Machine
end

