-- ==== Sys2Proof/Machine/Mixing.lean ====
section
/-! DEFINITION. The Mixing Engine (05_mixing_arithmetic.md): source values, tones, buses and listener outputs of a frame event. -/

namespace Sys2Proof.Machine

/-- The gain table of R91, attenuations 0 to 72. -/
def gains : List Nat :=
  [16384, 14602, 13014, 11599, 10338, 9213, 8211, 7318, 6523, 5813, 5181, 4618, 4115, 3668, 3269, 2914, 2597, 2314, 2063,
   1838, 1638, 1460, 1301, 1160, 1034, 921, 821, 732, 652, 581, 518, 462, 412, 367, 327, 291, 260, 231,
   206, 184, 164, 146, 130, 116, 103, 92, 82, 73, 65, 58, 52, 46, 41, 37, 33, 29, 26,
   23, 21, 18, 16, 15, 13, 12, 10, 9, 8, 7, 7, 6, 5, 5, 0]

/-- G(A). -/
def gain (a : Nat) : Int := (gains.getD a 0 : Nat)

/-- A sample times a gain, rounded: halves towards plus infinity (R93, R96). -/
def roundGain (x : Int) : Int := (x + 8192) / 16384

/-- The rounded value at which a source sample enters a bus (R93). -/
def enterBus (x : Sample) (pad : Nat) : Int := roundGain (x.toInt * gain pad)

/-- A sample halved, floor (R99). -/
def halve (x : Sample) : Sample := BitVec.ofInt 16 (x.toInt / 2)

/-- Saturation to 16 bits (R96). -/
def saturate (y : Int) : Int := max (-32768) (min y 32767)

/-- Step 3 of R96 clamps the value. -/
def clips (y : Int) : Bool := y < -32768 || 32767 < y

/-! ### Source values (R98, R99) -/

/-- What a source gives at a frame event: its value, its new record, and whether an underrun counts. -/
structure SourceOut where
  value : Frame
  record : LastFrame
  underrun : Bool
  deriving DecidableEq, Repr

/-- The value of a source from the frame taken, its record and whether the plan references it (R98, R99). -/
def sourceOut (taken : Option Frame) (last : LastFrame) (isRef : Bool) : SourceOut :=
  match taken with
  | some f => ⟨f, ⟨.captured, f⟩, false⟩
  | none =>
    if isRef then
      match last.kind with
      | .captured => ⟨last.frame.map halve, ⟨.concealed, last.frame⟩, true⟩
      | .concealed | .silent | .none => ⟨silence, ⟨.silent, last.frame⟩, true⟩
    else ⟨silence, ⟨.none, last.frame⟩, false⟩

/-! ### Tones (R102) -/

/-- A tone's frame at frame event `n`. -/
def toneFrame (t : ToneTable) (phase : Nat) (n : Word) : Frame :=
  if phase < t.onFrames then .build fun k => t.samples.get ⟨(16 * n.toNat + k.val) % 32, Nat.mod_lt _ (by decide)⟩
  else silence

/-- A tone's phase after its frame. -/
def nextPhase (t : ToneTable) (phase : Nat) : Nat :=
  if phase + 1 < t.onFrames + t.offFrames then phase + 1 else 0

/-! ### Buses and outputs (R93 to R97) -/

/-- The value of a bus at a sample index (R94). -/
def busValue (values : Table 120 Frame) (terms : List SourceTerm) (k : Fin 16) : Int :=
  (terms.map fun t => enterBus ((values.get t.source).get k) t.pad).sum

/-- The exclusion's value: the excluded source as it entered the bus (R95). -/
def exclValue (values : Table 120 Frame) (terms : List SourceTerm) (x : Option SourceId) (k : Fin 16) : Int :=
  match x with
  | none => 0
  | some i =>
    match terms.find? (·.source == i) with
    | some t => enterBus ((values.get i).get k) t.pad
    | none => 0

/-- The source terms a plan gives a conversation's bus. -/
def Plan.bus (p : Plan) (x : Subject) : List SourceTerm := (p.buses.lookup x).getD []

/-- A term's operand less its exclusion at a sample index (R96 step 1). -/
def termValue (p : Plan) (values : Table 120 Frame) (tones : Table 3 Frame) (t : Term) (k : Fin 16) : Int :=
  match t.operand with
  | .tone x => ((tones.get x.idx).get k).toInt
  | .bus b => busValue values (p.bus b) k - exclValue values (p.bus b) t.excl k

/-- A listener's sample before saturation (R96 steps 1 and 2). -/
def listenerSum (p : Plan) (values : Table 120 Frame) (tones : Table 3 Frame) (terms : List Term) (k : Fin 16) : Int :=
  roundGain ((terms.map fun t => termValue p values tones t k * gain t.att).sum)

/-- A listener's frame (R96). -/
def listenerFrame (sums : Table 16 Int) : Frame := sums.map fun y => BitVec.ofInt 16 (saturate y)

/-- How many samples of a listener's frame saturation clamps (R97). -/
def clipCount (sums : Table 16 Int) : Nat := (sums.rows.filter clips).length

/-! ### The frame event (R103) -/

/-- The oldest frame of each input queue is taken and counted (R118). -/
def takeQueues (s : State) : State :=
  { s with pu := { s.pu with
      queues := s.pu.queues.map List.tail
      totals := .build fun i =>
        let t := s.pu.totals.get i
        if (s.pu.queues.get i).isEmpty then t else { t with taken := t.taken + 1 } } }

/-- Places a frame at the newest end of a listener's list; the fifth oldest leaves (R120). -/
def placeFrame (n : Word) (f : Frame) (list : List StoredFrame) : List StoredFrame :=
  let list := list ++ [⟨n, f⟩]
  list.drop (list.length - Config.framePlaces)

/-- The recorder listener of a channel: 128 + c. -/
def recorderListener (c : ChanId) : ListenerId := ⟨128 + c.val, by omega⟩

/-- The Mixing Engine takes frame event `n` (R103). -/
def mixFrame (n : Word) (s : State) : State :=
  let plan := derivePlan s
  let out : Table 120 SourceOut := .build fun i =>
    sourceOut (s.pu.queues.get i).head? (s.me.last.get i) (referenced plan.buses i)
  let values := out.map (·.value)
  let tones : Table 3 Frame := .build fun t => toneFrame (s.me.tones.get t) (s.me.phase.get t) n
  let sums : Table 160 (Table 16 Int) := plan.terms.map fun ts => .build (listenerSum plan values tones ts)
  let frames := sums.map listenerFrame
  let s := takeQueues s
  { s with
    me := { s.me with
      last := out.map (·.record)
      underrun := .build fun i => if (out.get i).underrun then s.me.underrun.get i + 1 else s.me.underrun.get i
      saturation := .build fun j => s.me.saturation.get j + BitVec.ofNat 32 (clipCount (sums.get j))
      phase := .build fun t => nextPhase (s.me.tones.get t) (s.me.phase.get t) }
    pu := { s.pu with store := .build fun j => placeFrame n (frames.get j) (s.pu.store.get j) }
    ru := { s.ru with inbox := s.ru.inbox ++ [⟨n, .build fun c => frames.get (recorderListener c)⟩] } }

/-- The oldest frame event handed to the Mixing Engine is mixed; where none waits nothing is taken (R129). -/
def frameEventMix (s : State) : State :=
  match s.me.waiting with
  | [] => s
  | n :: rest => mixFrame n { s with me := { s.me with waiting := rest } }

def execFrameEventMix (s : State) : Out := inRunning frameEventMix s

end Sys2Proof.Machine
end

