-- ==== Sys2Proof/Machine/Query.lean ====
section
/-! DEFINITION. QUERY (R171, R172): the snapshots of R189, the counters a clear sets to 0, and the snapshot's writes. -/

namespace Sys2Proof.Machine

/-! ### Snapshots (R189) -/

/-- A deadline's bytes, zero where it is absent. -/
def deadlineBytes (d : Option Word) : List Byte := wordBytes (d.getD 0)

/-- A list of entries filled up with the bytes of unused places. -/
def fillPlaces (n : Nat) (unused : List Byte) (es : List (List Byte)) : List Byte :=
  ((es ++ List.replicate n unused).take n).flatten

/-- The ring bytes 36 to 43 of a LINE snapshot. -/
def ringBytes : Option RingRec → List Byte
  | none => [0, 255, 255, 255] ++ deadlineBytes none
  | some r => [1, r.phase.code, r.shown, idByte r.recallPos] ++ deadlineBytes r.delayDeadline

/-- Bit 0 and bit 1 of a byte. -/
def twoFlags (a b : Bool) : Byte := flagCode a ||| (flagCode b <<< 1)

/-- LINE (R44). -/
def lineSnapshot (s : State) (l : LineId) : List Byte :=
  let r := s.line l
  let ring := s.ring l
  padTo 64 (
    [finByte l, r.type.code, r.state.code, r.farEnd.code, r.ringInd.code, flagCode r.privacy, idByte r.heldBy,
      idByte r.preferred, r.policy.code, idByte r.recorder, BitVec.ofNat 8 r.pad, idByte r.group,
      BitVec.ofNat 8 r.owners.length, flagCode r.ctlPending] ++ leBytes 2 r.missed ++
    fillPlaces 4 [255, 255] (r.owners.map fun h => [finByte h.pos, h.side.code]) ++
    leBytes 4 r.ringDelay ++ leBytes 4 r.recallTime ++ deadlineBytes r.recallDeadline ++
    ringBytes ring ++
    [twoFlags r.recallDeadline.isSome (ring.bind RingRec.delayDeadline).isSome])

/-- A holder or queue entry. -/
def floorEntryBytes (e : FloorEntry) : List Byte :=
  [finByte e.pos, flagCode e.standing, flagCode e.deadline.isSome, 0] ++ deadlineBytes e.deadline

/-- An unused holder or queue place: position and standing absent, no deadline (log 22). -/
def unusedEntry : List Byte := [255, 255, 0, 0, 0, 0, 0, 0]

/-- GROUP (R69). -/
def groupSnapshot (s : State) (g : GroupId) : List Byte :=
  let r := s.group g
  padTo 128 (
    padTo 32 (
      [finByte g, r.members, BitVec.ofNat 8 r.hootLines.length] ++
      fillPlaces 2 [255] (r.hootLines.map fun l => [finByte l]) ++
      [BitVec.ofNat 8 r.maxTalkers, r.policy.code, idByte r.recorder] ++
      leBytes 4 r.queueTimeout ++ leBytes 4 r.talkLimit ++ leBytes 4 r.hangTime ++ deadlineBytes r.hangDeadline ++
      [BitVec.ofNat 8 r.holders.length, BitVec.ofNat 8 r.queue.length, flagCode r.hangDeadline.isSome]) ++
    fillPlaces 3 unusedEntry (r.holders.map floorEntryBytes) ++ fillPlaces 8 unusedEntry (r.queue.map floorEntryBytes))

/-- A handset's four bytes of a POSITION snapshot. -/
def handsetBytes (s : State) (h : Handset) : List Byte :=
  let r := s.handset h
  [idByte r.binding, BitVec.ofNat 8 r.volume, BitVec.ofNat 8 r.micPad, 0]

/-- A speaker channel entry (R185). -/
def spkBytes (c : SpkChan) : List Byte :=
  subjectBytes c.subject ++ [twoFlags (c.side == .right) c.on, BitVec.ofNat 8 c.volume]

/-- POSITION (R44, R88). -/
def positionSnapshot (s : State) (p : PosId) : List Byte :=
  let x := s.settings p
  let c := s.posRing p
  padTo 32 (
    padTo 12 [finByte p, BitVec.ofNat 8 x.speakerMicPad, BitVec.ofNat 8 x.duck, BitVec.ofNat 8 x.ringLevel,
      BitVec.ofNat 8 x.recallLevel, flagCode x.supervisor, BitVec.ofNat 8 c.ringCount, BitVec.ofNat 8 c.recallCount,
      flagCode c.alert] ++
    handsetBytes s ⟨p, .left⟩ ++ handsetBytes s ⟨p, .right⟩) ++
  (s.speakers p).rows.flatMap spkBytes

def bufferBytes (b : Buffer) : List Byte :=
  addrBytes b.base ++ addrBytes b.ceil ++ addrBytes b.fill ++ [b.owner.code]

/-- The record a channel reports: its open session, else its held close record (R161). -/
def Channel.held (c : Channel) : Byte × Option Session :=
  match c.session, c.closeRecord with
  | some x, _ => (1, some x)
  | none, some x => (2, some x)
  | none, none => (0, none)

/-- The session block of a RECORDER snapshot (R189). -/
def sessionBytes : Option Session → List Byte
  | some x => x.block
  | none => noSessionBlock

/-- RECORDER (R161). -/
def recorderSnapshot (s : State) (c : ChanId) : List Byte :=
  let ch := s.chan c
  let r := s.ru
  padTo 192 (
    padTo 128 (
      padTo 16 ([finByte c, ch.state.code] ++ subjectBytes ch.subject ++
        [ch.current.code, flagCode ch.overflowing, flagCode ch.segPending, flagCode ch.closeDone] ++
        leBytes 4 ch.outstanding ++ [ch.held.1]) ++
      bufferBytes ch.bufA ++ bufferBytes ch.bufB ++
      wordBytes r.produced ++ wordBytes r.consumed ++ wordBytes r.nextSession ++ wordBytes r.logFaults ++
      leBytes 4 r.segLen) ++
    sessionBytes ch.held.2)

/-- A source's 28 bytes of a COUNTERS snapshot (R119, R106). -/
def sourceBytes (s : State) (i : SourceId) : List Byte :=
  let t := s.pu.totals.get i
  leBytes 4 (s.pu.queues.get i).length ++ wordBytes (t.captured - t.baseCaptured) ++ wordBytes (t.taken - t.baseTaken) ++
    wordBytes (t.overrun - t.baseOverrun) ++ wordBytes (t.flushed - t.baseFlushed) ++ wordBytes t.torn ++
    wordBytes (s.me.underrun.get i)

/-- A listener's 8 bytes of a COUNTERS snapshot (R121, R97). -/
def listenerBytes (s : State) (j : ListenerId) : List Byte :=
  wordBytes (s.pu.unheld.get j) ++ wordBytes (s.me.saturation.get j)

/-- The first fault, in bytes 56 to 63; zero while none is recorded. -/
def firstFaultBytes : Option FaultInfo → List Byte
  | none => List.replicate 8 0
  | some f => [f.code.code, f.kind.code, 0] ++ addrBytes f.addr

/-- COUNTERS (R172). -/
def countersSnapshot (s : State) : List Byte :=
  let t := s.ft
  let c := s.cu
  padTo 16 (wordBytes t.counter ++ floorBytes t.floor ++ [t.timeSet.code, t.watch.code, BitVec.ofNat 8 t.good,
    BitVec.ofNat 8 t.mismatches, c.execution.code]) ++
  wordBytes t.syncMismatch ++ wordBytes t.clockLosses ++ wordBytes c.posted ++ wordBytes c.taken ++
  wordBytes c.evProduced ++ wordBytes c.evConsumed ++ leBytes 4 c.backlog.length ++ wordBytes c.lost ++
  wordBytes c.evFaults ++ wordBytes c.fault.count ++ firstFaultBytes c.fault.first ++
  (List.finRange 120).flatMap (sourceBytes s) ++ (List.finRange 160).flatMap (listenerBytes s)

/-! ### Clears -/

/-- The bases of a source's totals become the totals, and torn 0 (R119). -/
def Totals.cleared (t : Totals) : Totals :=
  { t with baseCaptured := t.captured, baseTaken := t.taken, baseOverrun := t.overrun, baseFlushed := t.flushed, torn := 0 }

/-- The clear of COUNTERS (R97, R106, R119, R121, R142, R172). -/
def clearCounters (s : State) : State :=
  { s with
    pu := { s.pu with totals := s.pu.totals.map Totals.cleared, unheld := .replicate 160 0 }
    me := { s.me with underrun := .replicate 120 0, saturation := .replicate 160 0 }
    ft := { s.ft with syncMismatch := 0, clockLosses := 0 }
    cu := { s.cu with evFaults := 0 } }

/-! ### The command (R171) -/

/-- What a QUERY asks for. -/
inductive QueryItem
  | line (l : LineId)
  | group (g : GroupId)
  | position (p : PosId)
  | recorder (c : ChanId)
  | counters
  deriving DecidableEq, Repr

/-- The item that kind and index bytes name; COUNTERS does not read its index (R171). -/
def queryItem (kind index : Byte) : Option QueryItem :=
  match kind.toNat with
  | 0 => (idArg 96 index).map .line
  | 1 => (idArg 16 index).map .group
  | 2 => (idArg 8 index).map .position
  | 3 => (idArg 32 index).map .recorder
  | 4 => some .counters
  | _ => none

def snapshotOf (s : State) : QueryItem → List Byte
  | .line l => lineSnapshot s l
  | .group g => groupSnapshot s g
  | .position p => positionSnapshot s p
  | .recorder c => recorderSnapshot s c
  | .counters => countersSnapshot s

/-- The counters that a snapshot with clear = yes sets to 0; GROUP and POSITION report none (R44, R69, R88, R161, R172). -/
def clearAfter (s : State) : QueryItem → State
  | .line l => s.modLine l fun r => { r with missed := 0 }
  | .group _ | .position _ => s
  | .recorder _ => { s with ru := { s.ru with logFaults := 0 } }
  | .counters => clearCounters s

/-- The bursts of a snapshot: 64 bytes each, the last shorter (R189, log 16). -/
def burstsOf (bs : List Byte) : List (List Byte) :=
  (List.range ((bs.length + 63) / Config.burstBytes)).map fun k => (bs.drop (Config.burstBytes * k)).take Config.burstBytes

/-- Asks for the snapshot's writes at the target, in address order. A snapshot that runs past the end of the address space goes
on at address 0: the model's choice (log 40). -/
def writeSnapshot (target : Addr) (bs : List Byte) (s : State) : State :=
  (burstsOf bs).zipIdx.foldl (fun s b => requestOwn .snapshot (target + BitVec.ofNat 36 (Config.burstBytes * b.2)) b.1 s) s

/-- What the arguments of a QUERY ask for, if its checks pass. -/
def queryArgs (kind index clear : Byte) (target : Addr) : Option (QueryItem × Bool) :=
  match queryItem kind index, flagArg clear with
  | some item, some c => if target.toNat % 64 = 0 then some (item, c) else none
  | _, _ => none

/-- The snapshot is taken and its writes asked for; the QUERY stays in hand until they have returned. -/
def takeSnapshot (item : QueryItem) (clear : Bool) (target : Addr) (s : State) : State :=
  let bs := snapshotOf s item
  let s := if clear then clearAfter s item else s
  writeSnapshot target bs { s with cu := { s.cu with snapError := false } }

def Purpose.isSnapshot : Purpose → Bool
  | .snapshot => true
  | _ => false

/-- Snapshot writes whose responses have not returned. -/
def State.snapshotOut (s : State) : Bool := (s.pu.own ++ s.pu.flight).any (·.purpose.isSnapshot)

/-- QUERY (R171). A QUERY whose snapshot is being written has been taken already. -/
def execQuery (kind index clear : Byte) (target : Addr) (s : State) : Out :=
  if s.holds (.query kind index clear target) && !s.snapshotOut then
    match queryArgs kind index clear target with
    | none => .next (complete .badArgument s)
    | some (item, c) => .next (takeSnapshot item c target s)
  else .next s

/-- The response to a snapshot write: the QUERY completes with the last (R171). -/
def snapshotReturned (a : OwnAccess) (error : Bool) (s : State) : State :=
  let s := faultIf error a s
  let s := { s with cu := { s.cu with snapError := s.cu.snapError || error } }
  if s.snapshotOut then s
  else complete (if s.cu.snapError then .memoryError else .ok) s

/-- Response to the `k`th snapshot write in flight (R171, R126). -/
def snapshotWriteResponse (k : Nat) (error : Bool) (s : State) : State :=
  match takeFlight Purpose.isSnapshot k s with
  | none => s
  | some (a, s') => snapshotReturned a error s'

def execSnapshotWriteResponse (k : Nat) (error : Bool) (s : State) : Out := inRunning (snapshotWriteResponse k error) s

end Sys2Proof.Machine
end

