-- ==== Sys2Proof/Machine/Resets.lean ====
section
/-! DEFINITION. Power-on and the RESETn pin (R181). -/

namespace Sys2Proof.Machine

/-- POWER_ON: every block and the Fault Record at their power-on values, the straps sampled (R176, R181). -/
def execPowerOn (straps : BitVec 2) (s : State) : Out :=
  .next (State.afterReset .reset straps s.draws s.pending)

/-- RESETN: as POWER_ON, but the Fault Record is kept (R170, R181). -/
def execResetN (straps : BitVec 2) (s : State) : Out :=
  .next (State.afterReset s.cu.fault straps s.draws s.pending)

end Sys2Proof.Machine
end

