-- ==== Sys2Proof/Machine/Dispatch.lean ====
section
/-! DEFINITION. The meaning of every command: one call per row of spec/opcode_table.json. -/

namespace Sys2Proof.Machine

def exec (i : Instr) (s : State) : Host.Outcome State Fault Refusal :=
  match i with
  | .lineSet line type pad preferred ringDelay policy recallTime => Sys2Proof.Machine.execLineSet line type pad preferred ringDelay policy recallTime s
  | .lineService line dir => Sys2Proof.Machine.execLineService line dir s
  | .appearSet pos key line => Sys2Proof.Machine.execAppearSet pos key line s
  | .seize pos side line => Sys2Proof.Machine.execSeize pos side line s
  | .release pos side => Sys2Proof.Machine.execRelease pos side s
  | .hold pos side => Sys2Proof.Machine.execHold pos side s
  | .privacy pos side value => Sys2Proof.Machine.execPrivacy pos side value s
  | .forceClear line => Sys2Proof.Machine.execForceClear line s
  | .handsetSet pos side volume micPad => Sys2Proof.Machine.execHandsetSet pos side volume micPad s
  | .positionSet pos micPad duck ringLevel recallLevel supervisor => Sys2Proof.Machine.execPositionSet pos micPad duck ringLevel recallLevel supervisor s
  | .speakerSet pos chan kind subject flags volume => Sys2Proof.Machine.execSpeakerSet pos chan kind subject flags volume s
  | .groupSet group cfg => Sys2Proof.Machine.execGroupSet group cfg s
  | .talk pos group => Sys2Proof.Machine.execTalk pos group s
  | .talkEnd pos group => Sys2Proof.Machine.execTalkEnd pos group s
  | .recorderSet chan baseA ceilA baseB ceilB => Sys2Proof.Machine.execRecorderSet chan baseA ceilA baseB ceilB s
  | .recordReturn chan buffer => Sys2Proof.Machine.execRecordReturn chan buffer s
  | .query kind index clear target => Sys2Proof.Machine.execQuery kind index clear target s
  | .restart => Sys2Proof.Machine.execRestart s
  | .commandPost v => Sys2Proof.Machine.execCommandPost v s
  | .commandFetch => Sys2Proof.Machine.execCommandFetch s
  | .commandFetchResponse error slot => Sys2Proof.Machine.execCommandFetchResponse error slot s
  | .eventConsumed v => Sys2Proof.Machine.execEventConsumed v s
  | .eventWriteResponse k error => Sys2Proof.Machine.execEventWriteResponse k error s
  | .logConsumed v => Sys2Proof.Machine.execLogConsumed v s
  | .signalWord line w => Sys2Proof.Machine.execSignalWord line w s
  | .holdRecallExpiry line => Sys2Proof.Machine.execHoldRecallExpiry line s
  | .ringDelayExpiry line => Sys2Proof.Machine.execRingDelayExpiry line s
  | .queueTimeoutExpiry group => Sys2Proof.Machine.execQueueTimeoutExpiry group s
  | .talkLimitExpiry group => Sys2Proof.Machine.execTalkLimitExpiry group s
  | .hangExpiry group => Sys2Proof.Machine.execHangExpiry group s
  | .frameInPulse at_ => Sys2Proof.Machine.execFrameInPulse at_ s
  | .pulseWatchExpiry => Sys2Proof.Machine.execPulseWatchExpiry s
  | .freewheelTimerExpiry => Sys2Proof.Machine.execFreewheelTimerExpiry s
  | .frameEventMix => Sys2Proof.Machine.execFrameEventMix s
  | .recorderFrames => Sys2Proof.Machine.execRecorderFrames s
  | .sessionSegment chan => Sys2Proof.Machine.execSessionSegment chan s
  | .frameWriteResponse k error => Sys2Proof.Machine.execFrameWriteResponse k error s
  | .logWriteResponse k error => Sys2Proof.Machine.execLogWriteResponse k error s
  | .controlWordWriteResponse k error => Sys2Proof.Machine.execControlWordWriteResponse k error s
  | .snapshotWriteResponse k error => Sys2Proof.Machine.execSnapshotWriteResponse k error s
  | .statusWordWriteResponse k error => Sys2Proof.Machine.execStatusWordWriteResponse k error s
  | .configReadResponse error data => Sys2Proof.Machine.execConfigReadResponse error data s
  | .anchorWrite v => Sys2Proof.Machine.execAnchorWrite v s
  | .timeSyncWord w => Sys2Proof.Machine.execTimeSyncWord w s
  | .upstreamWrite t => Sys2Proof.Machine.execUpstreamWrite t s
  | .upstreamRead b => Sys2Proof.Machine.execUpstreamRead b s
  | .outboundRead b => Sys2Proof.Machine.execOutboundRead b s
  | .passThroughResponse k resp data => Sys2Proof.Machine.execPassThroughResponse k resp data s
  | .downstreamGrant => Sys2Proof.Machine.execDownstreamGrant s
  | .powerOn straps => Sys2Proof.Machine.execPowerOn straps s
  | .resetN straps => Sys2Proof.Machine.execResetN straps s
  | .indexWordWriteResponse k error => Sys2Proof.Machine.execIndexWordWriteResponse k error s

end Sys2Proof.Machine
end

