-- ==== Sys2Proof/WellFormed.lean ====
section
/-! DEFINITION. Which commands are well formed: a transaction is an AXI4 burst, an image read returns 1 to 2,048 bytes.
Index errors of host commands are not ill-formed: the commands answer them with a status. -/

namespace Sys2Proof

/-- The command could be presented to the part. -/
def Instr.wellFormed : Instr → Bool
  | .upstreamWrite t => Machine.writeOk t
  | .upstreamRead b => Machine.burstOk b
  | .outboundRead b => Machine.burstOk b
  | .configReadResponse error data => error || (1 ≤ data.length && data.length ≤ 2048)
  | .passThroughResponse _ _ data => data.length ≤ 256
  | .lineSet .. | .lineService .. | .appearSet .. | .seize .. | .release .. | .hold .. | .privacy ..
  | .forceClear .. | .handsetSet .. | .positionSet .. | .speakerSet .. | .groupSet .. | .talk ..
  | .talkEnd .. | .recorderSet .. | .recordReturn .. | .query .. | .restart | .commandPost ..
  | .commandFetch | .commandFetchResponse .. | .eventConsumed .. | .eventWriteResponse ..
  | .logConsumed .. | .signalWord .. | .holdRecallExpiry .. | .ringDelayExpiry ..
  | .queueTimeoutExpiry .. | .talkLimitExpiry .. | .hangExpiry .. | .frameInPulse ..
  | .pulseWatchExpiry | .freewheelTimerExpiry | .frameEventMix | .recorderFrames
  | .sessionSegment .. | .frameWriteResponse .. | .logWriteResponse .. | .controlWordWriteResponse ..
  | .snapshotWriteResponse .. | .statusWordWriteResponse .. | .anchorWrite .. | .timeSyncWord ..
  | .downstreamGrant | .powerOn .. | .resetN .. | .indexWordWriteResponse .. => true

end Sys2Proof
end

