-- ==== Sys2Proof/Safety.lean ====
section
/-! DEFINITION. What counts as a safe run, the laws the spec gives the part's state, and the words in which claims say what a
command does. -/

namespace Sys2Proof.Machine

/-! ### Safe runs -/

/-- Every command waiting is well formed. -/
def State.queueOk (s : State) : Prop := ∀ c ∈ s.pending, c.wellFormed = true

/-- A step from the state ends in a next state. -/
def State.goesOn (s : State) : Prop := ∃ t, step s = .next t

/-! ### Laws of the state -/

/-- The event ring and backlog (R167): neither holds more than its size, events wait only while the ring is full, two places
stand free for the command in hand, and outside RUNNING there are no events. -/
structure EventLaw (s : State) : Prop where
  fill : (s.cu.evProduced - s.cu.evConsumed).toNat ≤ s.cu.evSize
  places : s.cu.backlog.length ≤ Config.backlogPlaces
  full : s.cu.backlog ≠ [] → s.cu.room = false
  reserve : s.cu.execution ≠ .idle → s.cu.backlog.length + 2 ≤ Config.backlogPlaces
  outside : s.running = false → s.cu.backlog = [] ∧ s.cu.evProduced = s.cu.evConsumed ∧ s.cu.execution = .idle

/-- The totals of every source balance and its queue holds at most 4 frames (R117, R119), and no list of the Output Store holds
more (R120); outside RUNNING the queues are empty and no inbound region is present. -/
structure AudioLaw (s : State) : Prop where
  balance : ∀ i : SourceId, (s.pu.totals.get i).captured =
    (s.pu.totals.get i).taken + (s.pu.totals.get i).overrun + (s.pu.totals.get i).flushed +
      BitVec.ofNat 32 (s.pu.queues.get i).length
  depth : ∀ i : SourceId, (s.pu.queues.get i).length ≤ Config.framePlaces
  store : ∀ j : ListenerId, (s.pu.store.get j).length ≤ Config.framePlaces
  outside : s.running = false → s.pu.regions.inbound = none ∧ ∀ i : SourceId, s.pu.queues.get i = []

/-- A handset is bound to a line exactly when it stands in its owner list; the fields of a line record that belong to one state
are present in it alone (R1, R9); a ring record exists exactly while the line rings (R29); outside RUNNING every line is IDLE or
OUT_OF_SERVICE. -/
structure LineLaw (s : State) : Prop where
  bound : ∀ (h : Handset) (l : LineId), (s.handset h).binding = some l ↔ h ∈ (s.line l).owners
  once : ∀ l : LineId, (s.line l).owners.Nodup
  owned : ∀ l : LineId, (s.line l).owners ≠ [] ↔ (s.line l).state = .connected
  places : ∀ l : LineId, (s.line l).owners.length ≤ Config.ownerPlaces
  held : ∀ l : LineId, (s.line l).heldBy.isSome = true ↔ (s.line l).state = .held
  timed : ∀ l : LineId, (s.line l).recallDeadline.isSome = true → (s.line l).state = .held
  bridged : ∀ l : LineId, (s.line l).group.isSome = true ↔ (s.line l).state = .bridged
  rings : ∀ l : LineId, (s.ring l).isSome = true ↔ (s.line l).state = .ringing
  missed : ∀ l : LineId, (s.line l).missed ≤ Config.missedMax
  outside : s.running = false → ∀ l : LineId, (s.line l).state = .idle ∨ (s.line l).state = .outOfService

/-- A position stands in a group's holders or queue. -/
def State.onFloor (s : State) (g : GroupId) (p : PosId) : Prop :=
  entryOf p (s.group g).holders = true ∨ entryOf p (s.group g).queue = true

/-- The laws of the talk floor (R46); outside RUNNING every floor is empty. -/
structure FloorLaw (s : State) : Prop where
  least : ∀ g : GroupId, 1 ≤ (s.group g).maxTalkers
  most : ∀ g : GroupId, (s.group g).maxTalkers ≤ 3
  holders : ∀ g : GroupId, (s.group g).holders.length ≤ (s.group g).maxTalkers
  queue : ∀ g : GroupId, (s.group g).queue.length ≤ Config.talkQueuePlaces
  members : ∀ (g : GroupId) (p : PosId), s.onFloor g p → inSet (s.group g).members p = true
  once : ∀ g : GroupId, (((s.group g).holders ++ (s.group g).queue).map (·.pos)).Nodup
  apart : ∀ (g h : GroupId) (p : PosId), s.onFloor g p → s.onFloor h p → g = h
  outside : s.running = false → ∀ g : GroupId, (s.group g).holders = [] ∧ (s.group g).queue = []

/-- What a recorder channel holds in each state (R143). -/
structure ChannelLaw (c : Channel) : Prop where
  session : c.session.isSome = true ↔ c.state = .active
  closeRecord : c.closeRecord.isSome = true ↔ c.state = .draining
  subject : c.subject.isSome = true ↔ c.state ≠ .free
  pendingSegment : c.segPending = true → c.state = .active

/-- The law of every recorder channel (R143). -/
def RecorderLaw (s : State) : Prop := ∀ c : ChanId, ChannelLaw (s.chan c)

/-- The rings presented to a position. -/
def shownAt (s : State) (p : PosId) (which : RingRec → Bool) : List LineId :=
  (List.finRange 96).filter fun l => (s.ring l).any fun r => inSet r.shown p && which r

/-- The counts of a position are those of the rings presented to it, and its alert indicator is on exactly while one is (R30). -/
structure AlertLaw (s : State) : Prop where
  rings : ∀ p : PosId, (s.posRing p).ringCount = (shownAt s p fun _ => true).length
  recalls : ∀ p : PosId, (s.posRing p).recallCount = (shownAt s p fun r => r.phase == .recall).length
  alert : ∀ p : PosId, (s.posRing p).alert = true ↔ 0 < (s.posRing p).ringCount

/-- The hoot lines of all groups. -/
def hootLinesOf (s : State) : List LineId := (List.finRange 16).flatMap fun g => (s.group g).hootLines

/-- A hoot line is listed by one group at most and is of type HOOT; in RUNNING it is BRIDGED in the group that lists it, and no
other line is bridged; a line of type HOOT carries no call (R27, R45, R47). Outside RUNNING a listed line is IDLE, and none is
listed until the GROUPS section, the fifth, has been read. -/
structure HootLaw (s : State) : Prop where
  once : (hootLinesOf s).Nodup
  type : ∀ (g : GroupId) (l : LineId), l ∈ (s.group g).hootLines → (s.line l).type = .hoot
  listed : s.running = true → ∀ (g : GroupId) (l : LineId), l ∈ (s.group g).hootLines → (s.line l).group = some g
  bridged : ∀ (g : GroupId) (l : LineId), (s.line l).group = some g → l ∈ (s.group g).hootLines
  calls : ∀ l : LineId, (s.line l).type = .hoot →
    (s.line l).state = .outOfService ∨ (s.line l).state = .idle ∨ (s.line l).state = .bridged
  outside : s.running = false → ∀ (g : GroupId) (l : LineId), l ∈ (s.group g).hootLines → (s.line l).state = .idle
  unread : s.running = false → s.ld.expected ≤ 5 → hootLinesOf s = []

/-! ### What a command does -/

/-- The Command and Event Unit after events have been posted in order. -/
def CmdUnit.afterEvents (c : CmdUnit) (es : List Event) : CmdUnit :=
  es.foldl (fun c e => (c.takeEvent c.reserve e).unit) c

/-- The Command and Event Unit after the command in hand has completed (R165, R166). -/
def CmdUnit.afterDone (c : CmdUnit) (st : Status) : CmdUnit :=
  { (c.takeEvent 0 (.commandDone c.curTag c.curKind st)).unit with taken := c.taken + 1, execution := .idle, inHand := none }

/-- The slot writes that the arrival of events, in order, asks for (R167, R168). -/
def CmdUnit.slotWrites (c : CmdUnit) : List Event → List OwnAccess
  | [] => []
  | e :: es => (c.takeEvent c.reserve e).slots ++ (c.takeEvent c.reserve e).unit.slotWrites es

/-- What the completion of the command in hand asks for, `c` being the unit then: the slot writes of its COMMAND_DONE, and the
write of the command taken word (R165, R167). -/
def completionWrites (s : State) (c : CmdUnit) (st : Status) : List OwnAccess :=
  (c.takeEvent 0 (.commandDone c.curTag c.curKind st)).slots ++
    [⟨.commandTaken (c.taken + 1), controlAddr s 4, wordBytes (c.taken + 1), 0⟩]

/-- The write of a line's control word, as it is asked for: it takes its data when it is granted (R8). -/
def controlWrite (s : State) (l : LineId) : OwnAccess :=
  ⟨.lineControl l, s.pu.regions.signal.getD 0 + BitVec.ofNat 36 (1024 + 4 * l.val), [], 0⟩

/-- Of the path unit only own accesses were asked for: the accesses `writes` in their order, and the line control word of every
line that was marked in between, once (R8), and no other. No mark was taken back. -/
structure Asks (writes : List OwnAccess) (s t : State) : Prop where
  own : ∃ (more : List OwnAccess) (marked : List LineId), t.pu = { s.pu with own := s.pu.own ++ more } ∧
    more.filter (fun a => a.purpose.kind != .lineControl) = writes ∧
    more.filter (fun a => a.purpose.kind == .lineControl) = marked.map (controlWrite s) ∧
    marked.Nodup ∧ ∀ l, l ∈ marked ↔ (s.line l).ctlPending = false ∧ (t.line l).ctlPending = true
  kept : ∀ l, (s.line l).ctlPending = true → (t.line l).ctlPending = true

/-- The events `es` were posted, in order, and nothing else befell the Command and Event Unit; of the path unit only their slot
writes and the control words of newly marked lines were asked for. -/
structure Posts (es : List Event) (s t : State) : Prop where
  unit : t.cu = s.cu.afterEvents es
  asks : Asks (s.cu.slotWrites es) s t

/-- The events `es` were posted, in order, and then the command in hand completed with the status; of the path unit only their
slot writes, those of the completion and the control words of newly marked lines were asked for. -/
structure Answers (es : List Event) (st : Status) (s t : State) : Prop where
  unit : t.cu = (s.cu.afterEvents es).afterDone st
  asks : Asks (s.cu.slotWrites es ++ completionWrites s (s.cu.afterEvents es) st) s t

/-- The command was answered with a status and has no other effect. -/
def OnlyAnswers (c : Instr) (st : Status) (s : State) : Prop :=
  ∃ t, exec c s = .next t ∧ Answers [] st s t ∧ t = { s with cu := t.cu, pu := t.pu }

/-- The lowest-numbered FREE recorder channel (R147). -/
def LowestFree (s : State) (c : ChanId) : Prop :=
  (s.chan c).state = .free ∧ ∀ d : ChanId, d < c → (s.chan d).state ≠ .free

/-- No recorder channel is FREE. -/
def NoneFree (s : State) : Prop := ∀ c : ChanId, (s.chan c).state ≠ .free

/-- A position's counts after the presentation set of one ring has changed (R30). -/
def movedCounts (isRecall : Bool) (old new : PosSet) (p : PosId) (c : PosRing) : PosRing :=
  if inSet old p = inSet new p then c
  else if inSet new p = true then
    ⟨c.ringCount + 1, if isRecall then c.recallCount + 1 else c.recallCount, true⟩
  else ⟨c.ringCount - 1, if isRecall then c.recallCount - 1 else c.recallCount, decide (1 < c.ringCount)⟩

/-- The POSITION_ALERT events of such a change, positions in number order (R30). -/
def alertChanges (s : State) (old new : PosSet) : List Event :=
  (List.finRange 8).filterMap fun p =>
    if inSet old p = inSet new p then none
    else if inSet new p = true then if (s.posRing p).ringCount = 0 then some (.positionAlert p true) else none
    else if (s.posRing p).ringCount = 1 then some (.positionAlert p false) else none

/-- One line's ring record becomes `ring`, its presentation set going from `old` to `new`: the counts follow, `es` and the
alerts are posted, and the Ring Presenter holds every other line's ring as before. -/
structure RingMoves (l : LineId) (isRecall : Bool) (old new : PosSet) (ring : Option RingRec) (es : List Event)
    (s t : State) : Prop where
  ring : t.ring l = ring
  others : ∀ m : LineId, m ≠ l → t.ring m = s.ring m
  counts : ∀ p : PosId, t.posRing p = movedCounts isRecall old new p (s.posRing p)
  events : Posts (es ++ alertChanges s old new) s t

/-- Nothing but the record of line `l` has changed in the Line Table. -/
def OnlyLine (l : LineId) (s t : State) : Prop := ∀ m : LineId, m ≠ l → t.line m = s.line m

/-- Nothing but the record of group `g` has changed in the Talk Floor Controller. -/
def OnlyGroup (g : GroupId) (s t : State) : Prop := ∀ h : GroupId, h ≠ g → t.group h = s.group h

/-- Nothing but the record of channel `c` has changed among the recorder channels. -/
def OnlyChan (c : ChanId) (s t : State) : Prop := ∀ d : ChanId, d ≠ c → t.chan d = s.chan d

/-- A deadline so many frames ahead, absent for 0 frames. -/
def ahead (s : State) (frames : Nat) : Option Word :=
  if frames = 0 then none else some (s.now + BitVec.ofNat 32 frames)

/-- A handset may seize the line as far as conditions 2 to 5 of R11 go. -/
def MaySeize (h : Handset) (l : LineId) (s : State) : Prop :=
  s.appears h.pos l = true ∧ (s.handset h).binding = none ∧ (s.line l).state ≠ .outOfService ∧
    (s.line l).state ≠ .bridged ∧ (s.line l).type ≠ .hoot

/-- The recorder check of a line lets a seize go ahead (R16): the Recorder Unit and the line's recorder after it, and the
status. -/
def LineChecked (l : LineId) (p : PosId) (s : State) (ru : RecUnit) (rec_ : Option ChanId) (st : Status) : Prop :=
  ((s.line l).policy = .none ∧ ru = s.ru ∧ rec_ = (s.line l).recorder ∧ st = .ok) ∨
  ((s.line l).policy ≠ .none ∧ st = .ok ∧
    ∃ (c : ChanId) (u : State), LowestFree s c ∧ allocate (.line l) [p] s = some (c, u) ∧ ru = u.ru ∧ rec_ = some c) ∨
  ((s.line l).policy = .optional ∧ NoneFree s ∧ ru = s.ru ∧ rec_ = (s.line l).recorder ∧ st = .okUnrecorded)

/-- The Recorder Unit once it has been told of a position that comes onto a line or is granted a place (R148). -/
def PartyTold (rec_ : Option ChanId) (p : PosId) (s : State) (ru : RecUnit) : Prop :=
  match rec_ with
  | none => ru = s.ru
  | some c => ru = (partyArrival c p s).ru

/-- The memory fault of an own access has been recorded: the first fault stays, the count rises, FAULTn is asserted (R126, R170). -/
def faultAfter (a : OwnAccess) (f : FaultRecord) : FaultRecord :=
  ⟨some (f.first.getD ⟨.memoryError, a.purpose.kind, a.addr⟩), satSucc f.count, true, .memoryError⟩

/-- From `u` to `v` the memory fault of the own access `a` has been recorded and its FAULT event posted (R126), and nothing else
has happened. -/
structure ToldFault (a : OwnAccess) (kind : AccessKind) (u v : State) : Prop where
  fault : v.cu.fault = faultAfter a u.cu.fault
  told : Posts [.fault .memoryError kind a.addr (satSucc u.cu.fault.count)]
    { u with cu := { u.cu with fault := faultAfter a u.cu.fault } } v
  rest : v = { u with cu := v.cu, pu := v.pu }

/-- Byte `n`, counted from the lowest, of the shadow of a watched word (R110, R111). -/
def Shadows.byteOf (h : Shadows) (w : Watched) (n : Nat) : Byte :=
  match w with
  | .signal l => (h.signal.get l).extractLsb' (8 * n) 8
  | .timeSync => h.timeSync.extractLsb' (8 * n) 8
  | .post => h.post.extractLsb' (8 * n) 8
  | .evConsumed => h.evConsumed.extractLsb' (8 * n) 8
  | .logConsumed => h.logConsumed.extractLsb' (8 * n) 8
  | .anchor => h.anchor.extractLsb' (8 * n) 8

/-- The `k`th access in flight of the purposes that `which` picks is `a`, and `u` is the state without it in flight. -/
structure Returns (which : Purpose → Bool) (k : Nat) (a : OwnAccess) (s u : State) : Prop where
  found : (s.flying which)[k]? = some a
  picked : which a.purpose = true
  removed : u = { s with pu := { s.pu with flight := u.pu.flight } }
  others : ∃ before after : List OwnAccess, s.pu.flight = before ++ a :: after ∧ u.pu.flight = before ++ after ∧
    (before.filter fun x => which x.purpose).length = k

/-- Command `c` ends the load of `s` in CONFIG_FAULT with a code found at a cursor offset: the fault is recorded and the status
word says so (R178). `u` is the state without the image read in flight. -/
structure LoadEnds (c : Instr) (code : FaultCode) (offset : Nat) (s u t : State) : Prop where
  answer : exec c s = .next t
  state : t.ld.op = .configFault
  fault : t.cu = { u.cu with fault := ⟨some (s.cu.fault.first.getD
    ⟨code, .config, s.ld.image + BitVec.ofNat 36 offset⟩), satSucc s.cu.fault.count, true, code⟩ }
  status : t.pu = { u.pu with own := u.pu.own ++ [⟨.statusWord .configFault, anchorAddr s.ld.sel + 4,
    [3, code.code, 0, 0] ++ leBytes 4 offset, 0⟩] }
  rest : t = { u with ld := { s.ld with op := .configFault, buf := t.ld.buf }, cu := t.cu, pu := t.pu }

/-- The arguments of a host command are out of range or malformed, whatever the state (R11, R18, R19, R21 to R26, R48, R53,
R58, R72, R146, R152, R171). -/
def BadArgs : Instr → Prop
  | .lineSet line type _ preferred _ policy _ =>
    96 ≤ line.toNat ∨ 3 ≤ type.toNat ∨ (8 ≤ preferred.toNat ∧ preferred.toNat ≠ 255) ∨ 3 ≤ policy.toNat
  | .lineService line dir => 96 ≤ line.toNat ∨ 2 ≤ dir.toNat
  | .appearSet pos key line => 8 ≤ pos.toNat ∨ 48 ≤ key.toNat ∨ (96 ≤ line.toNat ∧ line.toNat ≠ 255)
  | .seize pos side line => 8 ≤ pos.toNat ∨ 2 ≤ side.toNat ∨ 96 ≤ line.toNat
  | .release pos side | .hold pos side | .handsetSet pos side _ _ => 8 ≤ pos.toNat ∨ 2 ≤ side.toNat
  | .privacy pos side value => 8 ≤ pos.toNat ∨ 2 ≤ side.toNat ∨ 2 ≤ value.toNat
  | .forceClear line => 96 ≤ line.toNat
  | .positionSet pos _ _ _ _ supervisor => 8 ≤ pos.toNat ∨ 2 ≤ supervisor.toNat
  | .speakerSet pos chan kind subject _ _ =>
    8 ≤ pos.toNat ∨ 12 ≤ chan.toNat ∨ 3 ≤ kind.toNat ∨ (kind.toNat = 1 ∧ 96 ≤ subject.toNat) ∨
      (kind.toNat = 2 ∧ 16 ≤ subject.toNat)
  | .groupSet group c =>
    16 ≤ group.toNat ∨ 3 ≤ c.hootCount.toNat ∨ (1 ≤ c.hootCount.toNat ∧ 96 ≤ c.hoot0.toNat) ∨
      (c.hootCount.toNat = 2 ∧ (96 ≤ c.hoot1.toNat ∨ c.hoot0 = c.hoot1)) ∨ 3 ≤ c.policy.toNat
  | .talk pos group | .talkEnd pos group => 8 ≤ pos.toNat ∨ 16 ≤ group.toNat
  | .recorderSet chan baseA ceilA baseB ceilB =>
    32 ≤ chan.toNat ∨ baseA.toNat % 32 ≠ 0 ∨ ceilA.toNat % 32 ≠ 0 ∨ ceilA.toNat ≤ baseA.toNat ∨
      baseB.toNat % 32 ≠ 0 ∨ ceilB.toNat % 32 ≠ 0 ∨ ceilB.toNat ≤ baseB.toNat
  | .recordReturn chan buffer => 32 ≤ chan.toNat ∨ 2 ≤ buffer.toNat
  | .query kind index clear target =>
    5 ≤ kind.toNat ∨ (kind.toNat = 0 ∧ 96 ≤ index.toNat) ∨ (kind.toNat = 1 ∧ 16 ≤ index.toNat) ∨
      (kind.toNat = 2 ∧ 8 ≤ index.toNat) ∨ (kind.toNat = 3 ∧ 32 ≤ index.toNat) ∨ 2 ≤ clear.toNat ∨
      target.toNat % 64 ≠ 0
  | _ => False

end Sys2Proof.Machine
end

