-- ==== Sys2Proof/Certificates/Slice0/Obligations.lean ====
section
/-! DEFINITION. The statements for the provers: what the commands do, what they leave alone, and the laws every step keeps. -/

section
open Sys2Proof Sys2Proof.Machine

/-! ### The step and the laws -/

/-- A step takes the command at the front of the queue and carries it out on the state with the queue's rest. -/
def Obligations.StepTakesFrontCommand : Prop :=
  ∀ (c : Instr) (rest : List Instr) (s : State), s.pending = c :: rest → step s = exec c { s with pending := rest }

/-- Every command is carried out: a well-formed one always, any other but for the fault of a malformed burst (log 13), and
none touches the queue. -/
def Obligations.EveryCommandGoesOn : Prop :=
  ∀ (c : Instr) (s : State),
    (c.wellFormed = true → ∃ t, exec c s = .next t) ∧
    ((∃ t, exec c s = .next t ∧ t.pending = s.pending) ∨ exec c s = .fault .malformedBurst)

/-- After power-on the laws of the state hold. -/
def Obligations.LawsHoldAtReset : Prop :=
  EventLaw State.reset ∧ AudioLaw State.reset ∧ LineLaw State.reset ∧ AlertLaw State.reset ∧ FloorLaw State.reset ∧
    HootLaw State.reset ∧ RecorderLaw State.reset

/-- R167: produced minus consumed never exceeds the event ring's size, the backlog never holds more than 32 entries, and the
reserve for the command in hand stands free, at every step. -/
def Obligations.StepKeepsEventLaw : Prop := ∀ s t : State, EventLaw s → step s = .next t → EventLaw t

/-- R119: captured = taken + overrun + flushed + queued for every source, and no queue and no Output Store list exceeds 4
frames (R117, R120), at every step. -/
def Obligations.StepKeepsAudioLaw : Prop := ∀ s t : State, AudioLaw s → step s = .next t → AudioLaw t

/-- R9, R1, R29: a handset is bound to a line exactly when it stands in its owner list, a CONNECTED line alone has owners, 1
to 4, held_by, group and the ring record are present in their own states alone, at every step. -/
def Obligations.StepKeepsLineLaw : Prop := ∀ s t : State, LineLaw s → step s = .next t → LineLaw t

/-- R30: every position's ring and recall counts are the number of rings presented to it, and its alert indicator is ON
exactly while ring_count is above zero, at every step from a state in which the line laws hold. -/
def Obligations.StepKeepsAlertLaw : Prop :=
  ∀ s t : State, LineLaw s → AlertLaw s → step s = .next t → AlertLaw t

/-- R46: the laws of the talk floor hold at every step. -/
def Obligations.StepKeepsFloorLaw : Prop := ∀ s t : State, FloorLaw s → step s = .next t → FloorLaw t

/-- R27, R47: a hoot line is listed by one group at most and, in RUNNING, is BRIDGED in it; a line of type HOOT carries no
call, at every step from a state in which the line laws hold. -/
def Obligations.StepKeepsHootLaw : Prop :=
  ∀ s t : State, LineLaw s → HootLaw s → step s = .next t → HootLaw t

/-- R143: a channel holds a session exactly while ACTIVE, a close record exactly while DRAINING and a subject in both, at
every step. -/
def Obligations.StepKeepsRecorderLaw : Prop := ∀ s t : State, RecorderLaw s → step s = .next t → RecorderLaw t

/-- R170: no command but power-on removes or replaces the first fault, and none lowers the fault count. -/
def Obligations.OnlyPowerOnForgetsFaults : Prop :=
  ∀ (c : Instr) (s t : State), exec c s = .next t → (∀ straps, c ≠ .powerOn straps) →
    (∀ f, s.cu.fault.first = some f → t.cu.fault.first = some f) ∧ s.cu.fault.count.toNat ≤ t.cu.fault.count.toNat

/-- R175, R176: the part leaves RUNNING only by power-on or the RESETn pin, and only they sample the straps. -/
def Obligations.OnlyResetsLeaveRunning : Prop :=
  ∀ (c : Instr) (s t : State), exec c s = .next t → (∀ straps, c ≠ .powerOn straps ∧ c ≠ .resetN straps) →
    (s.running = true → t.running = true) ∧ t.ld.sel = s.ld.sel

/-- R181 with R1, R9, R10, R29, R30, R45, R70, R71, R90, R107, R113, R117, R119 to R121, R123, R128, R143, R145, R149, R155,
R163, R167, R170, R175: what power-on leaves, and that RESETn differs from it in the Fault Record alone. -/
def Obligations.ResetsLeavePowerOnValues : Prop :=
  ∀ (straps : BitVec 2) (s : State), ∃ t : State,
    exec (.powerOn straps) s = .next t ∧
    exec (.resetN straps) s = .next { t with cu := { t.cu with fault := s.cu.fault } } ∧
    (t.ld.op = .transparent ∧ t.ld.sel = straps ∧ t.cu.fault = ⟨none, 0, false, .none⟩) ∧
    (∀ l : LineId, (t.line l).state = .outOfService ∧ (t.line l).type = .ringdown ∧ (t.line l).farEnd = .onHook ∧
      (t.line l).ringInd = .quiet ∧ (t.line l).owners = [] ∧ (t.line l).privacy = false ∧ (t.line l).heldBy = none ∧
      (t.line l).preferred = none ∧ (t.line l).ringDelay = 0 ∧ (t.line l).recallTime = 0 ∧ (t.line l).policy = .none ∧
      (t.line l).recorder = none ∧ (t.line l).pad = 0 ∧ (t.line l).group = none ∧ (t.line l).missed = 0 ∧
      (t.line l).recallDeadline = none ∧ (t.line l).ctlPending = false ∧ t.ring l = none) ∧
    (∀ h : Handset, t.handset h = ⟨none, 0, 0⟩) ∧
    (∀ p : PosId, (∀ k : KeyId, (t.map p).get k = none) ∧ t.posRing p = ⟨0, 0, false⟩ ∧
      t.settings p = ⟨0, 0, 0, 0, false⟩ ∧ ∀ c : SpkId, (t.speakers p).get c = ⟨none, .left, 0, false⟩) ∧
    t.mp.holdLevel = 0 ∧
    (∀ g : GroupId, t.group g = ⟨0, [], 1, [], [], 0, 0, .none, 0, none, none⟩) ∧
    (∀ i : SourceId, t.pu.queues.get i = [] ∧ t.pu.totals.get i = ⟨0, 0, 0, 0, 0, 0, 0, 0, 0⟩ ∧
      t.pu.assembly.get i = ⟨none, .replicate 32 none⟩ ∧ t.me.last.get i = ⟨.none, .replicate 16 0⟩ ∧
      t.me.underrun.get i = 0) ∧
    (∀ j : ListenerId, t.pu.store.get j = [] ∧ t.pu.unheld.get j = 0 ∧ t.me.saturation.get j = 0) ∧
    (∀ x : Fin 3, t.me.phase.get x = 0 ∧ t.me.tones.get x = ⟨.replicate 32 0, 1, 1⟩) ∧
    (t.pu.regions = ⟨none, none, none, none⟩ ∧ t.pu.shadows = ⟨.replicate 96 0, 0, 0, 0, 0, 0⟩ ∧ t.pu.lastOwn = false ∧
      t.pu.own = [] ∧ t.pu.flight = [] ∧ t.pu.passWaiting = [] ∧ t.pu.passFlight = []) ∧
    (t.ft.counter = 0 ∧ t.ft.floor = 0 ∧ t.ft.timeSet = .unset ∧ t.ft.watch = .acquiring ∧ t.ft.watchTimer = none ∧
      t.ft.freeTimer = none ∧ t.ft.refPulse = none ∧ t.ft.good = 0 ∧ t.ft.mismatches = 0 ∧ t.ft.syncMismatch = 0 ∧
      t.ft.clockLosses = 0 ∧ t.ft.clkPerMs = 0) ∧
    (∀ c : ChanId, (t.chan c).state = .free ∧ (t.chan c).subject = none ∧ (t.chan c).overflowing = false ∧
      (t.chan c).segPending = false ∧ (t.chan c).session = none ∧ (t.chan c).closeRecord = none ∧
      (t.chan c).outstanding = 0 ∧ (t.chan c).current = .bufA ∧ (t.chan c).bufA = ⟨0, 0, .part, 0, none, none⟩ ∧
      (t.chan c).bufB = ⟨0, 0, .part, 0, none, none⟩ ∧ (t.chan c).bufEvents = []) ∧
    (t.ru.nextSession = 1 ∧ t.ru.frameNo = 0 ∧ t.ru.produced = 0 ∧ t.ru.consumed = 0 ∧ t.ru.logFaults = 0) ∧
    (t.cu.posted = 0 ∧ t.cu.taken = 0 ∧ t.cu.execution = .idle ∧ t.cu.evProduced = 0 ∧ t.cu.evConsumed = 0 ∧
      t.cu.backlog = [] ∧ t.cu.lost = 0 ∧ t.cu.evFaults = 0)

/-! ### Events and completions -/

/-- R167: the arrival of an event that leaves `keep` places free. It goes into the ring where nothing waits, nothing was lost
and the ring has room; else to the backlog, behind the marker of lost events, where its places are free, from which both go
into the ring as far as room allows; else it is counted as lost. -/
def Obligations.EventIsAdmittedOrCounted : Prop :=
  ∀ (keep : Nat) (e : Event) (s : State),
    let t := postKeeping keep e s
    let direct := s.cu.backlog = [] ∧ s.cu.lost = 0 ∧ (s.cu.evProduced - s.cu.evConsumed).toNat < s.cu.evSize
    let marker : List Event := if s.cu.lost = 0 then [] else [.eventsLost s.cu.lost]
    let fits := marker.length + 1 + keep ≤ 32 - s.cu.backlog.length
    (direct → t = { s with
      cu := { s.cu with evProduced := s.cu.evProduced + 1 }
      pu := { s.pu with own := s.pu.own ++ [⟨.eventSlot s.cu.evProduced,
        s.cu.evBase + BitVec.ofNat 36 (16 * (s.cu.evProduced.toNat % s.cu.evSize)), e.bytes, 0⟩] } }) ∧
    (¬direct → fits → s.cu.backlog ≠ [] →
      t = { s with cu := { s.cu with backlog := s.cu.backlog ++ marker ++ [e], lost := 0 } }) ∧
    (¬direct → fits → s.cu.backlog = [] →
      let index (m : Nat) : Word := s.cu.evProduced + BitVec.ofNat 32 m
      ∃ n, n ≤ marker.length + 1 ∧ (∀ m, m < n → (index m - s.cu.evConsumed).toNat < s.cu.evSize) ∧
        (n ≤ marker.length → s.cu.evSize ≤ (index n - s.cu.evConsumed).toNat) ∧
        t = { s with
          cu := { s.cu with evProduced := index n, backlog := (marker ++ [e]).drop n, lost := 0 }
          pu := { s.pu with own := s.pu.own ++ ((marker ++ [e]).take n).zipIdx.map fun x =>
            ⟨.eventSlot (index x.2), s.cu.evBase + BitVec.ofNat 36 (16 * ((index x.2).toNat % s.cu.evSize)),
              x.1.bytes, 0⟩ } }) ∧
    (¬direct → ¬fits →
      t = { s with cu := { s.cu with lost := if s.cu.lost = BitVec.allOnes 32 then s.cu.lost else s.cu.lost + 1 } })

/-- R165 to R167: a completion counts the command as taken, returns to IDLE, asks for the command taken word, and its
COMMAND_DONE is never discarded while the event law holds. -/
def Obligations.CompletionIsNeverLost : Prop :=
  ∀ (st : Status) (s : State), EventLaw s → s.cu.execution ≠ .idle →
    let t := complete st s
    let done : Event := .commandDone s.cu.curTag s.cu.curKind st
    t.cu.lost = 0 ∧ t.cu.taken = s.cu.taken + 1 ∧ t.cu.execution = .idle ∧ t.cu.inHand = none ∧
    (t.cu.backlog.getLast? = some done ∨ (t.cu.backlog = [] ∧
      ∃ a ∈ t.pu.own, a.purpose = .eventSlot (t.cu.evProduced - 1) ∧ a.data = done.bytes)) ∧
    (∃ a, t.pu.own.getLast? = some a ∧ a.purpose = .commandTaken (s.cu.taken + 1) ∧ a.addr = controlAddr s 4 ∧
      a.data = wordBytes (s.cu.taken + 1)) ∧
    t = { s with cu := t.cu, pu := { s.pu with own := s.pu.own ++ (s.cu.takeEvent 0 done).slots ++
      [⟨.commandTaken (s.cu.taken + 1), controlAddr s 4, wordBytes (s.cu.taken + 1), 0⟩] } }

/-- R11, R18, R19, R21 to R26, R48, R53, R58, R72, R146, R152, R171: a host command with an argument out of range or
malformed completes BAD_ARGUMENT and does nothing else. A QUERY whose snapshot is being written has been taken already. -/
def Obligations.BadArgumentsAreAnswered : Prop :=
  ∀ (c : Instr) (s : State), s.holds c = true → BadArgs c →
    ((∀ kind index clear target, c ≠ .query kind index clear target) ∨ s.snapshotOut = false) →
    OnlyAnswers c .badArgument s

/-- R187, R188: the slot written for a host command, under any tag, is decoded as that command, and its tag reads back. -/
def Obligations.SlotDecodesToItsCommand : Prop :=
  ∀ (tag : Word) (c : Instr) (bs : List Byte), slotBytes tag c = some bs →
    decodeSlot bs = some c ∧ BitVec.ofNat 32 (leAt bs 0 4) = tag

/-! ### Lines and rings: the shared steps -/

/-- R2, R8: a change of a line's state posts its LINE_STATE; where near_end changes the line's control write is marked
pending, and asked for unless it was marked already. -/
def Obligations.LineStateChangeIsTold : Prop :=
  ∀ (l : LineId) (st : LineState) (cause : LineCause) (s : State),
    let t := setLineState l st cause s
    let moved : Bool := (s.line l).state.nearEnd != st.nearEnd
    (st.nearEnd = .offHook ↔ st = .connected ∨ st = .held ∨ st = .bridged) ∧
    t.line l = { s.line l with state := st, ctlPending := (s.line l).ctlPending || moved } ∧ OnlyLine l s t ∧
    Posts [.lineState l st cause] s t ∧
    (t.pu.own.drop s.pu.own.length).filter (fun a => a.purpose.kind == .lineControl) =
      (if moved && !(s.line l).ctlPending then
        [⟨.lineControl l, s.pu.regions.signal.getD 0 + BitVec.ofNat 36 (1024 + 4 * l.val), [], 0⟩] else []) ∧
    t = { s with lc := { s.lc with lines := t.lc.lines }, cu := t.cu, pu := t.pu }

/-- R30, R36 to R39: when the presentation set of a ring changes, every position that joins or leaves counts it, and
POSITION_ALERT is posted for each count that crosses between 0 and 1, in position order. So it is at the end of a ring, which
posts RING_END and removes the record, and when a line is gained or lost on a position's map. Model's choice: log 12. -/
def Obligations.PresentationMovesCounts : Prop :=
  (∀ (isRecall : Bool) (old new : PosSet) (s : State),
     let t := moveShown isRecall old new s
     (∀ p, t.posRing p = movedCounts isRecall old new p (s.posRing p)) ∧ Posts (alertChanges s old new) s t ∧
     t = { s with rc := { s.rc with counts := t.rc.counts }, cu := t.cu, pu := t.pu }) ∧
  (∀ (l : LineId) (cause : RingCause) (pos : Option PosId) (r : RingRec) (s : State), s.ring l = some r →
     let t := endRing l cause pos s
     RingMoves l (r.phase == .recall) r.shown 0 none [.ringEnd l cause pos] s t ∧
     t = { s with rc := t.rc, cu := t.cu, pu := t.pu }) ∧
  (∀ (p : PosId) (l : LineId) (r : RingRec) (s : State), s.ring l = some r →
     let gone := lineRemoved p l s
     let come := lineAdded p l s
     (r.phase = .preferred → inSet r.shown p = true → ∃ shown : PosSet, (∀ q, inSet shown q = s.appears q l) ∧
       RingMoves l false r.shown shown (some ⟨.general, shown, none, none⟩) [.ringPhase l .appearance] s gone) ∧
     (r.phase = .general → inSet r.shown p = true →
       RingMoves l false r.shown (r.shown &&& ~~~(onlyPos p)) (some { r with shown := r.shown &&& ~~~(onlyPos p) }) []
         s gone) ∧
     (r.phase = .general → inSet r.shown p = false →
       RingMoves l false r.shown (r.shown ||| onlyPos p) (some { r with shown := r.shown ||| onlyPos p }) [] s come) ∧
     (inSet r.shown p = false ∨ r.phase = .recall → gone = s) ∧
     (inSet r.shown p = true ∨ r.phase ≠ .general → come = s) ∧
     gone = { s with rc := gone.rc, cu := gone.cu, pu := gone.pu } ∧
     come = { s with rc := come.rc, cu := come.cu, pu := come.pu })

/-- R4, R31: an IDLE line that goes on to RINGING rings in PREFERRED at its preferred position where that position's map
holds the line and ring_delay is above 0, else in GENERAL at every position whose map holds it. -/
def Obligations.NewRingIsPresented : Prop :=
  ∀ (l : LineId) (s : State), (s.line l).state = .idle →
    let t := enterRinging l s
    let r := s.line l
    ∃ (ring : RingRec) (pos : Option PosId),
      (∀ p, r.preferred = some p → s.appears p l = true → 0 < r.ringDelay →
        ring = ⟨.preferred, onlyPos p, some (s.now + BitVec.ofNat 32 r.ringDelay), none⟩ ∧ pos = some p) ∧
      ((∀ p, r.preferred = some p → s.appears p l = true → r.ringDelay = 0) →
        ring = ⟨.general, ring.shown, none, none⟩ ∧ (∀ p, inSet ring.shown p = s.appears p l) ∧ pos = none) ∧
      t.line l = { r with state := .ringing } ∧ OnlyLine l s t ∧
      RingMoves l false 0 ring.shown (some ring) [.lineState l .ringing .ring, .ringStart l ring.phase pos] s t ∧
      t = { s with lc := { s.lc with lines := t.lc.lines }, rc := t.rc, cu := t.cu, pu := t.pu }

/-- R3: clearing a line frees its owners, ends its ring and its session, and leaves it with none of what a call gave it; the
level rule (R4) then acts on a line that has entered IDLE. The session and the ring end with the cause of the clearing. -/
def Obligations.ClearingLeavesLineEmpty : Prop :=
  (LineCause.released.session = .released ∧ LineCause.farEndClear.session = .farEndClear ∧
   LineCause.forced.session = .forced ∧ LineCause.outOfService.session = .outOfService ∧
   LineCause.restart.session = .restart ∧ LineCause.farEndClear.ringEnd = .farEndClear ∧
   LineCause.forced.ringEnd = .forced ∧ LineCause.outOfService.ringEnd = .outOfService ∧
   LineCause.restart.ringEnd = .restart) ∧
  ∀ (l : LineId) (cause : LineCause) (st : LineState) (s : State), st = .idle ∨ st = .outOfService →
    let r := s.line l
    ∃ u : State,
      clearLine l cause st s =
        (if st = .idle ∧ r.type ≠ .hoot ∧ r.ringInd = .ringing then enterRinging l u else u) ∧
      (u.line l = { r with state := st, owners := [], heldBy := none, recallDeadline := none, privacy := false,
                           recorder := none, ctlPending := (u.line l).ctlPending }) ∧ OnlyLine l s u ∧
      (∀ h, u.handset h =
        if h ∈ r.owners then { s.handset h with binding := none } else s.handset h) ∧
      (∀ c, r.recorder = some c → u.chan c = (sessionEnd c cause.session s).chan c ∧ OnlyChan c s u) ∧
      (r.recorder = none → u.ru = s.ru) ∧
      (r.state ≠ .ringing → u.rc = s.rc ∧ Posts [.lineState l st cause] s u) ∧
      (∀ ring, r.state = .ringing → s.ring l = some ring →
        u.ring l = none ∧ (∀ m, m ≠ l → u.ring m = s.ring m) ∧
        (∀ p, u.posRing p = movedCounts (ring.phase == .recall) ring.shown 0 p (s.posRing p)) ∧
        Posts ([.ringEnd l cause.ringEnd none] ++ alertChanges s ring.shown 0 ++ [.lineState l st cause]) s u) ∧
      u = { s with lc := { u.lc with maps := s.lc.maps }, rc := u.rc, ru := { s.ru with channels := u.ru.channels },
                   cu := u.cu, pu := u.pu }

/-- R145, R147, R148, R153: an allocation opens a session on the lowest FREE channel with the counter's number; a party is
appended once; a session end leaves the channel DRAINING with its close record. -/
def Obligations.SessionsOpenAndEnd : Prop :=
  (∀ (subject : Subject) (parties : List PosId) (c : ChanId) (s : State), LowestFree s c →
    ∃ t, allocate subject parties s = some (c, t) ∧
      t.chan c = { s.chan c with
        state := .active, subject := some subject, overflowing := false, segPending := false,
        current := if (s.chan c).here.owner = .host ∧ ((s.chan c).buffer (s.chan c).current.other).owner = .part
          then (s.chan c).current.other else (s.chan c).current,
        session := some ⟨s.ru.nextSession, none, subject, c, s.ru.frameNo, none, s.ft.floor, none, parties, 0, 0, none,
          false⟩,
        closeRecord := none, closeDone := false, frameSeen := false, placed := none } ∧
      OnlyChan c s t ∧
      t.ru.nextSession = (if s.ru.nextSession = BitVec.allOnes 32 then 1 else s.ru.nextSession + 1) ∧
      t = { s with ru := { s.ru with channels := t.ru.channels, nextSession := t.ru.nextSession } }) ∧
  (∀ (subject : Subject) (parties : List PosId) (s : State), NoneFree s → allocate subject parties s = none) ∧
  (∀ (c : ChanId) (p : PosId) (x : Session) (s : State), (s.chan c).session = some x →
    let t := partyArrival c p s
    t.chan c = { s.chan c with
      session := some { x with parties := if p ∈ x.parties then x.parties else x.parties ++ [p] } } ∧
    OnlyChan c s t ∧ t = { s with ru := { s.ru with channels := t.ru.channels } }) ∧
  (∀ (c : ChanId) (cause : SessionCause) (x : Session) (s : State), (s.chan c).session = some x →
    let t := sessionEnd c cause s
    t.chan c = { s.chan c with
      state := .draining, segPending := false, session := none, closeDone := false, frameSeen := false, placed := none,
      closeRecord := some { x with endFrame := some s.ru.frameNo, endTime := some s.ft.floor, cause := some cause } } ∧
    OnlyChan c s t ∧ t = { s with ru := { s.ru with channels := t.ru.channels } })

/-! ### Commands on lines, appearances and handsets -/

/-- R24: LINE_SET stores its settings, clamped, in a line that is IDLE or OUT_OF_SERVICE, and the level rule then acts on an
IDLE line; in any other state it is answered BUSY. -/
def Obligations.LineSetStoresSettings : Prop :=
  ∀ (l : LineId) (ty : LineType) (pad : Byte) (pref : Option PosId) (delay : Byte) (pol : Policy) (recall_ : Half)
    (s : State),
    let c : Instr := .lineSet (finByte l) ty.code pad (idByte pref) delay pol.code recall_
    s.holds c = true →
    ((s.line l).state = .idle ∨ (s.line l).state = .outOfService → ∃ u : State,
      u.line l = { s.line l with
        type := ty, pad := min pad.toNat 24, preferred := pref, ringDelay := 100 * min delay.toNat 100,
        recallTime := if recall_ = 0 then 0 else 1000 * min (max recall_.toNat 10) 600, policy := pol } ∧
      OnlyLine l s u ∧ u = { s with lc := { s.lc with lines := u.lc.lines } } ∧
      exec c s = .next (complete .ok
        (if ty ≠ .hoot ∧ (s.line l).state = .idle ∧ (s.line l).ringInd = .ringing then enterRinging l u else u))) ∧
    ((s.line l).state ≠ .idle → (s.line l).state ≠ .outOfService → OnlyAnswers c .busy s)

/-- R22, R23, R64: LINE_SERVICE IN brings an OUT_OF_SERVICE line to IDLE, and the level rule acts; OUT takes a line of any
other state out of service, clearing it, or taking a bridged line out of its group. FORCE_CLEAR clears a line that is
RINGING, CONNECTED or HELD with cause FORCED. -/
def Obligations.LineServiceAndForceClear : Prop :=
  (∀ (l : LineId) (s : State),
     (s.holds (.lineService (finByte l) 1) = true →
       let c : Instr := .lineService (finByte l) 1
       ((s.line l).state = .outOfService →
         exec c s = .next (complete .ok
           (if (s.line l).type ≠ .hoot ∧ (s.line l).ringInd = .ringing then
             enterRinging l (setLineState l .idle .inService s) else setLineState l .idle .inService s))) ∧
       ((s.line l).state ≠ .outOfService → OnlyAnswers c .ok s)) ∧
     (s.holds (.lineService (finByte l) 0) = true →
       let c : Instr := .lineService (finByte l) 0
       ((s.line l).state = .outOfService → OnlyAnswers c .ok s) ∧
       ((s.line l).state = .idle →
         ∃ t, exec c s = .next t ∧ t.line l = { s.line l with state := .outOfService } ∧ OnlyLine l s t ∧
           Answers [.lineState l .outOfService .outOfService] .ok s t ∧
           t = { s with lc := { s.lc with lines := t.lc.lines }, cu := t.cu, pu := t.pu }) ∧
       ((s.line l).state = .ringing ∨ (s.line l).state = .connected ∨ (s.line l).state = .held →
         exec c s = .next (complete .ok (clearLine l .outOfService .outOfService s))) ∧
       (∀ g, (s.line l).state = .bridged → (s.line l).group = some g → ∃ u : State,
         exec c s = .next (complete .ok (startHang g u)) ∧
         u.line l = { s.line l with state := .outOfService, group := none, ctlPending := true } ∧ OnlyLine l s u ∧
         u.group g = { s.group g with hootLines := (s.group g).hootLines.filter (· != l) } ∧ OnlyGroup g s u ∧
         Posts [.lineState l .outOfService .outOfService] s u ∧
         u = { s with lc := { s.lc with lines := u.lc.lines }, fc := u.fc, cu := u.cu, pu := u.pu }))) ∧
  (∀ (l : LineId) (s : State),
     let c : Instr := .forceClear (finByte l)
     s.holds c = true →
     ((s.line l).state = .ringing ∨ (s.line l).state = .connected ∨ (s.line l).state = .held →
       exec c s = .next (complete .ok (clearLine l .forced .idle s))) ∧
     ((s.line l).state = .idle → OnlyAnswers c .ok s) ∧
     ((s.line l).state = .bridged → OnlyAnswers c .notSeizable s) ∧
     ((s.line l).state = .outOfService → OnlyAnswers c .outOfService s))

/-- R25, R37: APPEAR_SET maps a line on a key or clears the key; the Ring Presenter is told of the removal and then of the
addition. A key that holds the value already is answered OK, a line that appears already DUPLICATE, a key whose line is in
use BUSY. -/
def Obligations.AppearSetMapsLine : Prop :=
  ∀ (p : PosId) (k : KeyId) (new : Option LineId) (s : State),
    let c : Instr := .appearSet (finByte p) (finByte k) (idByte new)
    let old := (s.map p).get k
    let inUse (o : LineId) : Prop :=
      (s.handset ⟨p, .left⟩).binding = some o ∨ (s.handset ⟨p, .right⟩).binding = some o ∨
      ((s.line o).state = .held ∧ (s.line o).heldBy = some p) ∨
      ∃ r, s.ring o = some r ∧ r.phase = .recall ∧ r.recallPos = some p
    s.holds c = true →
    (old = new → OnlyAnswers c .ok s) ∧
    (old ≠ new → (∃ l, new = some l ∧ s.appears p l = true) → OnlyAnswers c .duplicate s) ∧
    (old ≠ new → (∀ l, new = some l → s.appears p l = false) → (∃ o, old = some o ∧ inUse o) → OnlyAnswers c .busy s) ∧
    (old ≠ new → (∀ l, new = some l → s.appears p l = false) → (∀ o, old = some o → ¬inUse o) →
      ∃ u v w : State,
        (∀ q j, (u.map q).get j = if q = p ∧ j = k then new else (s.map q).get j) ∧
        u = { s with lc := { s.lc with maps := u.lc.maps } } ∧
        (∀ o, old = some o → v = lineRemoved p o u) ∧ (old = none → v = u) ∧
        (∀ l, new = some l → w = lineAdded p l v) ∧ (new = none → w = v) ∧
        exec c s = .next (complete .ok w))

/-- R11, R13, R14, R15, R16, R33: the statuses that refuse a SEIZE, and no other effect. -/
def Obligations.SeizeIsRefused : Prop :=
  ∀ (h : Handset) (l : LineId) (s : State),
    let c : Instr := .seize (finByte h.pos) h.side.code (finByte l)
    let r := s.line l
    s.holds c = true →
    (s.appears h.pos l = false → OnlyAnswers c .notAppearing s) ∧
    (s.appears h.pos l = true → (s.handset h).binding ≠ none → OnlyAnswers c .handsetBusy s) ∧
    (s.appears h.pos l = true → (s.handset h).binding = none → r.state = .outOfService → OnlyAnswers c .outOfService s) ∧
    (s.appears h.pos l = true → (s.handset h).binding = none → r.state ≠ .outOfService →
      r.state = .bridged ∨ r.type = .hoot → OnlyAnswers c .notSeizable s) ∧
    (MaySeize h l s →
      (r.state = .idle → r.policy = .required → NoneFree s → OnlyAnswers c .noRecorder s) ∧
      (∀ ring, r.state = .ringing → s.ring l = some ring →
        (inSet ring.shown h.pos = false → OnlyAnswers c .notPresented s) ∧
        (inSet ring.shown h.pos = true → ring.phase ≠ .recall → r.policy = .required → NoneFree s →
          OnlyAnswers c .noRecorder s)) ∧
      (r.state = .connected → r.privacy = true → OnlyAnswers c .isPrivate s) ∧
      (r.state = .connected → r.privacy = false → 4 ≤ r.owners.length → OnlyAnswers c .lineFull s) ∧
      (r.state = .held → r.privacy = true → r.heldBy ≠ some h.pos → OnlyAnswers c .isPrivate s))

/-- R12 to R16: an outgoing seize and an answer make the handset the line's sole owner, end its ring ANSWERED and apply the
recorder check but for a recall ring, whose party is told instead; a join appends the handset; a retrieve takes the line off
hold. -/
def Obligations.SeizeTakesLine : Prop :=
  (∀ (h : Handset) (l : LineId) (s : State),
     let c : Instr := .seize (finByte h.pos) h.side.code (finByte l)
     let r := s.line l
     let bound (t : State) : Prop :=
       (∀ k, t.handset k = if k = h then { s.handset h with binding := some l } else s.handset k) ∧ OnlyLine l s t ∧
       t = { s with lc := { t.lc with maps := s.lc.maps }, rc := t.rc, ru := t.ru, cu := t.cu, pu := t.pu }
     s.holds c = true → MaySeize h l s →
     (∀ ru rec_ st, r.state = .idle → LineChecked l h.pos s ru rec_ st →
       ∃ t, exec c s = .next t ∧ bound t ∧ t.rc = s.rc ∧ t.ru = ru ∧
         t.line l = { r with state := .connected, owners := [h], recorder := rec_, ctlPending := true } ∧
         Answers [.lineState l .connected .seized] st s t) ∧
     (∀ ring ru rec_ st, r.state = .ringing → s.ring l = some ring → inSet ring.shown h.pos = true → ring.phase ≠ .recall →
       LineChecked l h.pos s ru rec_ st →
       ∃ t, exec c s = .next t ∧ bound t ∧ t.ru = ru ∧
         t.line l = { r with state := .connected, owners := [h], recorder := rec_, ctlPending := true } ∧
         t.ring l = none ∧ (∀ m, m ≠ l → t.ring m = s.ring m) ∧
         (∀ p, t.posRing p = movedCounts false ring.shown 0 p (s.posRing p)) ∧
         Answers ([.ringEnd l .answered (some h.pos)] ++ alertChanges s ring.shown 0 ++
           [.lineState l .connected .answered]) st s t) ∧
     (∀ ring ru, r.state = .ringing → s.ring l = some ring → inSet ring.shown h.pos = true → ring.phase = .recall →
       PartyTold r.recorder h.pos s ru →
       ∃ t, exec c s = .next t ∧ bound t ∧ t.ru = ru ∧
         t.line l = { r with state := .connected, owners := [h], ctlPending := true } ∧
         t.ring l = none ∧ (∀ m, m ≠ l → t.ring m = s.ring m) ∧
         (∀ p, t.posRing p = movedCounts true ring.shown 0 p (s.posRing p)) ∧
         Answers ([.ringEnd l .answered (some h.pos)] ++ alertChanges s ring.shown 0 ++
           [.lineState l .connected .answered]) .ok s t)) ∧
  (∀ (h : Handset) (l : LineId) (ru : RecUnit) (s : State),
     let c : Instr := .seize (finByte h.pos) h.side.code (finByte l)
     let r := s.line l
     let bound (t : State) : Prop :=
       (∀ k, t.handset k = if k = h then { s.handset h with binding := some l } else s.handset k) ∧ OnlyLine l s t ∧
       t = { s with lc := { t.lc with maps := s.lc.maps }, ru := ru, cu := t.cu, pu := t.pu }
     s.holds c = true → MaySeize h l s → PartyTold r.recorder h.pos s ru →
     (r.state = .connected → r.privacy = false → r.owners.length < 4 →
       ∃ t, exec c s = .next t ∧ bound t ∧ t.line l = { r with owners := r.owners ++ [h] } ∧ Answers [] .ok s t) ∧
     (r.state = .held → r.privacy = false ∨ r.heldBy = some h.pos →
       ∃ t, exec c s = .next t ∧ bound t ∧
         t.line l = { r with state := .connected, owners := [h], heldBy := none, recallDeadline := none } ∧
         Answers [.lineState l .connected .retrieved] .ok s t))

/-- R18, R19: RELEASE takes a handset off its line, and the last to leave clears it; HOLD puts a line with one owner on hold
for the owner's position, with a recall deadline where recall_time is above 0. -/
def Obligations.ReleaseAndHoldLeaveLine : Prop :=
  (∀ (h : Handset) (s : State),
     let c : Instr := .release (finByte h.pos) h.side.code
     s.holds c = true →
     ((s.handset h).binding = none → OnlyAnswers c .notBound s) ∧
     (∀ l k, (s.handset h).binding = some l → k ∈ (s.line l).owners → k ≠ h →
       ∃ t, exec c s = .next t ∧ t.line l = { s.line l with owners := (s.line l).owners.filter (· != h) } ∧ OnlyLine l s t ∧
         (∀ j, t.handset j = if j = h then { s.handset h with binding := none } else s.handset j) ∧ Answers [] .ok s t ∧
         t = { s with lc := { t.lc with maps := s.lc.maps }, cu := t.cu, pu := t.pu }) ∧
     (∀ l, (s.handset h).binding = some l → (s.line l).owners = [h] →
       exec c s = .next (complete .ok (clearLine l .released .idle s)))) ∧
  (∀ (h : Handset) (s : State),
     let c : Instr := .hold (finByte h.pos) h.side.code
     s.holds c = true →
     ((s.handset h).binding = none → OnlyAnswers c .notBound s) ∧
     (∀ l, (s.handset h).binding = some l → 2 ≤ (s.line l).owners.length → OnlyAnswers c .shared s) ∧
     (∀ l, (s.handset h).binding = some l → (s.line l).owners = [h] → (s.line l).state = .connected →
       ∃ t, exec c s = .next t ∧
         t.line l = { s.line l with state := .held, owners := [], heldBy := some h.pos,
                                    recallDeadline := ahead s (s.line l).recallTime } ∧ OnlyLine l s t ∧
         (∀ j, t.handset j = if j = h then { s.handset h with binding := none } else s.handset j) ∧
         Answers [.lineState l .held .held] .ok s t ∧
         t = { s with lc := { t.lc with maps := s.lc.maps }, cu := t.cu, pu := t.pu }))

/-- R21, R26: PRIVACY sets the mark of the line a handset is bound to; HANDSET_SET and POSITION_SET store their settings,
clamped. -/
def Obligations.SettingsAreStored : Prop :=
  (∀ (h : Handset) (value : Bool) (s : State),
    let c : Instr := .privacy (finByte h.pos) h.side.code (flagCode value)
    s.holds c = true →
    ((s.handset h).binding = none → OnlyAnswers c .notBound s) ∧
    (∀ l, (s.handset h).binding = some l →
      ∃ t, exec c s = .next t ∧ t.line l = { s.line l with privacy := value } ∧ OnlyLine l s t ∧ Answers [] .ok s t ∧
        t = { s with lc := { s.lc with lines := t.lc.lines }, cu := t.cu, pu := t.pu })) ∧
  (∀ (h : Handset) (volume micPad : Byte) (s : State),
    let c : Instr := .handsetSet (finByte h.pos) h.side.code volume micPad
    s.holds c = true →
    ∃ t, exec c s = .next t ∧ Answers [] .ok s t ∧
      (∀ k, t.handset k = if k = h then ⟨(s.handset h).binding, min volume.toNat 72, min micPad.toNat 24⟩
        else s.handset k) ∧
      t = { s with lc := { s.lc with handsets := t.lc.handsets }, cu := t.cu, pu := t.pu }) ∧
  (∀ (p : PosId) (micPad duck ringLevel recallLevel : Byte) (mark : Bool) (s : State),
    let c : Instr := .positionSet (finByte p) micPad duck ringLevel recallLevel (flagCode mark)
    s.holds c = true →
    ∃ t, exec c s = .next t ∧ Answers [] .ok s t ∧
      (∀ q, t.settings q = if q = p then
        ⟨min micPad.toNat 24, min duck.toNat 24, min ringLevel.toNat 72, min recallLevel.toNat 72, mark⟩
        else s.settings q) ∧
      t = { s with mp := { s.mp with settings := t.mp.settings }, cu := t.cu, pu := t.pu })

/-! ### Speaker channels, groups and the talk floor -/

/-- R72, R73: SPEAKER_SET stores a channel's subject, side, state and volume, and refuses a line not on the position's map, a
group it is no member of, and a subject that another of its channels holds. Model's choice: log 29. -/
def Obligations.SpeakerSetStoresChannel : Prop :=
  ∀ (p : PosId) (k : SpkId) (kind number flags volume : Byte) (subject : Option Subject) (s : State),
    let c : Instr := .speakerSet (finByte p) (finByte k) kind number flags volume
    let elsewhere : Prop := ∃ j, j ≠ k ∧ subject ≠ none ∧ ((s.speakers p).get j).subject = subject
    s.holds c = true →
    ((kind = 0 ∧ subject = none) ∨ (∃ l : LineId, kind = 1 ∧ number = finByte l ∧ subject = some (.line l)) ∨
      (∃ g : GroupId, kind = 2 ∧ number = finByte g ∧ subject = some (.group g))) →
    (∀ l, subject = some (.line l) → s.appears p l = false → OnlyAnswers c .notAppearing s) ∧
    (∀ g, subject = some (.group g) → inSet (s.group g).members p = false → OnlyAnswers c .notMember s) ∧
    ((∀ l, subject = some (.line l) → s.appears p l = true) →
      (∀ g, subject = some (.group g) → inSet (s.group g).members p = true) →
      (elsewhere → OnlyAnswers c .duplicate s) ∧
      (¬elsewhere → ∃ t, exec c s = .next t ∧ Answers [] .ok s t ∧
        (∀ q j, (t.speakers q).get j = if q = p ∧ j = k then
          ⟨subject, if flags.getLsbD 0 then .right else .left, min volume.toNat 72, flags.getLsbD 1⟩
          else (s.speakers q).get j) ∧
        t = { s with mp := { s.mp with speakers := t.mp.speakers }, cu := t.cu, pu := t.pu }))

/-- R50, R54, R65: a grant, the grant pass, and what is done for a group left without talkers. -/
def Obligations.PlacesAreGranted : Prop :=
  (∀ (g : GroupId) (p : PosId) (standing : Bool) (s : State),
    let r := s.group g
    let t := grantPlace g p standing s
    t.group g = { r with holders := r.holders ++ [⟨p, standing, ahead s r.talkLimit⟩], hangDeadline := none } ∧
    OnlyGroup g s t ∧ PartyTold r.recorder p s t.ru ∧ Posts [.floorGrant g p] s t ∧
    t = { s with fc := t.fc, ru := t.ru, cu := t.cu, pu := t.pu }) ∧
  (∀ (g : GroupId) (s : State),
    let r := s.group g
    let n := min r.queue.length (r.maxTalkers - r.holders.length)
    let t := grantPass g s
    t.group g = { r with
      holders := r.holders ++ (r.queue.take n).map fun e => ⟨e.pos, e.standing, ahead s r.talkLimit⟩
      queue := r.queue.drop n, hangDeadline := if n = 0 then r.hangDeadline else none } ∧
    OnlyGroup g s t ∧ Posts ((r.queue.take n).map fun e => .floorGrant g e.pos) s t ∧
    (∀ c x, r.recorder = some c → (s.chan c).session = some x → (t.chan c).session =
      some { x with parties := (r.queue.take n).foldl (fun ps e => addParty e.pos ps) x.parties }) ∧
    t = { s with fc := t.fc, ru := { s.ru with channels := t.ru.channels }, cu := t.cu, pu := t.pu }) ∧
  (∀ (g : GroupId) (s : State),
    let r := s.group g
    let t := startHang g s
    (r.holders ≠ [] ∨ r.hootLines ≠ [] ∨ r.recorder = none → t = s) ∧
    (∀ c, r.holders = [] → r.hootLines = [] → r.recorder = some c →
      (0 < r.hangTime → t.group g = { r with hangDeadline := some (s.now + BitVec.ofNat 32 r.hangTime) } ∧
        OnlyGroup g s t ∧ t = { s with fc := t.fc }) ∧
      (r.hangTime = 0 → t.group g = { r with recorder := none } ∧ OnlyGroup g s t ∧
        t = { s with fc := t.fc, ru := (sessionEnd c .groupSilent s).ru })))

/-- R58, R63: what refuses a GROUP_SET whose arguments are in range, in order, with no other effect. -/
def Obligations.GroupSetIsRefused : Prop :=
  ∀ (g : GroupId) (a : GroupArgs) (hoots : List LineId) (policy : Policy) (s : State),
    let c : Instr := .groupSet (finByte g) a
    let r := s.group g
    let stays (e : FloorEntry) : Prop := inSet a.members e.pos = true
    let wrongType : Prop := ∃ l ∈ hoots, (s.line l).type ≠ .hoot
    let taken : Prop := ∃ l ∈ hoots, (s.line l).state = .bridged ∧ (s.line l).group ≠ some g
    let out : Prop := ∃ l ∈ hoots, (s.line l).state = .outOfService
    s.holds c = true → hootArg a = some hoots → hoots.Nodup → a.policy = policy.code →
    (wrongType → OnlyAnswers c .badArgument s) ∧
    (¬wrongType → taken → OnlyAnswers c .busy s) ∧
    (¬wrongType → ¬taken → out → OnlyAnswers c .outOfService s) ∧
    (¬wrongType → ¬taken → ¬out → r.recorder = none → policy = .required → NoneFree s →
      (hoots ≠ [] ∨ ∃ e ∈ r.holders ++ r.queue, stays e) → OnlyAnswers c .noRecorder s)

/-- R59 to R63: an accepted GROUP_SET stores the group's configuration, bridges and unbridges hoot lines, removes the entries
that may not stay, grants free places to the queue, posts the events of these steps in order, and starts, keeps or ends the
recording hang. The Recorder Unit is asked for a channel whose session opens with the holders that stay, and is told of every
grant. -/
def Obligations.GroupSetApplies : Prop :=
  ∀ (g : GroupId) (a : GroupArgs) (hoots : List LineId) (policy : Policy) (s : State),
    let c : Instr := .groupSet (finByte g) a
    let r := s.group g
    let stays (e : FloorEntry) : Bool := inSet a.members e.pos
    let most := min (max a.maxTalkers.toNat 1) 3
    let kept := (r.holders.filter stays).take most
    let waiting := r.queue.filter stays
    let n := min waiting.length (most - kept.length)
    let old := r.hootLines.filter fun l => !hoots.contains l
    let new := hoots.filter fun l => !r.hootLines.contains l
    let willTalk : Prop := hoots ≠ [] ∨ ∃ e ∈ r.holders ++ r.queue, stays e = true
    let fresh : Prop := r.recorder = none ∧ willTalk ∧
      ((r.holders = [] ∧ r.hootLines = [] ∧ policy ≠ .none) ∨ policy = .required)
    let told (d : ChanId) (v : State) : RecUnit := ((waiting.take n).foldl (fun v e => partyArrival d e.pos v) v).ru
    LineLaw s → HootLaw s →
    s.holds c = true → hootArg a = some hoots → hoots.Nodup → a.policy = policy.code →
    (∀ l ∈ hoots, (s.line l).type = .hoot ∧ (s.line l).state ≠ .outOfService ∧
      ((s.line l).state = .bridged → (s.line l).group = some g)) →
    (fresh → policy = .required → ¬NoneFree s) →
    ∃ t st, exec c s = .next t ∧
      (st = .okUnrecorded ↔ fresh ∧ NoneFree s) ∧ (st = .ok ∨ st = .okUnrecorded) ∧
      ((t.group g).members = a.members ∧ (t.group g).hootLines = hoots ∧ (t.group g).maxTalkers = most ∧
        (t.group g).queueTimeout = 100 * a.queueTimeout.toNat ∧ (t.group g).talkLimit = 1000 * a.talkLimit.toNat ∧
        (t.group g).policy = policy ∧ (t.group g).hangTime = 1000 * min a.hangTime.toNat 60 ∧
        (t.group g).holders = kept ++ (waiting.take n).map (fun e =>
          ⟨e.pos, e.standing, ahead s (1000 * a.talkLimit.toNat)⟩) ∧
        (t.group g).queue = waiting.drop n) ∧ OnlyGroup g s t ∧
      (∀ d, fresh → LowestFree s d → (t.group g).recorder = some d) ∧
      (∀ d u, fresh → allocate (.group g) (kept.map (·.pos)) s = some (d, u) →
        (t.group g).recorder = some d ∧ t.ru = told d u) ∧
      (∀ d, r.recorder = some d → willTalk → (t.group g).recorder = some d ∧ t.ru = told d s) ∧
      (r.recorder = none → ¬fresh ∨ NoneFree s → (t.group g).recorder = none ∧ t.ru = s.ru) ∧
      (willTalk → (t.group g).hangDeadline = none) ∧
      (¬willTalk → r.recorder = none → (t.group g).hangDeadline = r.hangDeadline) ∧
      (∀ d, ¬willTalk → r.recorder = some d →
        (r.hangDeadline ≠ none → (t.group g).recorder = some d ∧ (t.group g).hangDeadline = r.hangDeadline ∧ t.ru = s.ru) ∧
        (r.hangDeadline = none → 0 < a.hangTime.toNat → (t.group g).recorder = some d ∧ t.ru = s.ru ∧
          (t.group g).hangDeadline = some (s.now + BitVec.ofNat 32 (1000 * min a.hangTime.toNat 60))) ∧
        (r.hangDeadline = none → a.hangTime = 0 → (t.group g).recorder = none ∧ (t.group g).hangDeadline = none ∧
          t.ru = (sessionEnd d .groupSilent s).ru)) ∧
      (∀ l, t.line l =
        if l ∈ new then { s.line l with state := .bridged, group := some g, ctlPending := true }
        else if l ∈ old then { s.line l with state := .idle, group := none, ctlPending := true }
        else s.line l) ∧
      Answers ((old.map fun l => .lineState l .idle .unbridged) ++ (new.map fun l => .lineState l .bridged .bridged) ++
        ((r.holders.filter fun e => !stays e).map fun e => .floorRevoked g e.pos .membership) ++
        ((r.queue.filter fun e => !stays e).map fun e => .floorWithdrawn g e.pos .membership) ++
        (((r.holders.filter stays).drop most).reverse.map fun e => .floorRevoked g e.pos .limit) ++
        ((waiting.take n).map fun e => .floorGrant g e.pos)) st s t ∧
      (t.pu.own.drop s.pu.own.length).filterMap (fun a => match a.purpose with | .lineControl l => some l | _ => none) =
        (old ++ new).filter (fun l => !(s.line l).ctlPending) ∧
      t = { s with lc := { s.lc with lines := t.lc.lines }, fc := t.fc, ru := t.ru, cu := t.cu, pu := t.pu }

/-- R48, R49, R51 to R53: TALK, and TALK_END, which gives up a place, after which the grant pass runs and a group left
without talkers starts its hang, or withdraws a request. -/
def Obligations.TalkAndTalkEnd : Prop :=
  (∀ (p : PosId) (g : GroupId) (s : State),
     let c : Instr := .talk (finByte p) (finByte g)
     let r := s.group g
     let mark := (s.settings p).supervisor
     let member : Prop := inSet r.members p = true
     let ready : Prop := member ∧ ∀ h, ¬s.onFloor h p
     let granted (holders : List FloorEntry) (rec_ : Option ChanId) (t : State) : Prop :=
       t.group g = { r with holders := holders ++ [⟨p, mark, ahead s r.talkLimit⟩], hangDeadline := none,
                            recorder := rec_ } ∧
       OnlyGroup g s t ∧ t = { s with fc := t.fc, ru := t.ru, cu := t.cu, pu := t.pu }
     let free : Prop := r.holders.length < r.maxTalkers
     let silent : Prop := r.holders = [] ∧ r.hootLines = [] ∧ r.recorder = none
     s.holds c = true →
     (¬member → OnlyAnswers c .notMember s) ∧
     (member → entryOf p r.holders = true → OnlyAnswers c .ok s) ∧
     (member → entryOf p r.holders = false → entryOf p r.queue = true → OnlyAnswers c .queued s) ∧
     (member → ¬s.onFloor g p → (∃ h, h ≠ g ∧ s.onFloor h p) → OnlyAnswers c .micBusy s) ∧
     (ready → free → silent → r.policy = .required → NoneFree s → OnlyAnswers c .noRecorder s) ∧
     (ready → free → ¬silent ∨ r.policy = .none →
       ∃ t, exec c s = .next t ∧ granted r.holders r.recorder t ∧ PartyTold r.recorder p s t.ru ∧
         Answers [.floorGrant g p] .ok s t) ∧
     (∀ d u, ready → free → silent → r.policy ≠ .none → LowestFree s d → allocate (.group g) [] s = some (d, u) →
       ∃ t, exec c s = .next t ∧ granted r.holders (some d) t ∧ PartyTold (some d) p u t.ru ∧
         Answers [.floorGrant g p] .ok s t) ∧
     (ready → free → silent → r.policy = .optional → NoneFree s →
       ∃ t, exec c s = .next t ∧ granted r.holders none t ∧ t.ru = s.ru ∧ Answers [.floorGrant g p] .okUnrecorded s t) ∧
     (∀ before q after, ready → ¬free → mark = true → r.holders = before ++ q :: after → q.standing = false →
       (∀ e ∈ before, e.standing = true) →
       ∃ t, exec c s = .next t ∧ granted (before ++ after) r.recorder t ∧ PartyTold r.recorder p s t.ru ∧
         Answers [.floorRevoked g q.pos .preempt, .floorGrant g p] .ok s t) ∧
     (ready → ¬free → (mark = true → ∀ e ∈ r.holders, e.standing = true) →
       (r.queue.length < 8 →
         ∃ t, exec c s = .next t ∧ t.group g = { r with queue := r.queue ++ [⟨p, mark, ahead s r.queueTimeout⟩] } ∧
           OnlyGroup g s t ∧ Answers [] .queued s t ∧ t = { s with fc := t.fc, cu := t.cu, pu := t.pu }) ∧
       (8 ≤ r.queue.length → OnlyAnswers c .floorBusy s))) ∧
  (∀ (p : PosId) (g : GroupId) (s : State),
     let c : Instr := .talkEnd (finByte p) (finByte g)
     let r := s.group g
     s.holds c = true →
     (entryOf p r.holders = true → ∃ u : State,
       u.group g = { r with holders := r.holders.filter fun e => e.pos != p } ∧ OnlyGroup g s u ∧ u = { s with fc := u.fc } ∧
       exec c s = .next (complete .ok (startHang g (grantPass g u)))) ∧
     (entryOf p r.holders = false → entryOf p r.queue = true →
       ∃ t, exec c s = .next t ∧ t.group g = { r with queue := r.queue.filter fun e => e.pos != p } ∧ OnlyGroup g s t ∧
         Answers [] .ok s t ∧ t = { s with fc := t.fc, cu := t.cu, pu := t.pu }) ∧
     (¬s.onFloor g p → OnlyAnswers c .notHolding s))

/-! ### Recorder commands, QUERY and RESTART -/

/-- R146, R152: RECORDER_SET gives a FREE channel two empty buffers; RECORD_RETURN gives a buffer back to the channel, which
takes it up at once where its current buffer is the host's. -/
def Obligations.RecorderCommandsSetBuffers : Prop :=
  (∀ (k : ChanId) (baseA ceilA baseB ceilB : Addr) (s : State),
    let c : Instr := .recorderSet (finByte k) baseA ceilA baseB ceilB
    s.holds c = true → baseA.toNat % 32 = 0 → ceilA.toNat % 32 = 0 → baseA.toNat < ceilA.toNat →
    baseB.toNat % 32 = 0 → ceilB.toNat % 32 = 0 → baseB.toNat < ceilB.toNat →
    ((s.chan k).state ≠ .free → OnlyAnswers c .busy s) ∧
    ((s.chan k).state = .free →
      ∃ t, exec c s = .next t ∧ Answers [] .ok s t ∧ OnlyChan k s t ∧
        t.chan k = { s.chan k with bufA := ⟨baseA, ceilA, .part, baseA, none, none⟩,
                                   bufB := ⟨baseB, ceilB, .part, baseB, none, none⟩, current := .bufA } ∧
        t = { s with ru := { s.ru with channels := t.ru.channels }, cu := t.cu, pu := t.pu })) ∧
  (∀ (k : ChanId) (b : Buf) (s : State),
    let c : Instr := .recordReturn (finByte k) b.code
    let ch := s.chan k
    s.holds c = true →
    ((ch.buffer b).owner = .part → OnlyAnswers c .ok s) ∧
    ((ch.buffer b).owner = .host →
      ∃ t, exec c s = .next t ∧ Answers [] .ok s t ∧ OnlyChan k s t ∧
        (t.chan k).buffer b = ⟨(ch.buffer b).base, (ch.buffer b).ceil, .part, (ch.buffer b).base, none, none⟩ ∧
        (t.chan k).buffer b.other = ch.buffer b.other ∧
        (ch.here.owner = .host → (t.chan k).current = b ∧ (t.chan k).overflowing = false) ∧
        (ch.here.owner = .part → (t.chan k).current = ch.current ∧ (t.chan k).overflowing = ch.overflowing) ∧
        t.chan k = { ch with bufA := (t.chan k).bufA, bufB := (t.chan k).bufB, current := (t.chan k).current,
                             overflowing := (t.chan k).overflowing } ∧
        t = { s with ru := { s.ru with channels := t.ru.channels }, cu := t.cu, pu := t.pu }))

/-- R171, R172, R189: QUERY asks for the writes of the snapshot's bytes at its target in address order, in bursts of 64
bytes, and with clear = yes clears the counters it reports; it stays in hand until the last write has returned and then
completes OK, or MEMORY_ERROR where one failed. Model's choices: logs 10, 16, 22, 31 and 40. -/
def Obligations.QueryWritesSnapshot : Prop :=
  (∀ (kind index : Byte) (clear : Bool) (target : Addr) (item : QueryItem) (s : State),
    let c : Instr := .query kind index (flagCode clear) target
    s.holds c = true → s.snapshotOut = false → queryItem kind index = some item → target.toNat % 64 = 0 →
    ∃ (t : State) (writes : List OwnAccess), exec c s = .next t ∧
      t.pu.own = s.pu.own ++ writes ∧ writes.flatMap (·.data) = snapshotOf s item ∧
      (∀ i a, writes[i]? = some a → a.purpose = .snapshot ∧ a.addr = target + BitVec.ofNat 36 (64 * i) ∧
        a.data.length ≤ 64 ∧ (i + 1 < writes.length → a.data.length = 64)) ∧
      (snapshotOf s item).length = (match item with
        | .line _ => 64 | .group _ => 128 | .position _ => 80 | .recorder _ => 192 | .counters => 4704) ∧
      t.cu.execution = .executing ∧ t.cu.inHand = some c ∧ t.cu.taken = s.cu.taken ∧
      (∀ l, t.line l = { s.line l with
        missed := if clear = true ∧ item = .line l then 0 else (s.line l).missed }) ∧
      (∀ k, clear = true → item = .recorder k → t.ru.logFaults = 0) ∧
      ((∀ k, item ≠ .recorder k) → t.ru.logFaults = s.ru.logFaults) ∧
      (clear = true → item = .counters →
        (∀ i, t.pu.totals.get i = { s.pu.totals.get i with
          baseCaptured := (s.pu.totals.get i).captured, baseTaken := (s.pu.totals.get i).taken,
          baseOverrun := (s.pu.totals.get i).overrun, baseFlushed := (s.pu.totals.get i).flushed, torn := 0 }) ∧
        (∀ j, t.pu.unheld.get j = 0 ∧ t.me.saturation.get j = 0) ∧ (∀ i, t.me.underrun.get i = 0) ∧
        t.ft.syncMismatch = 0 ∧ t.ft.clockLosses = 0 ∧ t.cu.evFaults = 0) ∧
      (item ≠ .counters → t.me = s.me ∧ t.ft = s.ft ∧ t.pu = { s.pu with own := t.pu.own } ∧
        t.cu = { s.cu with snapError := false }) ∧
      t = { s with
        lc := { s.lc with lines := t.lc.lines }, ru := { s.ru with logFaults := t.ru.logFaults }
        me := { s.me with underrun := t.me.underrun, saturation := t.me.saturation }
        ft := { s.ft with syncMismatch := t.ft.syncMismatch, clockLosses := t.ft.clockLosses }
        pu := { s.pu with own := t.pu.own, totals := t.pu.totals, unheld := t.pu.unheld }
        cu := { s.cu with evFaults := t.cu.evFaults, snapError := false } } ∧
      (clear = false → t = { s with pu := { s.pu with own := t.pu.own }, cu := { s.cu with snapError := false } })) ∧
  (∀ (k : Nat) (a : OwnAccess) (s u : State),
    s.running = true → Returns Purpose.isSnapshot k a s u →
    (u.snapshotOut = true → ∃ t, exec (.snapshotWriteResponse k false) s = .next t ∧ t = u) ∧
    (u.snapshotOut = false → exec (.snapshotWriteResponse k false) s =
      .next (complete (if s.cu.snapError then .memoryError else .ok) u)) ∧
    (u.snapshotOut = true → ∃ t, exec (.snapshotWriteResponse k true) s = .next t ∧ t.cu.snapError = true ∧
      t.cu.fault = faultAfter a s.cu.fault ∧ t.cu.execution = s.cu.execution ∧ t.cu.inHand = s.cu.inHand) ∧
    (u.snapshotOut = false → ∃ v, exec (.snapshotWriteResponse k true) s = .next (complete .memoryError v) ∧
      v.cu.fault = faultAfter a s.cu.fault ∧
      Posts [.fault .memoryError .snapshot a.addr (satSucc s.cu.fault.count)]
        { u with cu := { u.cu with fault := faultAfter a s.cu.fault } }
        { v with cu := { v.cu with snapError := s.cu.snapError } }))

/-- R28, R43, R68, R105, R118, R160, R170, R173: RESTART. Every call and every floor place is gone, rings end and start anew
where the line still rings, sessions end with cause RESTART but for those of groups with hoot lines, every queue is flushed
and counted, the Output Store is empty, and configuration, settings, stored signals and counters stay. The events are those
of the lines' clearings in line order and of the groups' floors in group order, then the completion. Model's choices: logs 33
and 37. -/
def Obligations.RestartEmptiesThePart : Prop :=
  ∀ s : State, s.holds .restart = true → LineLaw s →
    let cleared (l : LineId) : Bool := match (s.line l).state with
      | .ringing | .connected | .held => true
      | .idle | .bridged | .outOfService => false
    let again (l : LineId) : Bool := (s.line l).type != .hoot && (s.line l).ringInd == .ringing
    let ends (c : ChanId) : Prop := (∃ l, cleared l = true ∧ (s.line l).recorder = some c) ∨
      ∃ g, (s.group g).hootLines = [] ∧ (s.group g).recorder = some c
    let released : FaultRecord := { s.cu.fault with
      asserted := s.cu.fault.asserted && s.cu.fault.cause != .memoryError }
    let floor : List Event := (List.finRange 16).flatMap fun g =>
      ((s.group g).holders.map fun e => .floorRevoked g e.pos .restart) ++
        (s.group g).queue.map fun e => .floorWithdrawn g e.pos .restart
    ∃ t v : State, exec .restart s = .next t ∧
      v = (List.finRange 96).foldl (fun v l => if cleared l then clearLine l .restart .idle v else v) s ∧
      (∀ h, t.handset h = { s.handset h with binding := none }) ∧
      (∀ l, t.line l = if cleared l then
          { s.line l with state := if again l then .ringing else .idle, owners := [], privacy := false, heldBy := none,
                          recorder := none, recallDeadline := none,
                          ctlPending := (s.line l).ctlPending || (s.line l).state.nearEnd == .offHook }
        else s.line l) ∧
      (∀ l, cleared l = false → t.ring l = s.ring l) ∧ (∀ l, cleared l = true → again l = false → t.ring l = none) ∧
      (∀ l, cleared l = true → again l = true → ∃ ring, t.ring l = some ring ∧
        (∀ p, (s.line l).preferred = some p → s.appears p l = true → 0 < (s.line l).ringDelay →
          ring = ⟨.preferred, onlyPos p, some (s.now + BitVec.ofNat 32 (s.line l).ringDelay), none⟩) ∧
        ((∀ p, (s.line l).preferred = some p → s.appears p l = true → (s.line l).ringDelay = 0) →
          ring = ⟨.general, ring.shown, none, none⟩ ∧ ∀ p, inSet ring.shown p = s.appears p l)) ∧
      (AlertLaw s → AlertLaw t ∧ ∀ p, (t.posRing p).recallCount = 0) ∧
      (∀ g, (t.group g).holders = [] ∧ (t.group g).queue = [] ∧ (t.group g).hangDeadline = none ∧
        t.group g = { s.group g with
          holders := [], queue := [], hangDeadline := none,
          recorder := if (s.group g).hootLines = [] then none else (s.group g).recorder }) ∧
      (∀ c x, ends c → (s.chan c).session = some x → t.chan c = { s.chan c with
        state := .draining, segPending := false, session := none, closeDone := false, frameSeen := false, placed := none,
        closeRecord := some { x with
          endFrame := some s.ru.frameNo, endTime := some s.ft.floor, cause := some .restart } }) ∧
      (∀ c, ¬ends c ∨ (s.chan c).session = none → t.chan c = s.chan c) ∧
      (∀ i, t.pu.queues.get i = [] ∧ t.pu.assembly.get i = ⟨none, .replicate 32 none⟩ ∧
        t.pu.totals.get i = { s.pu.totals.get i with
          flushed := (s.pu.totals.get i).flushed + BitVec.ofNat 32 (s.pu.queues.get i).length } ∧
        t.me.last.get i = { s.me.last.get i with kind := .none }) ∧
      (∀ j, t.pu.store.get j = []) ∧
      t.cu = { v.cu.afterEvents floor with fault := released }.afterDone .ok ∧ t.cu.fault = released ∧
      t.cu.execution = .idle ∧ t.cu.taken = s.cu.taken + 1 ∧
      (∃ more, t.pu.own = s.pu.own ++ more) ∧ t.pu.own = v.pu.own ++ v.cu.slotWrites floor ++
        completionWrites s { v.cu.afterEvents floor with fault := released } .ok ∧
      t = { s with
        lc := { t.lc with maps := s.lc.maps }, rc := t.rc, fc := t.fc, me := { s.me with last := t.me.last },
        ru := { s.ru with channels := t.ru.channels }, cu := t.cu,
        pu := { s.pu with queues := t.pu.queues, assembly := t.pu.assembly, totals := t.pu.totals, store := t.pu.store,
                          own := t.pu.own } }

/-! ### The command ring, the event ring and the log -/

/-- R164: a command post value that the ring cannot hold is reported and ignored; any other becomes the posted count, in
every execution state, and nothing else changes. -/
def Obligations.CommandPostIsTaken : Prop :=
  ∀ (v : Word) (s : State), s.running = true →
    (s.cu.cmdSize < (v - s.cu.taken).toNat →
      ∃ t, exec (.commandPost v) s = .next t ∧ Posts [.commandRingFault v s.cu.taken] s t ∧
        t = { s with handed := t.handed, cu := t.cu, pu := t.pu } ∧ t.cu.posted = s.cu.posted ∧
        t.cu.taken = s.cu.taken ∧ t.cu.execution = s.cu.execution ∧ t.cu.inHand = s.cu.inHand) ∧
    ((v - s.cu.taken).toNat ≤ s.cu.cmdSize →
      ∃ t, exec (.commandPost v) s = .next t ∧ t = { s with handed := t.handed, cu := { s.cu with posted := v } })

/-- R165: a fetch is asked for the next slot only while IDLE with commands posted and four backlog places free; the slot's
tag and kind become the current ones, and the command is handed on, or completes MEMORY_ERROR or BAD_COMMAND. Model's choice:
log 10. -/
def Obligations.FetchHandsCommand : Prop :=
  (∀ s : State, s.running = true →
    (s.cu.execution = .idle → s.cu.posted ≠ s.cu.taken → s.cu.backlog.length + 4 ≤ 32 →
      ∃ (t : State) (a : OwnAccess), exec .commandFetch s = .next t ∧ t.pu.own = s.pu.own ++ [a] ∧
        a.purpose = .commandFetch ∧
        a.addr = s.cu.cmdBase + BitVec.ofNat 36 (32 * (s.cu.taken.toNat % s.cu.cmdSize)) ∧
        a.behind = (s.pu.passWaiting.filter fun x => match x with | .write _ => true | .read _ => false).length ∧
        t = { s with cu := { s.cu with execution := .fetching }, pu := { s.pu with own := t.pu.own } }) ∧
    (s.cu.execution ≠ .idle ∨ s.cu.posted = s.cu.taken ∨ 32 < s.cu.backlog.length + 4 → exec .commandFetch s = .next s)) ∧
  (∀ (a : OwnAccess) (slot : Table 32 Byte) (s u : State),
    let current (v : State) : State := { v with cu := { v.cu with
      curTag := BitVec.ofNat 32 (leAt slot.rows 0 4), curKind := byteAt slot.rows 4 } }
    s.running = true → s.cu.execution = .fetching → Returns Purpose.isFetch 0 a s u →
    (∀ c, decodeSlot slot.rows = some c → exec (.commandFetchResponse false slot) s =
      .next { current u with cu := { (current u).cu with execution := .executing, inHand := some c } }) ∧
    (decodeSlot slot.rows = none →
      exec (.commandFetchResponse false slot) s = .next (complete .badCommand (current u))) ∧
    (∃ v, exec (.commandFetchResponse true slot) s = .next (complete .memoryError v) ∧
      v.cu.fault = faultAfter a s.cu.fault ∧
      Posts [.fault .memoryError .commandFetch a.addr (satSucc s.cu.fault.count)]
        { current u with cu := { (current u).cu with fault := faultAfter a s.cu.fault } } v ∧
      v = { u with cu := v.cu, pu := v.pu }))

/-- R155, R156, R168: a consumed value that the ring or the log cannot hold only counts; any other is taken. Waiting events
then go into the ring, oldest first, and waiting close records into the log, in channel order and under consecutive counts,
only while there is room. Model's choice: log 1. -/
def Obligations.ConsumedWordsMakeRoom : Prop :=
  (∀ (v : Word) (s : State), s.running = true →
     let u : State := { s with handed := s.handed.erase (.eventConsumed v) }
     (s.cu.evSize < (s.cu.evProduced - v).toNat →
       exec (.eventConsumed v) s = .next { u with cu := { s.cu with evFaults := s.cu.evFaults + 1 } }) ∧
     ((s.cu.evProduced - v).toNat ≤ s.cu.evSize → ∃ (t : State) (n : Nat),
       exec (.eventConsumed v) s = .next t ∧ n ≤ s.cu.backlog.length ∧
       (∀ m, m < n → (s.cu.evProduced + BitVec.ofNat 32 m - v).toNat < s.cu.evSize) ∧
       t.cu = { s.cu with evConsumed := v, evProduced := s.cu.evProduced + BitVec.ofNat 32 n,
                          backlog := s.cu.backlog.drop n } ∧
       (n < s.cu.backlog.length → t.cu.room = false) ∧
       t.pu = { s.pu with own := s.pu.own ++ (s.cu.backlog.take n).zipIdx.map fun e =>
         let i := s.cu.evProduced + BitVec.ofNat 32 e.2
         ⟨.eventSlot i, s.cu.evBase + BitVec.ofNat 36 (16 * (i.toNat % s.cu.evSize)), e.1.bytes, 0⟩ } ∧
       t = { u with cu := t.cu, pu := t.pu })) ∧
  (∀ (v : Word) (s : State), s.running = true →
     let u : State := { s with handed := s.handed.erase (.logConsumed v) }
     (s.ru.logSize < (s.ru.produced - v).toNat →
       exec (.logConsumed v) s = .next { u with ru := { s.ru with logFaults := s.ru.logFaults + 1 } }) ∧
     ((s.ru.produced - v).toNat ≤ s.ru.logSize → ∃ (t : State) (n : Nat), exec (.logConsumed v) s = .next t ∧
       let waiting : List ChanId := (List.finRange 32).filter fun c => (s.chan c).waits && (s.chan c).closeRecord.isSome
       let index (m : Nat) : Word := s.ru.produced + BitVec.ofNat 32 m
       t.ru.consumed = v ∧ t.ru.produced = index n ∧ n ≤ waiting.length ∧
       (∀ m, m < n → (index m - v).toNat < s.ru.logSize) ∧ (t.ru.produced - v).toNat ≤ s.ru.logSize ∧
       (n < waiting.length → s.ru.logSize ≤ (t.ru.produced - v).toNat) ∧
       (∀ m c, waiting[m]? = some c →
         t.chan c = if m < n then { s.chan c with placed := some (index m) } else s.chan c) ∧
       (∀ c, c ∉ waiting → t.chan c = s.chan c) ∧
       t.pu.own = s.pu.own ++ (waiting.take n).zipIdx.filterMap (fun e => (s.chan e.1).closeRecord.map fun x =>
         ⟨.closeRecord (index e.2), s.ru.logBase + BitVec.ofNat 36 (64 * ((index e.2).toNat % s.ru.logSize)),
           x.logRecord, 0⟩) ∧
       t = { u with ru := { s.ru with channels := t.ru.channels, produced := t.ru.produced, consumed := v },
                    pu := { s.pu with own := t.pu.own } }))

/-- R155, R168: when the write of a slot returns that was the earliest not yet answered, the index word is asked for with the
count up to the next that is not, or all produced; a close record that a written log produced word counts frees its channel.
An error response counts as written: after the fault has been recorded and told it does all the same. Model's choices: logs
10, 11 and 39. -/
def Obligations.SlotResponsesMoveIndex : Prop :=
  (∀ (k : Nat) (a : OwnAccess) (i : Word) (s u : State),
    let open_ := (s.pu.flight ++ s.pu.own).filterMap fun x => x.purpose.slotIndex
    let announced (v : State) (rest : List Word) : State := { v with pu := { v.pu with
      own := v.pu.own ++ [⟨.eventProduced (rest.head?.getD s.cu.evProduced), controlAddr s 8,
        wordBytes (rest.head?.getD s.cu.evProduced), 0⟩] } }
    s.running = true → Returns Purpose.isEventSlot k a s u → a.purpose = .eventSlot i →
    (∀ rest, open_ = i :: rest → exec (.eventWriteResponse k false) s = .next (announced u rest)) ∧
    (∀ j rest, open_ = j :: rest → j ≠ i → exec (.eventWriteResponse k false) s = .next u) ∧
    (∃ v, ToldFault a .eventWrite u v ∧
      (∀ rest, open_ = i :: rest → exec (.eventWriteResponse k true) s = .next (announced v rest)) ∧
      (∀ j rest, open_ = j :: rest → j ≠ i → exec (.eventWriteResponse k true) s = .next v))) ∧
  (∀ (k : Nat) (a : OwnAccess) (s u : State), s.running = true → Returns Purpose.isLogWrite k a s u →
    let open_ := (s.pu.flight ++ s.pu.own).filterMap fun x => x.purpose.recordIndex
    let announced (v : State) (rest : List Word) : State := { v with pu := { v.pu with
      own := v.pu.own ++ [⟨.logProduced (rest.head?.getD s.ru.produced), controlAddr s 16,
        wordBytes (rest.head?.getD s.ru.produced), 0⟩] } }
    let written (count : Word) (v t : State) : Prop :=
      (∀ c, t.chan c = if (s.chan c).state = .draining ∧ ∃ i, (s.chan c).placed = some i ∧
          0 < (count - i).toNat ∧ (count - i).toNat < 2 ^ 31
        then { s.chan c with state := .free, subject := none, closeRecord := none, closeDone := false, frameSeen := false,
                             placed := none }
        else s.chan c) ∧
      t = { v with ru := { s.ru with channels := t.ru.channels } }
    (∀ i rest, a.purpose = .closeRecord i → open_ = i :: rest →
      exec (.logWriteResponse k false) s = .next (announced u rest)) ∧
    (∀ i j rest, a.purpose = .closeRecord i → open_ = j :: rest → j ≠ i → exec (.logWriteResponse k false) s = .next u) ∧
    (∀ count, a.purpose = .logProduced count → ∃ t, exec (.logWriteResponse k false) s = .next t ∧ written count u t) ∧
    (∃ v, ToldFault a .logWrite u v ∧
      (∀ i rest, a.purpose = .closeRecord i → open_ = i :: rest →
        exec (.logWriteResponse k true) s = .next (announced v rest)) ∧
      (∀ i j rest, a.purpose = .closeRecord i → open_ = j :: rest → j ≠ i → exec (.logWriteResponse k true) s = .next v) ∧
      (∀ count, a.purpose = .logProduced count → ∃ t, exec (.logWriteResponse k true) s = .next t ∧ written count v t)))

/-- R126, R170: responses that bring about nothing but, on an error, the recording of a memory fault: to the index words, to
line control words, and to the status word, whose fault posts no event where it was written before RUNNING. Model's choices:
logs 10 and 27. -/
def Obligations.PlainResponsesReturn : Prop :=
  ∀ (k : Nat) (a : OwnAccess) (s u : State),
    let failed : State := { u with cu := { u.cu with fault := faultAfter a s.cu.fault } }
    let told (t : State) : Prop :=
      Posts [.fault .memoryError a.purpose.kind a.addr (satSucc s.cu.fault.count)] failed t ∧
      t = { failed with cu := t.cu, pu := t.pu }
    (s.running = true → Returns Purpose.isIndexWord k a s u →
      exec (.indexWordWriteResponse k false) s = .next u ∧
      ∃ t, exec (.indexWordWriteResponse k true) s = .next t ∧ told t) ∧
    (s.running = true → Returns (fun p => p.kind == .lineControl) k a s u →
      exec (.controlWordWriteResponse k false) s = .next u ∧
      ∃ t, exec (.controlWordWriteResponse k true) s = .next t ∧ told t) ∧
    (Returns Purpose.isStatusWord k a s u →
      exec (.statusWordWriteResponse k false) s = .next u ∧
      (s.running = true → a.purpose = .statusWord .running →
        ∃ t, exec (.statusWordWriteResponse k true) s = .next t ∧ told t) ∧
      (s.running = false ∨ a.purpose ≠ .statusWord .running →
        exec (.statusWordWriteResponse k true) s = .next failed))

/-! ### Signal words and deadlines -/

/-- R5 to R7, R42: a signal word that differs is stored; out of service nothing follows; a far end on hook clears a held or
recalling line; a rising ring_indicator rings an IDLE line and a falling one abandons a ring that is no recall; any other
change is stored and told. Model's choice: log 1. -/
def Obligations.SignalWordActs : Prop :=
  ∀ (l : LineId) (w : Word) (s : State),
    let c : Instr := .signalWord l w
    let far : Hook := if w.getLsbD 0 then .offHook else .onHook
    let ind : RingInd := if w.getLsbD 1 then .ringing else .quiet
    let r := s.line l
    let u : State := { s with handed := s.handed.erase (.signalWord l w) }
    let stored (v : State) : Prop :=
      v.line l = { r with farEnd := far, ringInd := ind } ∧ OnlyLine l s v ∧
      v = { u with lc := { s.lc with lines := v.lc.lines } }
    let toldFarEnd (v x : State) : Prop :=
      (far = r.farEnd → x = v) ∧
      (far ≠ r.farEnd → Posts [.farEnd l far] v x ∧ x = { v with cu := x.cu, pu := x.pu })
    let recalls : Prop := ∃ ring, s.ring l = some ring ∧ ring.phase = .recall
    s.running = true →
    (far = r.farEnd → ind = r.ringInd → exec c s = .next u) ∧
    (r.state = .outOfService → ∃ v, stored v ∧ exec c s = .next v) ∧
    (r.state = .connected ∨ r.state = .bridged ∨ (r.state = .idle ∧ (r.type = .hoot ∨ ind = r.ringInd ∨ ind = .quiet)) ∨
      (r.state = .held ∧ (far = r.farEnd ∨ far = .offHook)) ∨
      (r.state = .ringing ∧ (far = r.farEnd ∨ far = .offHook ∨ ¬recalls) ∧
        (r.type = .hoot ∨ ind = r.ringInd ∨ ind = .ringing ∨ recalls)) →
      ∃ v x, stored v ∧ toldFarEnd v x ∧ exec c s = .next x) ∧
    (far ≠ r.farEnd → far = .onHook → r.state = .held ∨ (r.state = .ringing ∧ recalls) →
      ∃ v x, stored v ∧ toldFarEnd v x ∧ exec c s = .next (clearLine l .farEndClear .idle x)) ∧
    (r.state = .idle → r.type ≠ .hoot → ind ≠ r.ringInd → ind = .ringing →
      ∃ v x, stored v ∧ toldFarEnd v x ∧ exec c s = .next (enterRinging l x)) ∧
    (∀ ring, r.state = .ringing → r.type ≠ .hoot → s.ring l = some ring → ring.phase ≠ .recall → ind ≠ r.ringInd →
      ind = .quiet →
      ∃ v x t, stored v ∧ toldFarEnd v x ∧ exec c s = .next t ∧
        t.line l = { r with farEnd := far, ringInd := ind, state := .idle, missed := min (r.missed + 1) 65535 } ∧
        OnlyLine l s t ∧
        t.ring l = none ∧ (∀ m, m ≠ l → t.ring m = s.ring m) ∧
        (∀ p, t.posRing p = movedCounts false ring.shown 0 p (s.posRing p)) ∧
        Posts ([.ringEnd l .abandoned none] ++ alertChanges s ring.shown 0 ++ [.lineState l .idle .abandoned]) x t ∧
        t = { x with lc := { s.lc with lines := t.lc.lines }, rc := t.rc, cu := t.cu, pu := t.pu })

/-- R5: no command but a signal word and the resets moves a line's stored far_end or ring_indicator. -/
def Obligations.OnlySignalWordsMoveSignals : Prop :=
  ∀ (c : Instr) (s t : State) (l : LineId), exec c s = .next t →
    (∀ w, c ≠ .signalWord l w) → (∀ straps, c ≠ .powerOn straps ∧ c ≠ .resetN straps) →
    (t.line l).farEnd = (s.line l).farEnd ∧ (t.line l).ringInd = (s.line l).ringInd

/-- R20, R32, R34: a due hold recall rings the line at the position that held it; a due ring delay widens the ring to every
position whose map holds the line; a deadline that is absent or not due does nothing. A deadline is due from the frame event
of its number on, and not while that number lies ahead. Model's choice: log 5. -/
def Obligations.LineDeadlinesExpire : Prop :=
  (∀ (d : Word) (s : State),
    (s.due d = true ↔ (s.ft.counter - d).toNat < 2 ^ 31) ∧ (s.ft.counter = d → s.due d = true) ∧
    (∀ k : Nat, 0 < k → k < 2 ^ 31 → d = s.ft.counter + BitVec.ofNat 32 k → s.due d = false)) ∧
  (∀ (l : LineId) (d : Word) (p : PosId) (s : State), s.running = true →
    let c : Instr := .holdRecallExpiry l
    ((s.line l).state ≠ .held ∨ (s.line l).recallDeadline = none ∨
      (∃ e, (s.line l).recallDeadline = some e ∧ s.due e = false) → exec c s = .next s) ∧
    ((s.line l).state = .held → (s.line l).recallDeadline = some d → (s.line l).heldBy = some p → s.due d = true →
      ∃ t, exec c s = .next t ∧
        t.line l = { s.line l with state := .ringing, recallDeadline := none, heldBy := none, ctlPending := true } ∧
        OnlyLine l s t ∧
        RingMoves l true 0 (onlyPos p) (some ⟨.recall, onlyPos p, none, some p⟩)
          [.holdRecall l p, .lineState l .ringing .recall, .ringStart l .recall (some p)] s t ∧
        t = { s with lc := { s.lc with lines := t.lc.lines }, rc := t.rc, cu := t.cu, pu := t.pu })) ∧
  (∀ (l : LineId) (r : RingRec) (d : Word) (s : State), s.running = true →
    let c : Instr := .ringDelayExpiry l
    (s.ring l = none → exec c s = .next s) ∧
    (s.ring l = some r → r.phase ≠ .preferred ∨ r.delayDeadline = none → exec c s = .next s) ∧
    (s.ring l = some r → r.phase = .preferred → r.delayDeadline = some d →
      (s.due d = false → exec c s = .next s) ∧
      (s.due d = true → ∃ (t : State) (shown : PosSet), exec c s = .next t ∧
        (∀ p, inSet shown p = s.appears p l) ∧
        RingMoves l false r.shown shown (some ⟨.general, shown, none, none⟩) [.ringPhase l .expiry] s t ∧
        t = { s with rc := t.rc, cu := t.cu, pu := t.pu })))

/-- R55, R56, R66: a request whose queue deadline is due leaves the queue; a holder whose talk deadline is due loses its
place, which the grant pass gives on, or the hang starts; a due hang ends the group's session. The first due entry of a list
is taken (log 6). Model's choice: log 5. -/
def Obligations.FloorDeadlinesExpire : Prop :=
  ∀ (g : GroupId) (before after : List FloorEntry) (e : FloorEntry) (s : State), s.running = true →
    let r := s.group g
    (∀ x : FloorEntry, entryDue s x = true ↔ ∃ d, x.deadline = some d ∧ (s.ft.counter - d).toNat < 2 ^ 31) ∧
    ((∀ x ∈ r.queue, entryDue s x = false) → exec (.queueTimeoutExpiry g) s = .next s) ∧
    (r.queue = before ++ e :: after → (∀ x ∈ before, entryDue s x = false) → entryDue s e = true →
      ∃ t, exec (.queueTimeoutExpiry g) s = .next t ∧ t.group g = { r with queue := before ++ after } ∧ OnlyGroup g s t ∧
        Posts [.floorTimeout g e.pos] s t ∧ t = { s with fc := t.fc, cu := t.cu, pu := t.pu }) ∧
    ((∀ x ∈ r.holders, entryDue s x = false) → exec (.talkLimitExpiry g) s = .next s) ∧
    (r.holders = before ++ e :: after → (∀ x ∈ before, entryDue s x = false) → entryDue s e = true →
      ∃ u, u.group g = { r with holders := before ++ after } ∧ OnlyGroup g s u ∧
        Posts [.floorRevoked g e.pos .talkLimit] s u ∧ u = { s with fc := u.fc, cu := u.cu, pu := u.pu } ∧
        exec (.talkLimitExpiry g) s = .next (startHang g (grantPass g u))) ∧
    (r.hangDeadline = none ∨ (∃ d, r.hangDeadline = some d ∧ s.due d = false) → exec (.hangExpiry g) s = .next s) ∧
    (∀ d k, r.hangDeadline = some d → s.due d = true → r.recorder = some k →
      ∃ t, exec (.hangExpiry g) s = .next t ∧ t.group g = { r with hangDeadline := none, recorder := none } ∧
        OnlyGroup g s t ∧ t = { s with fc := t.fc, ru := (sessionEnd k .groupSilent s).ru })

/-! ### Frame clock and floor time -/

/-- R129 to R134, R177: the pulses, the pulse watch and the freewheel timer. `made` says that a frame event was made: the
next number, floor time on by 1 ms where it is SET, and the Mixing Engine handed the number. Model's choice: log 4. -/
def Obligations.FrameClockFollowsPulses : Prop :=
  ∀ (at_ e : Nat) (s : State), s.running = true →
    let f := s.ft
    let n := f.counter + 1
    let made (v : FrameTimer) : FrameTimer :=
      { v with counter := n, floor := if f.timeSet = .set then f.floor + 1 else f.floor }
    let pulse : Instr := .frameInPulse at_
    let now := max f.clock at_
    let reference (good : Nat) : Prop :=
      exec pulse s = .next { s with ft := { f with
        clock := now, watch := .acquiring, refPulse := some at_, good := good,
        watchTimer := some (at_ + 3 * f.clkPerMs) } }
    (f.watch = .locked → exec pulse s = .next { s with
      ft := made { f with clock := now, watchTimer := some (at_ + 3 * f.clkPerMs) }
      me := { s.me with waiting := s.me.waiting ++ [n] } }) ∧
    (f.watch = .freewheel ∨ (f.watch = .acquiring ∧ f.refPulse = none) → reference 0) ∧
    (∀ r, f.watch = .acquiring → f.refPulse = some r →
      let good : Prop := 95 * f.clkPerMs / 100 ≤ at_ - r ∧ at_ - r ≤ (105 * f.clkPerMs + 99) / 100
      (¬good → reference 0) ∧ (good → f.good ≠ 7 → reference (f.good + 1)) ∧
      (good → f.good = 7 → ∃ t, exec pulse s = .next t ∧
        t.ft = made { f with clock := now, watch := .locked, freeTimer := none, refPulse := none, good := 0,
                             watchTimer := some (at_ + 3 * f.clkPerMs) } ∧
        Posts [.clockRestored n] s t ∧
        t = { s with ft := t.ft, me := { s.me with waiting := s.me.waiting ++ [n] }, cu := t.cu, pu := t.pu })) ∧
    (f.watchTimer = none → exec .pulseWatchExpiry s = .next s) ∧
    (f.watchTimer = some e → f.watch = .locked → ∃ t, exec .pulseWatchExpiry s = .next t ∧
      t.ft = made { f with clock := max f.clock e, watch := .freewheel, watchTimer := none,
                           clockLosses := f.clockLosses + 1, freeTimer := some (e + f.clkPerMs) } ∧
      Posts [.clockLost f.counter] s t ∧
      t = { s with ft := t.ft, me := { s.me with waiting := s.me.waiting ++ [n] }, cu := t.cu, pu := t.pu }) ∧
    (f.watchTimer = some e → f.watch = .acquiring → exec .pulseWatchExpiry s = .next { s with ft := { f with
      clock := max f.clock e, watch := .freewheel, refPulse := none, good := 0, watchTimer := none } }) ∧
    (f.freeTimer = none → exec .freewheelTimerExpiry s = .next s) ∧
    (f.freeTimer = some e → exec .freewheelTimerExpiry s = .next { s with
      ft := made { f with clock := max f.clock e, freeTimer := some (e + f.clkPerMs) }
      me := { s.me with waiting := s.me.waiting ++ [n] } })

/-- R136 to R140, R159: a sync word. The difference is taken as a signed 48-bit number. Model's choice: log 1. -/
def Obligations.SyncWordSetsFloorTime : Prop :=
  ∀ (w : BitVec 128) (s : State), s.running = true →
    let v : FloorTime := w.extractLsb' 0 48
    let imperative := w.getLsbD 64
    let d := (v - s.ft.floor).toInt
    let u : State := { s with handed := s.handed.erase (.timeSync w) }
    let stepped (reason : StepReason) (mismatch : Word) : Prop :=
      ∃ t, exec (.timeSyncWord w) s = .next t ∧
        t.ft = { s.ft with timeSet := .set, floor := v, mismatches := 0, syncMismatch := mismatch } ∧
        Posts [.timeStep s.ft.floor v reason] s t ∧
        (∀ c, t.chan c = if (s.chan c).state = .active
          then { s.chan c with session := (s.chan c).session.map fun x => { x with timeStepped := true } }
          else s.chan c) ∧
        t = { u with ft := t.ft, ru := { s.ru with channels := t.ru.channels }, cu := t.cu, pu := t.pu }
    (s.ft.timeSet = .unset → stepped .initial s.ft.syncMismatch) ∧
    (s.ft.timeSet = .set → imperative = true → d ≠ 0 → stepped .imperative s.ft.syncMismatch) ∧
    (s.ft.timeSet = .set → (imperative = true ∧ d = 0) ∨ (imperative = false ∧ -1 ≤ d ∧ d ≤ 1) →
      exec (.timeSyncWord w) s = .next { u with ft := { s.ft with mismatches := 0 } }) ∧
    (s.ft.timeSet = .set → imperative = false → d < -1 ∨ 1 < d →
      (s.ft.mismatches < 2 → exec (.timeSyncWord w) s = .next { u with ft := { s.ft with
        syncMismatch := s.ft.syncMismatch + 1, mismatches := s.ft.mismatches + 1 } }) ∧
      (2 ≤ s.ft.mismatches → stepped .mismatch (s.ft.syncMismatch + 1)))

/-! ### Audio -/

/-- R93: a source sample enters its bus as the product with the gain, rounded with halves towards plus infinity; the value
lies in 16 bits, pad 0 leaves it unchanged, gain 0 makes it 0, and the bus and every exclusion that names the source use the
same value. -/
def Obligations.SourceEntersBusRounded : Prop :=
  ∀ (x : Sample) (pad : Nat),
    (0 ≤ gain pad ∧ gain pad ≤ 16384) ∧
    enterBus x pad = ⌊((x.toInt : ℚ) * (gain pad : ℚ) + 8192) / 16384⌋ ∧
    (-32768 ≤ enterBus x pad ∧ enterBus x pad ≤ 32767) ∧ enterBus x 0 = x.toInt ∧ (gain pad = 0 → enterBus x pad = 0) ∧
    ∀ (values : Table 120 Frame) (terms : List SourceTerm) (k : Fin 16),
      busValue values terms k = (terms.map fun t => enterBus ((values.get t.source).get k) t.pad).sum ∧
      ∀ t ∈ terms, (terms.map (·.source)).Nodup →
        exclValue values terms (some t.source) k = enterBus ((values.get t.source).get k) t.pad

/-- R75, R78 to R80, R95: a bus less the exclusion of one of its sources is the exact sum of its other terms. So nobody in a
conversation hears itself: on a CONNECTED line the far end's mix is the rounded microphones of the owners, and an owner's
earpiece the far end and the other owners, each once. -/
def Obligations.OwnersHearTheOthers : Prop :=
  (∀ (values : Table 120 Frame) (terms : List SourceTerm) (i : SourceId) (k : Fin 16),
     (terms.map (·.source)).Nodup → (∃ t ∈ terms, t.source = i) →
     busValue values terms k - exclValue values terms (some i) k =
       ((terms.filter fun t => t.source != i).map fun t => enterBus ((values.get t.source).get k) t.pad).sum) ∧
  (∀ (values : Table 120 Frame) (tones : Table 3 Frame) (l : LineId) (h : Handset) (k : Fin 16) (s : State), LineLaw s →
     let r := s.line l
     let micOf (j : Handset) : Int := enterBus ((values.get j.source).get k) (s.handset j).micPad
     let farEnd : Int := enterBus ((values.get (lineSource l)).get k) r.pad
     let out := listenerTerms s ⟨l.val, by omega⟩
     let ear := listenerTerms s ⟨96 + 4 * h.pos.val + (match h.side with | .left => 0 | .right => 1), by
       cases h.side <;> simp <;> omega⟩
     r.state = .connected →
     listenerSum (derivePlan s) values tones out k = (r.owners.map micOf).sum ∧
     (h ∈ r.owners → listenerSum (derivePlan s) values tones ear k =
       roundGain ((farEnd + ((r.owners.filter (· != h)).map micOf).sum) * gain (min (s.handset h).volume 72))))

/-- R74, R94 to R99, R102, R103, R118, R120: the Mixing Engine takes a frame event. An output is the sum over a listener's
terms of operand less exclusion times gain, rounded once after the sum, and 0 for no terms. Model's choice: log 33. -/
def Obligations.FrameEventMixes : Prop :=
  (∀ (n : Word) (rest : List Word) (s : State), s.running = true → s.me.waiting = n :: rest →
    let plan := derivePlan s
    ∃ (t : State) (value : Table 120 Frame) (frame : Table 160 Frame), exec .frameEventMix s = .next t ∧
      t.me.waiting = rest ∧
      (∀ i f q, s.pu.queues.get i = f :: q →
        value.get i = f ∧ t.pu.queues.get i = q ∧ t.me.last.get i = ⟨.captured, f⟩ ∧
        t.me.underrun.get i = s.me.underrun.get i ∧
        t.pu.totals.get i = { s.pu.totals.get i with taken := (s.pu.totals.get i).taken + 1 }) ∧
      (∀ i, s.pu.queues.get i = [] →
        let last := s.me.last.get i
        t.pu.queues.get i = [] ∧ t.pu.totals.get i = s.pu.totals.get i ∧ (t.me.last.get i).frame = last.frame ∧
        (referenced plan.buses i = false → value.get i = silence ∧ (t.me.last.get i).kind = .none ∧
          t.me.underrun.get i = s.me.underrun.get i) ∧
        (referenced plan.buses i = true → t.me.underrun.get i = s.me.underrun.get i + 1 ∧
          (last.kind = .captured → (t.me.last.get i).kind = .concealed ∧
            ∀ k, ((value.get i).get k).toInt = ⌊((last.frame.get k).toInt : ℚ) / 2⌋) ∧
          (last.kind ≠ .captured → (t.me.last.get i).kind = .silent ∧ value.get i = silence))) ∧
      (∀ j, let y (k : Fin 16) : Int := listenerSum plan value
              (.build fun x => toneFrame (s.me.tones.get x) (s.me.phase.get x) n) (listenerTerms s j) k
        (∀ k, ((frame.get j).get k).toInt = max (-32768) (min (y k) 32767)) ∧
        t.me.saturation.get j = s.me.saturation.get j +
          BitVec.ofNat 32 ((List.finRange 16).filter fun k => decide (y k < -32768 ∨ 32767 < y k)).length ∧
        t.pu.store.get j = (s.pu.store.get j ++ [(⟨n, frame.get j⟩ : StoredFrame)]).drop ((s.pu.store.get j).length - 3)) ∧
      (∀ x, t.me.phase.get x = if s.me.phase.get x + 1 < (s.me.tones.get x).onFrames + (s.me.tones.get x).offFrames
        then s.me.phase.get x + 1 else 0) ∧
      (∃ f, t.ru.inbox = s.ru.inbox ++ [⟨n, f⟩] ∧ ∀ c, f.get c = frame.get (recorderListener c)) ∧
      t = { s with
        me := { t.me with tones := s.me.tones }
        pu := { s.pu with queues := t.pu.queues, totals := t.pu.totals, store := t.pu.store }
        ru := { s.ru with inbox := t.ru.inbox } }) ∧
  (∀ (plan : Plan) (values : Table 120 Frame) (tones : Table 3 Frame) (terms : List Term) (k : Fin 16),
    let entered (u : SourceTerm) : Int := enterBus ((values.get u.source).get k) u.pad
    let operand (x : Term) : Int := match x.operand with
      | .tone tone => ((tones.get tone.idx).get k).toInt
      | .bus b => ((plan.bus b).map entered).sum
    let exclusion (x : Term) : Int := match x.operand, x.excl with
      | .bus b, some i => (((plan.bus b).find? fun u => u.source == i).map entered).getD 0
      | _, _ => 0
    let acc : Int := (terms.map fun x => (operand x - exclusion x) * gain x.att).sum
    let y := listenerSum plan values tones terms k
    16384 * y ≤ acc + 8192 ∧ acc + 8192 < 16384 * (y + 1) ∧ (terms = [] → y = 0))

/-- R121, R122: a read in the Outbound Region is answered from the Output Store, zero where no frame is held, which counts
once for each slot; any other read is forwarded. One classification serves both rows of reads. Model's choices: logs 14, 15
and 32. -/
def Obligations.ReadsAreAnsweredOrForwarded : Prop :=
  ∀ (b : Burst) (s : State), burstOk b = true → ∀ c : Instr, c = .upstreamRead b ∨ c = .outboundRead b →
    ((∀ base, s.pu.regions.outbound = some base → ¬(base.toNat ≤ b.addr.toNat ∧ b.addr.toNat < base.toNat + 65536)) →
      exec c s = .next { s with pu := { s.pu with passWaiting := s.pu.passWaiting ++ [.read b] } }) ∧
    (∀ base, s.pu.regions.outbound = some base → base.toNat ≤ b.addr.toNat → b.addr.toNat < base.toNat + 65536 →
      let offsets := (burstBytes b).map (· - base.toNat)
      ∃ (t : State) (data : List Byte), exec c s = .next t ∧ t.pu.answer = some (.outbound b data) ∧
        data.length = offsets.length ∧
        (∀ (i x : Nat) (j : ListenerId) (f : StoredFrame), offsets[i]? = some x → x / 256 = j.val → f ∈ s.pu.store.get j →
          f.number.toNat % 8 = x % 256 / 32 → (∀ f' ∈ s.pu.store.get j, f'.number.toNat % 8 = f.number.toNat % 8 → f' = f) →
          data[i]? = (frameBytes f.frame)[x % 32]?) ∧
        (∀ i x : Nat, offsets[i]? = some x →
          (∀ (j : ListenerId) (f : StoredFrame), x / 256 = j.val → f ∈ s.pu.store.get j → f.number.toNat % 8 ≠ x % 256 / 32) →
          data[i]? = some 0) ∧
        (∀ j : ListenerId, t.pu.unheld.get j = s.pu.unheld.get j +
          BitVec.ofNat 32 ((List.range 8).filter fun k => decide (8 * j.val + k ∈ offsets.map (· / 32)) &&
            !((s.pu.store.get j).any fun f => f.number.toNat % 8 == k)).length) ∧
        t = { s with pu := { s.pu with answer := t.pu.answer, unheld := t.pu.unheld } })

/-! ### The recorder -/

/-- R149 to R151, R154, R155, R157: the Recorder Unit takes the frames of a frame event, channels in number order. An ACTIVE
channel writes its frame at the fill of a current buffer of the part's, passing a full buffer on, and else loses it, telling
the first loss of a run; no other frame is written. Its segment, when due, is then placed in the log with cause SEGMENT and a
new session opens, naming the old one; without room it stays pending. A DRAINING channel with no write outstanding does its
close step: a short buffer is passed on with final = yes and the record placed, or it waits. `turn` and `next` are the log's
produced count and the next session number at each channel's turn, `ev` the events of each channel. SESSION_SEGMENT is the
taking of the recorder frames at which the channel's segment is due. Model's choices: logs 7 and 11. -/
def Obligations.RecorderFramesAndSegments : Prop :=
  (∀ (r : RecFrames) (rest : List RecFrames) (s : State), s.running = true → s.ru.inbox = r :: rest →
     let n := r.number
     let room (count : Word) : Bool := decide ((count - s.ru.consumed).toNat < s.ru.logSize)
     let cuts (c : ChanId) (x : Session) : Prop := (s.chan c).state = .active ∧ (s.chan c).session = some x ∧
       ((s.chan c).segPending = true ∨ (0 < s.ru.segLen ∧ n = x.startFrame + BitVec.ofNat 32 s.ru.segLen))
     let closing (c : ChanId) : Prop :=
       (s.chan c).state = .draining ∧ (s.chan c).closeDone = false ∧ (s.chan c).outstanding = 0
     let wants (c : ChanId) : Prop := (∃ x, cuts c x) ∨ (closing c ∧ (s.chan c).closeRecord ≠ none)
     let recordAt (i : Word) (x : Session) : OwnAccess :=
       ⟨.closeRecord i, s.ru.logBase + BitVec.ofNat 36 (64 * (i.toNat % s.ru.logSize)), x.logRecord, 0⟩
     let parties (x : Subject) : List PosId := match x with
       | .line l => (s.line l).owners.foldl (fun ps h => addParty h.pos ps) []
       | .group g => (s.group g).holders.map (·.pos)
     let written (c : ChanId) : Option OwnAccess := match (s.chan c).state, (s.chan c).session, (s.chan c).here.owner with
       | .active, some x, .part =>
         some ⟨.frameWrite c (s.chan c).current n x.number, (s.chan c).here.fill, frameBytes (r.frames.get c), 0⟩
       | _, _, _ => none
     ∃ (t : State) (turn next : Nat → Word) (ev : ChanId → List Event) (more : List OwnAccess) (placed : Nat),
       exec .recorderFrames s = .next t ∧
       t.ru.inbox = rest ∧ t.ru.frameNo = n ∧ t.cu = s.cu.afterEvents ((List.finRange 32).flatMap ev) ∧
       t.pu = { s.pu with own := s.pu.own ++ more } ∧
       more.filter (fun b => b.purpose.isFrameWrite) = (List.finRange 32).filterMap written ∧
       more.filterMap (fun b => b.purpose.recordIndex) =
         (List.range placed).map (fun m => s.ru.produced + BitVec.ofNat 32 m) ∧
       placed ≤ 32 ∧ t.ru.produced = s.ru.produced + BitVec.ofNat 32 placed ∧
       more.filter (fun b => b.purpose.isEventSlot) = s.cu.slotWrites ((List.finRange 32).flatMap ev) ∧
       (∀ b ∈ more, b.purpose.isFrameWrite = true ∨ b.purpose.recordIndex.isSome = true ∨ b.purpose.isEventSlot = true) ∧
       (turn 0 = s.ru.produced ∧ t.ru.produced = turn 32 ∧ next 0 = s.ru.nextSession ∧ t.ru.nextSession = next 32) ∧
       (∀ c : ChanId,
         (wants c → room (turn c.val) = true → turn (c.val + 1) = turn c.val + 1) ∧
         (¬wants c ∨ room (turn c.val) = false → turn (c.val + 1) = turn c.val) ∧
         ((∃ x, cuts c x) → room (turn c.val) = true →
           next (c.val + 1) = if next c.val = BitVec.allOnes 32 then 1 else next c.val + 1) ∧
         ((¬∃ x, cuts c x) ∨ room (turn c.val) = false → next (c.val + 1) = next c.val)) ∧
       (∀ c, (s.chan c).state = .free ∨ ((s.chan c).state = .active ∧ (s.chan c).session = none) →
         t.chan c = s.chan c ∧ ev c = []) ∧
       (∀ c x, (s.chan c).state = .active → (s.chan c).session = some x →
         let ch := s.chan c
         let b := ch.here
         let b' : Buffer := { b with
           fill := b.fill + 32, firstFrame := if b.fill = b.base then some n else b.firstFrame,
           firstSession := if b.fill = b.base then some x.number else b.firstSession }
         let first : Word := b'.firstFrame.getD 0
         let size : Word := BitVec.ofNat 32 ((b.ceil.toNat - b.base.toNat) / 32)
         let asked : OwnAccess := ⟨.frameWrite c ch.current n x.number, b.fill, frameBytes (r.frames.get c), 0⟩
         let waiting : Nat := ((asked :: (s.pu.own ++ s.pu.flight)).filter fun a => match a.purpose with
           | .frameWrite d buf frame _ => d == c && buf == ch.current && decide ((frame - first).toNat < size.toNat)
           | _ => false).length
         let y : Session := if b.owner = .part then { x with written := x.written + 1 } else { x with lost := x.lost + 1 }
         (¬cuts c x → (t.chan c).session = some y ∧ (t.chan c).segPending = ch.segPending) ∧
         (cuts c x → room (turn c.val) = false → (t.chan c).session = some y ∧ (t.chan c).segPending = true) ∧
         (cuts c x → room (turn c.val) = true → (t.chan c).segPending = false ∧
           (t.chan c).session = some ⟨next c.val, some x.number, x.subject, c, n, none, s.ft.floor, none,
             parties x.subject, 0, 0, none, false⟩ ∧
           recordAt (turn c.val) { y with endFrame := some n, endTime := some s.ft.floor, cause := some .segment }
             ∈ t.pu.own) ∧
         (b.owner = .host → ev c = (if ch.overflowing then [] else [.recordLoss c x.number n]) ∧
           t.chan c = { ch with
             session := (t.chan c).session, segPending := (t.chan c).segPending, overflowing := true }) ∧
         (b.owner = .part → asked ∈ t.pu.own ∧
           (b.fill + 32 ≠ b.ceil → ev c = [] ∧
             t.chan c = { ch.setBuffer ch.current b' with
               session := (t.chan c).session, segPending := (t.chan c).segPending,
               outstanding := ch.outstanding + 1 }) ∧
           (b.fill + 32 = b.ceil →
             ev c = (if waiting = 0
               then [.recordBuffer c ch.current (b'.firstSession.getD 0) first size false] else []) ∧
             t.chan c = { ch.setBuffer ch.current { b' with owner := .host } with
               session := (t.chan c).session, segPending := (t.chan c).segPending,
               outstanding := ch.outstanding + 1, current := ch.current.other,
               bufEvents := if waiting = 0 then ch.bufEvents
                 else ch.bufEvents ++ [⟨ch.current, b'.firstSession.getD 0, first, size, waiting⟩] }))) ∧
       (∀ c, (s.chan c).state = .draining →
         let ch := s.chan c
         let b := ch.here
         let short : Bool := b.owner == .part && b.fill != b.base
         (¬closing c → t.chan c = { ch with frameSeen := true } ∧ ev c = []) ∧
         (closing c →
           t.chan c = { (if short then { ch.setBuffer ch.current { b with owner := .host } with current := ch.current.other }
               else ch) with
             frameSeen := true, closeDone := true,
             placed := if ch.closeRecord.isSome && room (turn c.val) then some (turn c.val) else ch.placed } ∧
           ev c = (if short then [.recordBuffer c ch.current (b.firstSession.getD 0) (b.firstFrame.getD 0)
             (BitVec.ofNat 32 ((b.fill.toNat - b.base.toNat) / 32)) true] else []) ∧
           (∀ x, ch.closeRecord = some x → room (turn c.val) = true → recordAt (turn c.val) x ∈ t.pu.own))) ∧
       t = { s with ru := { t.ru with logBase := s.ru.logBase, logSize := s.ru.logSize, consumed := s.ru.consumed,
                                      logFaults := s.ru.logFaults, segLen := s.ru.segLen },
                    cu := t.cu, pu := { s.pu with own := t.pu.own } }) ∧
  (∀ (c : ChanId) (s : State), s.running = true →
     let due (r : RecFrames) (x : Session) : Prop := (s.chan c).segPending = true ∨
       (0 < s.ru.segLen ∧ r.number = x.startFrame + BitVec.ofNat 32 s.ru.segLen)
     ((∀ r rest x, s.ru.inbox = r :: rest → (s.chan c).state = .active → (s.chan c).session = some x → ¬due r x) →
       exec (.sessionSegment c) s = .next s) ∧
     (∀ r rest x, s.ru.inbox = r :: rest → (s.chan c).state = .active → (s.chan c).session = some x → due r x →
       let y : Session :=
         if (s.chan c).here.owner = .part then { x with written := x.written + 1 } else { x with lost := x.lost + 1 }
       exec (.sessionSegment c) s = exec .recorderFrames s ∧
       ((s.ru.produced - s.ru.consumed).toNat + c.val < s.ru.logSize →
         ∃ (t : State) (parties : List PosId) (i number : Word), exec (.sessionSegment c) s = .next t ∧
           (∀ l, x.subject = .line l → parties = (s.line l).owners.foldl (fun ps h => addParty h.pos ps) []) ∧
           (∀ g, x.subject = .group g → parties = (s.group g).holders.map (·.pos)) ∧
           (t.chan c).segPending = false ∧ (t.chan c).state = .active ∧
           (t.chan c).session = some ⟨number, some x.number, x.subject, c, r.number, none, s.ft.floor, none, parties, 0, 0,
             none, false⟩ ∧
           ⟨.closeRecord i, s.ru.logBase + BitVec.ofNat 36 (64 * (i.toNat % s.ru.logSize)),
             { y with endFrame := some r.number, endTime := some s.ft.floor, cause := some .segment }.logRecord, 0⟩
             ∈ t.pu.own)))

/-- R149, R150, R154, R126: the response to a frame write. The channel's events in waiting count one frame fewer and are
posted, in order, once they wait for none; an error moves the frame from written to lost while its session is still open, or
has ended and is not placed. The last response of a DRAINING channel that has taken a frame event since its session's end
brings about the close step: a short buffer is passed on with final = yes, and the record placed where the log has room.
Model's choices: logs 10, 11 and 41. -/
def Obligations.FrameWritesReturn : Prop :=
  ∀ (k : Nat) (error : Bool) (c : ChanId) (b : Buf) (n session : Word) (a : OwnAccess) (x : Session) (s u : State),
    let ch := s.chan c
    let told := ch.bufEvents.map fun e =>
      if e.buf = b ∧ (n - e.first).toNat < e.count.toNat then { e with waiting := e.waiting - 1 } else e
    let ready : List Event := (told.filter fun e => e.waiting == 0).map fun e =>
      .recordBuffer c e.buf e.session e.first e.count false
    let unit : CmdUnit := if error then { s.cu with fault := faultAfter a s.cu.fault } else s.cu
    let fault : List Event := if error then [.fault .memoryError .frameWrite a.addr (satSucc s.cu.fault.count)] else []
    let moved (x : Session) : Session :=
      if error = true ∧ x.number = session then { x with written := x.written - 1, lost := x.lost + 1 } else x
    s.running = true → Returns Purpose.isFrameWrite k a s u → a.purpose = .frameWrite c b n session →
    (ch.state = .active → ch.session = some x →
      ∃ t, exec (.frameWriteResponse k error) s = .next t ∧
        t.chan c = { ch with
          outstanding := ch.outstanding - 1, bufEvents := told.filter fun e => e.waiting != 0
          session := some (moved x), closeRecord := (t.chan c).closeRecord } ∧
        (ch.closeRecord = none → (t.chan c).closeRecord = none) ∧ OnlyChan c s t ∧
        t.cu = unit.afterEvents (fault ++ ready) ∧ t.pu.own = u.pu.own ++ unit.slotWrites (fault ++ ready) ∧
        t = { u with ru := { s.ru with channels := t.ru.channels }, cu := t.cu, pu := { u.pu with own := t.pu.own } }) ∧
    (ch.state = .draining → ch.closeRecord = some x →
      let buf := ch.here
      let last : Bool := !ch.closeDone && ch.frameSeen && decide (ch.outstanding ≤ 1)
      let short : Bool := buf.owner == .part && buf.fill != buf.base
      let room : Bool := decide ((s.ru.produced - s.ru.consumed).toNat < s.ru.logSize)
      let y : Session := if ch.placed = none then moved x else x
      let returned : Channel := { ch with
        outstanding := ch.outstanding - 1, bufEvents := told.filter fun e => e.waiting != 0
        session := ch.session.map moved, closeRecord := some y }
      let final : List Event := if short then [.recordBuffer c ch.current (buf.firstSession.getD 0)
        (buf.firstFrame.getD 0) (BitVec.ofNat 32 ((buf.fill.toNat - buf.base.toNat) / 32)) true] else []
      ∃ t, exec (.frameWriteResponse k error) s = .next t ∧ OnlyChan c s t ∧
        (last = false → t.chan c = returned ∧ t.cu = unit.afterEvents (fault ++ ready) ∧
          t.pu.own = u.pu.own ++ unit.slotWrites (fault ++ ready) ∧ t.ru.produced = s.ru.produced) ∧
        (last = true →
          t.chan c = { (if short then { returned.setBuffer ch.current { buf with owner := .host } with
              current := ch.current.other } else returned) with
            closeDone := true, placed := if room then some s.ru.produced else ch.placed } ∧
          t.cu = unit.afterEvents (fault ++ ready ++ final) ∧
          t.ru.produced = (if room then s.ru.produced + 1 else s.ru.produced) ∧
          t.pu.own = u.pu.own ++ unit.slotWrites (fault ++ ready ++ final) ++ (if room then
            [⟨.closeRecord s.ru.produced, s.ru.logBase + BitVec.ofNat 36 (64 * (s.ru.produced.toNat % s.ru.logSize)),
              y.logRecord, 0⟩] else [])) ∧
        t = { u with ru := { s.ru with channels := t.ru.channels, produced := t.ru.produced }, cu := t.cu,
                     pu := { u.pu with own := t.pu.own } })

/-! ### Start-up -/

/-- R124, R175, R177: an image address value other than 0 starts a load in TRANSPARENT and CONFIG_FAULT: what the image sets
is back at its power-on values, the status word says LOADING and the image is read from its first byte, behind the pass-
through writes that wait. 0, and any value in LOADING and RUNNING, is ignored. Model's choices: logs 1, 8 and 20. -/
def Obligations.AnchorStartsLoad : Prop :=
  ∀ (v : Word) (s : State),
    let u : State := { s with handed := s.handed.erase (.anchor v) }
    (v = 0 ∨ s.ld.op = .loading ∨ s.ld.op = .running → exec (.anchorWrite v) s = .next u) ∧
    (v ≠ 0 → s.ld.op = .transparent ∨ s.ld.op = .configFault → ∃ (t : State) (a b : OwnAccess),
      exec (.anchorWrite v) s = .next t ∧
      t.ld = { s.ld with op := .loading, image := BitVec.ofNat 36 (16 * v.toNat), cursor := 0, buf := [], expected := 1,
                         regions := ⟨none, none, none, none⟩ } ∧
      t.pu = { s.pu with own := s.pu.own ++ [a, b] } ∧
      (a.purpose = .statusWord .loading ∧ a.addr = anchorAddr s.ld.sel + 4 ∧ a.data = [1, 0, 0, 0, 0, 0, 0, 0] ∧
        a.behind = 0) ∧
      (b.purpose = .imageRead ∧ b.addr = BitVec.ofNat 36 (16 * v.toNat) ∧ b.data = [] ∧
        b.behind = (s.pu.passWaiting.filter fun x => match x with | .write _ => true | .read _ => false).length) ∧
      (∀ l, t.line l = { s.line l with
        type := .ringdown, state := .outOfService, preferred := none, ringDelay := 0, recallTime := 0, policy := .none,
        pad := 0 }) ∧
      (∀ h, t.handset h = ⟨(s.handset h).binding, 0, 0⟩) ∧ (∀ p k, (t.map p).get k = none) ∧
      (∀ g, t.group g = { s.group g with
        members := 0, hootLines := [], maxTalkers := 1, queueTimeout := 0, talkLimit := 0, policy := .none,
        hangTime := 0 }) ∧
      (∀ p, t.settings p = ⟨0, 0, 0, 0, false⟩ ∧ ∀ k, (t.speakers p).get k = ⟨none, .left, 0, false⟩) ∧
      t.mp.holdLevel = 0 ∧ (∀ x, t.me.tones.get x = ⟨.replicate 32 0, 1, 1⟩) ∧ t.ft = { s.ft with clkPerMs := 0 } ∧
      (∀ c, t.chan c = { s.chan c with
        bufA := ⟨0, 0, .part, 0, none, none⟩, bufB := ⟨0, 0, .part, 0, none, none⟩, current := .bufA }) ∧
      t.ru = { s.ru with channels := t.ru.channels, segLen := 0, logBase := 0, logSize := 0 } ∧
      t.cu = { s.cu with cmdBase := 0, cmdSize := 0, evBase := 0, evSize := 0 } ∧ t.rc = s.rc ∧
      t.handed = u.handed)

/-- R47, R89, R124, R126, R162, R177 to R179, R185, R186: bytes of the image arrive. An error ends the load with
MEMORY_ERROR; a section whose header lies beyond 65,536 bytes ends it with IMAGE_UNTERMINATED, one that is not the expected
section of its length with BAD_SECTION; a header not yet read whole asks for more, behind the pass-through writes that wait,
and so does a section not yet read whole, in which no record that has come has an index error. After the load the bytes are
discarded. A section that has been read whole is stored, clamped, and the loader goes on with the bytes that are left; or it
ends the load: an index error in it with BAD_INDEX at an offset in the section, the check at its end with its code just past
it. Model's choices: logs 8, 9, 10, 23, 25, 29 and 38. -/
def Obligations.ImageBytesAreRead : Prop :=
  ∀ (data : List Byte) (a : OwnAccess) (s u : State),
    let c : Instr := .configReadResponse false data
    let held := s.ld.buf ++ data
    let len := sectionLength s.ld.expected
    let body := held.drop 8
    let byte (i : Nat) : Byte := byteAt body i
    let whole (k : Nat) : Prop := s.ld.expected = k ∧ leAt held 0 4 = k ∧ leAt held 4 4 = len ∧
      s.ld.cursor + len ≤ 65536 ∧ len ≤ held.length
    let endsAfter (code : FaultCode) : Prop := ∃ t, LoadEnds c code (s.ld.cursor + len) s u t
    let endsInside : Prop := ∃ t offset, s.ld.cursor ≤ offset ∧ offset ≤ s.ld.cursor + len ∧
      LoadEnds c .badIndex offset s { u with draws := u.draws + 1 } t
    let asks (address : Addr) (v : State) : State := { v with pu := { v.pu with own := v.pu.own ++ [⟨.imageRead, address, [],
      (s.pu.passWaiting.filter fun x => match x with | .write _ => true | .read _ => false).length⟩] } }
    let asksMore : Prop := exec c s =
      .next (asks (s.ld.image + BitVec.ofNat 36 (s.ld.cursor + held.length)) { u with ld := { s.ld with buf := held } })
    let part (k : Nat) : Prop := s.ld.expected = k ∧ 8 ≤ held.length ∧ leAt held 0 4 = k ∧ leAt held 4 4 = len ∧
      s.ld.cursor + len ≤ 65536 ∧ held.length < len
    let partChecked (k size records : Nat) (good : Fin records → Prop) : Prop := part k →
      ((∃ i, 8 + size * (i.val + 1) ≤ held.length ∧ ¬good i) → endsInside) ∧
      ((∀ i, 8 + size * (i.val + 1) ≤ held.length → good i) → asksMore)
    let goesOn (v : State) : Prop := exec c s = .next (takeSections 9 v) ∧
      v.ld = { s.ld with cursor := s.ld.cursor + len, buf := held.drop len, expected := s.ld.expected + 1,
                         regions := v.ld.regions } ∧
      (held.length = len → s.ld.cursor + len + 8 ≤ 65536 →
        exec c s = .next (asks (s.ld.image + BitVec.ofNat 36 (s.ld.cursor + len)) v))
    Returns Purpose.isImageRead 0 a s u →
    (s.ld.op ≠ .loading → exec c s = .next u) ∧
    (s.ld.op = .loading →
      (∃ t, LoadEnds (.configReadResponse true data) .memoryError (s.ld.cursor + s.ld.buf.length) s u t) ∧
      (65536 < s.ld.cursor + 8 → ∃ t, LoadEnds c .imageUnterminated s.ld.cursor s u t) ∧
      (s.ld.cursor + 8 ≤ 65536 → held.length < 8 → asksMore) ∧
      (part 1 ∨ part 2 ∨ part 6 ∨ part 8 → asksMore) ∧
      (s.ld.cursor + 8 ≤ 65536 → 8 ≤ held.length → 65536 < s.ld.cursor + leAt held 4 4 →
        ∃ t, LoadEnds c .imageUnterminated s.ld.cursor s u t) ∧
      (s.ld.cursor + 8 ≤ 65536 → 8 ≤ held.length → s.ld.cursor + leAt held 4 4 ≤ 65536 →
        leAt held 0 4 ≠ s.ld.expected ∨ leAt held 4 4 ≠ len → ∃ t, LoadEnds c .badSection s.ld.cursor s u t) ∧
      -- REGIONS
      (whole 1 →
        let base (i : Nat) : Addr := addrAt body (8 * i)
        let aligned : Prop := (base 0).toNat % 32768 = 0 ∧ (base 1).toNat % 65536 = 0 ∧ (base 2).toNat % 2048 = 0 ∧
          (base 3).toNat % 64 = 0
        (¬aligned → endsAfter .regionMisaligned) ∧
        (aligned → ∃ v, goesOn v ∧ v = { u with ld := v.ld } ∧
          v.ld.regions = ⟨some (base 0), some (base 1), some (base 2), some (base 3)⟩)) ∧
      -- RINGS: command ring, event ring, Recording Log
      (whole 2 →
        let base (i : Nat) : Addr := addrAt body (16 * i)
        let size (i : Nat) : Nat := leAt body (16 * i + 8) 4
        let aligned : Prop := (base 0).toNat % 32 = 0 ∧ (base 1).toNat % 16 = 0 ∧ (base 2).toNat % 64 = 0
        let sized (i least most : Nat) : Prop := least ≤ size i ∧ size i ≤ most ∧ ∃ m, size i = 2 ^ m
        let sizes : Prop := sized 0 16 1024 ∧ sized 1 64 4096 ∧ sized 2 16 1024
        let r := s.ld.regions
        let spans : List (Addr × Nat) := [(r.inbound.getD 0, 32768), (r.outbound.getD 0, 65536), (r.signal.getD 0, 2048),
          (r.control.getD 0, 64), (base 0, size 0 * 32), (base 1, size 1 * 16), (base 2, size 2 * 64)]
        let overlap : Prop := ∃ (i j : Nat) (p q : Addr × Nat) (x : Addr), i < j ∧ spans[i]? = some p ∧
          spans[j]? = some q ∧ (x - p.1).toNat < p.2 ∧ (x - q.1).toNat < q.2
        (¬aligned → endsAfter .regionMisaligned) ∧ (aligned → ¬sizes → endsAfter .ringSize) ∧
        (aligned → sizes → overlap → endsAfter .regionOverlap) ∧
        (aligned → sizes → ¬overlap → ∃ v, goesOn v ∧ v.ld.regions = r ∧
          v = { u with ld := v.ld, ru := { s.ru with logBase := base 2, logSize := size 2 }
                       cu := { s.cu with cmdBase := base 0, cmdSize := size 0, evBase := base 1, evSize := size 1 } })) ∧
      ( -- LINES
        let good (l : LineId) (ty : LineType) (pref : Option PosId) (pol : Policy) (service : Bool) : Prop :=
          byte (8 * l.val) = ty.code ∧ byte (8 * l.val + 2) = idByte pref ∧ byte (8 * l.val + 6) = pol.code ∧
            byte (8 * l.val + 7) = flagCode service
        partChecked 3 8 96 (fun l => ∃ ty pref pol service, good l ty pref pol service) ∧
        (whole 3 → (∃ l, ∀ ty pref pol service, ¬good l ty pref pol service) → endsInside) ∧
        (whole 3 → (∀ l, ∃ ty pref pol service, good l ty pref pol service) → ∃ v, goesOn v ∧ v.ld.regions = s.ld.regions ∧
          (∀ l ty pref pol service, good l ty pref pol service →
            let seconds := leAt body (8 * l.val + 4) 2
            v.line l = { s.line l with
              type := ty, pad := min (byte (8 * l.val + 1)).toNat 24, preferred := pref
              ringDelay := 100 * min (byte (8 * l.val + 3)).toNat 100
              recallTime := if seconds = 0 then 0 else 1000 * min (max seconds 10) 600
              policy := pol, state := if service then .idle else .outOfService }) ∧
          v = { u with ld := v.ld, lc := { s.lc with lines := v.lc.lines } })) ∧
      ( -- POSITIONS
        let at_ (p : PosId) (i : Nat) : Byte := byte (108 * p.val + i)
        let key (p : PosId) (k : KeyId) (x : Option LineId) : Prop := at_ p k.val = idByte x
        let channel (p : PosId) (j : SpkId) (x : Option Subject) : Prop :=
          (at_ p (60 + 4 * j.val) = 0 ∧ x = none) ∨
          (∃ l : LineId, at_ p (60 + 4 * j.val) = 1 ∧ at_ p (61 + 4 * j.val) = finByte l ∧ x = some (.line l)) ∨
          (∃ g : GroupId, at_ p (60 + 4 * j.val) = 2 ∧ at_ p (61 + 4 * j.val) = finByte g ∧ x = some (.group g))
        let good (p : PosId) : Prop :=
          (∀ k, ∃ x, key p k x) ∧ (∀ j k l, key p j (some l) → key p k (some l) → j = k) ∧
          (∃ mark, at_ p 52 = flagCode mark) ∧ (∀ j, ∃ x, channel p j x) ∧
          (∀ i j x, channel p i (some x) → channel p j (some x) → i = j) ∧
          (∀ j l, channel p j (some (.line l)) → ∃ k, key p k (some l))
        partChecked 4 108 8 good ∧ (whole 4 → (∃ p, ¬good p) → endsInside) ∧
        (whole 4 → (∀ p, good p) → ∃ v, goesOn v ∧ v.ld.regions = s.ld.regions ∧
          (∀ p k x, key p k x → (v.map p).get k = x) ∧
          (∀ p mark, at_ p 52 = flagCode mark → v.settings p = ⟨min (at_ p 48).toNat 24, min (at_ p 49).toNat 24,
            min (at_ p 50).toNat 72, min (at_ p 51).toNat 72, mark⟩) ∧
          (∀ h : Handset, let o := match h.side with | .left => 53 | .right => 55
            v.handset h = ⟨(s.handset h).binding, min (at_ h.pos o).toNat 72, min (at_ h.pos (o + 1)).toNat 24⟩) ∧
          (∀ p j x, channel p j x → (v.speakers p).get j = ⟨x, if (at_ p (62 + 4 * j.val)).getLsbD 0 then .right else .left,
            min (at_ p (63 + 4 * j.val)).toNat 72, (at_ p (62 + 4 * j.val)).getLsbD 1⟩) ∧
          v = { u with ld := v.ld, lc := { v.lc with lines := s.lc.lines }
                       mp := { v.mp with holdLevel := s.mp.holdLevel } })) ∧
      ( -- GROUPS
        let at_ (g : GroupId) (i : Nat) : Byte := byte (12 * g.val + i)
        let listed (g : GroupId) (hoots : List LineId) : Prop :=
          (at_ g 1 = 0 ∧ hoots = []) ∨ (∃ l : LineId, at_ g 1 = 1 ∧ at_ g 2 = finByte l ∧ hoots = [l]) ∨
          (∃ l m : LineId, at_ g 1 = 2 ∧ at_ g 2 = finByte l ∧ at_ g 3 = finByte m ∧ hoots = [l, m])
        let good (g : GroupId) : Prop := (∃ hoots, listed g hoots) ∧ ∃ pol : Policy, at_ g 7 = pol.code
        partChecked 5 12 16 good ∧ (whole 5 → (∃ g, ¬good g) → endsInside) ∧
        (whole 5 → ∀ hoots : GroupId → List LineId, (∀ g, good g) → (∀ g, listed g (hoots g)) →
          let sound : Prop := ((List.finRange 16).flatMap hoots).Nodup ∧
            ∀ g, ∀ l ∈ hoots g, (s.line l).type = .hoot ∧ (s.line l).state ≠ .outOfService
          (¬sound → endsAfter .badIndex) ∧
          (sound → ∃ v, goesOn v ∧ v.ld.regions = s.ld.regions ∧
            (∀ g (pol : Policy), at_ g 7 = pol.code → v.group g = { s.group g with
              members := at_ g 0, hootLines := hoots g, maxTalkers := min (max (at_ g 4).toNat 1) 3
              queueTimeout := 100 * (at_ g 5).toNat, talkLimit := 1000 * (at_ g 6).toNat, policy := pol
              hangTime := 1000 * min (at_ g 8).toNat 60 }) ∧
            v = { u with ld := v.ld, fc := v.fc }))) ∧
      -- TONES
      (whole 6 → ∃ v, goesOn v ∧ v.ld.regions = s.ld.regions ∧
        (∀ x : Fin 3, (v.me.tones.get x).onFrames = min (max (leAt body (68 * x.val + 64) 2) 1) 10000 ∧
          (v.me.tones.get x).offFrames = min (max (leAt body (68 * x.val + 66) 2) 1) 10000 ∧
          ∀ k : Fin 32, (v.me.tones.get x).samples.get k = BitVec.ofNat 16 (leAt body (68 * x.val + 2 * k.val) 2)) ∧
        v = { u with ld := v.ld, me := { s.me with tones := v.me.tones }
                     mp := { s.mp with holdLevel := min (byte 204).toNat 72 } }) ∧
      ( -- RECORDERS
        let place (k : ChanId) (i : Nat) : Addr := addrAt body (32 * k.val + 8 * i)
        let good (k : ChanId) : Prop := (∀ i, i < 4 → (place k i).toNat % 32 = 0) ∧
          (place k 0).toNat < (place k 1).toNat ∧ (place k 2).toNat < (place k 3).toNat
        partChecked 7 32 32 good ∧ (whole 7 → (∃ k, ¬good k) → endsInside) ∧
        (whole 7 → (∀ k, good k) → ∃ v, goesOn v ∧ v.ld.regions = s.ld.regions ∧
          (∀ k, v.chan k = { s.chan k with
            bufA := ⟨place k 0, place k 1, .part, place k 0, none, none⟩
            bufB := ⟨place k 2, place k 3, .part, place k 2, none, none⟩, current := .bufA }) ∧
          v = { u with ld := v.ld, ru := { s.ru with
            channels := v.ru.channels, segLen := 60000 * min (leAt body 1024 4) 240 } })) ∧
      -- TIMING
      (whole 8 → ∃ v, goesOn v ∧ v.ld.regions = s.ld.regions ∧
        v = { u with ld := v.ld, ft := { s.ft with clkPerMs := min (max (leAt body 0 4) 50000) 1000000 } }))

/-- R8, R47, R107, R110, R128, R163, R167, R170, R180: the END section, once read in its place, takes the part into RUNNING.
The index words are written with 0, every line's control write is asked for, and where every recorder channel is FREE each
group with hoot lines and a policy other than NONE is given one, in group order. Model's choices: logs 4, 8, 10, 24, 28 and
35. -/
def Obligations.EndSectionStartsRunning : Prop :=
  ∀ (data : List Byte) (a : OwnAccess) (s u : State), Returns Purpose.isImageRead 0 a s u → s.ld.op = .loading →
    s.ld.expected = 9 → s.ld.cursor + 8 ≤ 65536 → 8 ≤ (s.ld.buf ++ data).length →
    leAt (s.ld.buf ++ data) 0 4 = 9 → leAt (s.ld.buf ++ data) 4 4 = 8 → LineLaw s → HootLaw s → EventLaw s →
    ∃ t, exec (.configReadResponse false data) s = .next t ∧ t.running = true ∧
      t.pu.regions = s.ld.regions ∧ t.pu.shadows = ⟨.replicate 96 0, 0, 0, 0, 0, 0⟩ ∧
      (∀ i, t.pu.queues.get i = [] ∧ t.pu.assembly.get i = ⟨none, .replicate 32 none⟩ ∧
        (t.me.last.get i).kind = .none) ∧ (∀ j, t.pu.store.get j = []) ∧
      (∀ l, (t.line l).ctlPending = true ∧
        ((∀ g, l ∉ (s.group g).hootLines) → t.line l = { s.line l with ctlPending := true }) ∧
        (∀ g, l ∈ (s.group g).hootLines →
          t.line l = { s.line l with state := .bridged, group := some g, ctlPending := true })) ∧
      t.cu = { s.cu with
          posted := 0, taken := 0, execution := .idle, evProduced := 0, evConsumed := 0
          fault := { s.cu.fault with asserted := false } }.afterEvents
        ((List.finRange 16).flatMap fun g => (s.group g).hootLines.map fun l => .lineState l .bridged .bridged) ∧
      (∀ l, (s.line l).ctlPending = false →
        ⟨.lineControl l, s.ld.regions.signal.getD 0 + BitVec.ofNat 36 (1024 + 4 * l.val), [], 0⟩ ∈ t.pu.own) ∧
      (∀ p offset, (p, offset) ∈ [(Purpose.commandTaken 0, 4), (.eventProduced 0, 8), (.logProduced 0, 16)] →
        ⟨p, s.ld.regions.control.getD 0 + BitVec.ofNat 36 offset, [0, 0, 0, 0], 0⟩ ∈ t.pu.own) ∧
      ((∀ c, (s.chan c).state = .free) → ∀ g,
        let recorded (h : GroupId) : Bool := !(s.group h).hootLines.isEmpty && (s.group h).policy != .none
        (recorded g = false → t.group g = s.group g) ∧
        (recorded g = true → ∃ (c : ChanId) (x : Session),
          c.val = ((List.finRange 16).filter fun h => decide (h < g) && recorded h).length ∧
          t.group g = { s.group g with recorder := some c } ∧ (t.chan c).state = .active ∧
          (t.chan c).subject = some (.group g) ∧ (t.chan c).session = some x ∧ x.subject = .group g ∧ x.channel = c ∧
          x.previous = none ∧ x.parties = [] ∧ x.startFrame = 0 ∧ x.startTime = s.ft.floor)) ∧
      t.cu.posted = 0 ∧ t.cu.taken = 0 ∧ t.cu.execution = .idle ∧ t.cu.evConsumed = 0 ∧ t.cu.fault.asserted = false ∧
      t.cu.fault.first = s.cu.fault.first ∧ t.cu.fault.count = s.cu.fault.count ∧
      t.ru.produced = 0 ∧ t.ru.consumed = 0 ∧ t.ru.frameNo = 0 ∧ (∀ x, t.me.phase.get x = 0) ∧
      t.ft = { s.ft with counter := 0, watch := .acquiring, refPulse := none, good := 0,
                         freeTimer := some (s.ft.clock + s.ft.clkPerMs),
                         watchTimer := some (s.ft.clock + 3 * s.ft.clkPerMs) } ∧
      (∃ b ∈ t.pu.own, b.purpose = .statusWord .running ∧ b.addr = anchorAddr s.ld.sel + 4 ∧
        b.data = [2, 0, 0, 0] ++ leBytes 4 (s.ld.cursor + 8)) ∧
      t.mp = s.mp ∧ t.rc = s.rc

/-! ### The memory path -/

/-- R108 to R117: an upstream write is accepted for forwarding unchanged and treated at once. In a slot of a source's window
bytes are marked, a slot left behind is torn, and once all 32 are marked the frame is captured, a full queue losing its
oldest; the beats of the transaction are taken so in order, each in the slot that holds its bytes; each byte of a watched
word's shadow becomes the last one written there and else stays, and a watched word is handed on exactly if one of its bytes
is written, the time sync word if its last is, signal words in ascending line order. Model's choices: logs 1 and 15. -/
def Obligations.UpstreamWritesAreTreated : Prop :=
  (∀ (i : SourceId) (k : SlotId) (bytes : List (Nat × Byte)) (s : State),
     let old := s.pu.assembly.get i
     let torn : Prop := ∃ j, old.slot = some j ∧ j ≠ k
     let t := assemble i k bytes s
     ∃ marks : Table 32 (Option Byte),
       (∀ m : Fin 32, marks.get m = ((bytes.filter fun b => b.1 % 32 == m.val).getLast?.map (·.2)).or
         (if torn then none else old.marks.get m)) ∧
       ((∃ m, marks.get m = none) → t.pu.assembly.get i = ⟨some k, marks⟩ ∧ t.pu.queues = s.pu.queues ∧
         t.pu.totals.get i = { s.pu.totals.get i with
           torn := if torn then (s.pu.totals.get i).torn + 1 else (s.pu.totals.get i).torn }) ∧
       ((∀ m, marks.get m ≠ none) → ∃ f : Frame,
         (∀ x : Fin 16, (f.get x).toNat = ((marks.get ⟨2 * x.val, by omega⟩).getD 0).toNat +
           256 * ((marks.get ⟨2 * x.val + 1, by omega⟩).getD 0).toNat) ∧
         t.pu.assembly.get i = ⟨none, .replicate 32 none⟩ ∧
         t.pu.queues.get i =
           (if (s.pu.queues.get i).length < 4 then s.pu.queues.get i else (s.pu.queues.get i).tail) ++ [f] ∧
         t.pu.totals.get i = { s.pu.totals.get i with
           captured := (s.pu.totals.get i).captured + 1,
           overrun := if (s.pu.queues.get i).length < 4 then (s.pu.totals.get i).overrun
             else (s.pu.totals.get i).overrun + 1,
           torn := if torn then (s.pu.totals.get i).torn + 1 else (s.pu.totals.get i).torn }) ∧
       (∀ j, j ≠ i → t.pu.assembly.get j = s.pu.assembly.get j ∧ t.pu.queues.get j = s.pu.queues.get j ∧
         t.pu.totals.get j = s.pu.totals.get j) ∧
       t = { s with pu := { s.pu with assembly := t.pu.assembly, queues := t.pu.queues, totals := t.pu.totals } }) ∧
  (∀ (t : WriteTxn) (s : State), writeOk t = true →
     let written := (txnBytes t).flatten
     let touches (w : Watched) (byte : Nat → Prop) : Prop := ∃ b ∈ written, ∃ n, (w, n) ∈ watchedAt s b.1 ∧ byte n
     let any (_ : Nat) : Prop := True
     let placed (v : State) (bytes : List (Nat × Byte)) : State := match bytes with
       | [] => v
       | b :: _ => match inboundPlace s b.1 with
         | some (i, k) => assemble i k bytes v
         | none => v
     let captured : State := (txnBytes t).foldl placed s
     ∃ u, exec (.upstreamWrite t) s = .next u ∧ u.pu.passWaiting = s.pu.passWaiting ++ [.write t] ∧
       (u.pu.queues = captured.pu.queues ∧ u.pu.totals = captured.pu.totals ∧
         u.pu.assembly = captured.pu.assembly) ∧
       (∀ i : SourceId, (∀ b ∈ written, ∀ base, s.pu.regions.inbound = some base →
           ¬(base.toNat + 256 * i.val ≤ b.1 ∧ b.1 < base.toNat + 256 * i.val + 256)) →
         u.pu.queues.get i = s.pu.queues.get i ∧ u.pu.totals.get i = s.pu.totals.get i ∧
         u.pu.assembly.get i = s.pu.assembly.get i) ∧
       (∃ more, u.handed = s.handed ++ more ∧ more.Nodup ∧
         (more.filterMap fun h => match h with | .signalWord l _ => some l | _ => none).Pairwise (· < ·) ∧
         (∀ l v, .signalWord l v ∈ more ↔ touches (.signal l) any ∧ v = u.pu.shadows.signal.get l) ∧
         (∀ v, .commandPost v ∈ more ↔ touches .post any ∧ v = u.pu.shadows.post) ∧
         (∀ v, .eventConsumed v ∈ more ↔ touches .evConsumed any ∧ v = u.pu.shadows.evConsumed) ∧
         (∀ v, .logConsumed v ∈ more ↔ touches .logConsumed any ∧ v = u.pu.shadows.logConsumed) ∧
         (∀ v, .timeSync v ∈ more ↔ touches .timeSync (· = 15) ∧ v = u.pu.shadows.timeSync) ∧
         (∀ v, .anchor v ∈ more ↔ touches .anchor any ∧ v = u.pu.shadows.anchor)) ∧
       (∀ w n, u.pu.shadows.byteOf w n =
         ((written.filter fun b => (watchedAt s b.1).contains (w, n)).getLast?.map (·.2)).getD (s.pu.shadows.byteOf w n)) ∧
       (¬touches .post any → u.pu.shadows.post = s.pu.shadows.post) ∧
       (∀ l, ¬touches (.signal l) any → u.pu.shadows.signal.get l = s.pu.shadows.signal.get l) ∧
       (∀ v : Word, (∃ before, written.filter (fun b => (watchedAt s b.1).any fun w => w.1 == .post) =
           before ++ (List.range 4).map fun n => (controlAddr s n |>.toNat, (wordBytes v).getD n 0)) →
         (∀ n, n < 4 → watchedAt s (controlAddr s n).toNat = [(.post, n)]) → u.pu.shadows.post = v) ∧
       u = { s with handed := u.handed, pu := { s.pu with
         passWaiting := u.pu.passWaiting, queues := u.pu.queues, totals := u.pu.totals, assembly := u.pu.assembly,
         shadows := u.pu.shadows } }) ∧
  (∀ (s : State) (x : Nat) (i : SourceId) (k : SlotId), inboundPlace s x = some (i, k) ↔
     ∃ base, s.pu.regions.inbound = some base ∧ base.toNat + 256 * i.val + 32 * k.val ≤ x ∧
       x < base.toNat + 256 * i.val + 32 * k.val + 32) ∧
  (∀ (s : State) (x : Nat) (w : Watched) (n : Nat), (w, n) ∈ watchedAt s x ↔
     let inSignal (offset : Nat) : Prop := ∃ base, s.pu.regions.signal = some base ∧ x = base.toNat + offset + n
     let inControl (offset : Nat) : Prop := ∃ base, s.pu.regions.control = some base ∧ x = base.toNat + offset + n
     match w with
     | .signal l => n < 4 ∧ inSignal (4 * l.val)
     | .timeSync => n < 16 ∧ inSignal 512
     | .post => n < 4 ∧ inControl 0
     | .evConsumed => n < 4 ∧ inControl 12
     | .logConsumed => n < 4 ∧ inControl 20
     | .anchor => n < 4 ∧ x = (anchorAddr s.ld.sel).toNat + n)

/-- R109, R123 to R125: the response to a forwarded transaction, error or not, goes upstream unchanged, with no fault and no
event. The arbiter's classes alternate while both wait; pass-through goes in acceptance order; of the own accesses that the
orders of R124 allow, the first asked for of the first kind is granted, and a line control word takes the near_end of that
moment. Model's choices: logs 10, 14 and 36. -/
def Obligations.ForwardedPathAndArbiter : Prop :=
  (∀ (resp : Resp) (data : List (BitVec 64)) (t : PassTxn) (before after : List PassTxn) (s : State),
     s.pu.passFlight = before ++ t :: after →
     exec (.passThroughResponse before.length resp data) s = .next { s with pu := { s.pu with
       passFlight := before ++ after, answer := some (.forwarded t resp data) } }) ∧
  (∀ s : State,
     let may (before : List OwnAccess) (a : OwnAccess) : Prop :=
       (a.purpose.isRead = true → a.behind = 0) ∧
       (a.purpose.isRead = false → ∀ b ∈ before, b.purpose.isRead = false → b.purpose.block ≠ a.purpose.block)
     let ownWaits : Prop := ∃ before a after, s.pu.own = before ++ a :: after ∧ may before a
     (s.pu.passWaiting = [] → ¬ownWaits → exec .downstreamGrant s = .next s) ∧
     (∀ t rest, s.pu.passWaiting = t :: rest → ¬ownWaits ∨ s.pu.lastOwn = true →
       ∃ u, exec .downstreamGrant s = .next u ∧ u.pu.passWaiting = rest ∧ u.pu.passFlight = s.pu.passFlight ++ [t] ∧
         u.pu.lastOwn = false ∧
         u.pu.own = s.pu.own.map (fun a => { a with behind := match t with | .write _ => a.behind - 1 | .read _ => a.behind }) ∧
         u = { s with pu := { s.pu with passWaiting := rest, passFlight := u.pu.passFlight, lastOwn := false,
                                        own := u.pu.own } }) ∧
     (ownWaits → s.pu.passWaiting = [] ∨ s.pu.lastOwn = false →
       ∃ u before a after issued_, exec .downstreamGrant s = .next u ∧ s.pu.own = before ++ a :: after ∧ may before a ∧
         (∀ first b last, s.pu.own = first ++ b :: last → may first b →
           a.purpose.kind.code.toNat < b.purpose.kind.code.toNat ∨
           (a.purpose.kind = b.purpose.kind ∧ before.length ≤ first.length)) ∧
         u.pu.own = before ++ after ∧ u.pu.flight = s.pu.flight ++ [issued_] ∧ u.pu.lastOwn = true ∧
         (issued_ = { a with data := issued_.data } ∧
           (∀ l, a.purpose = .lineControl l → issued_.data = [((s.line l).state.nearEnd).code, 0, 0, 0] ∧
             u.line l = { s.line l with ctlPending := false } ∧ OnlyLine l s u) ∧
           (a.purpose.kind ≠ .lineControl → issued_.data = a.data ∧ u.lc = s.lc)) ∧
         u = { s with lc := { s.lc with lines := u.lc.lines },
                      pu := { s.pu with own := u.pu.own, flight := u.pu.flight, lastOwn := true } }))

/-! ### The mix plan -/

/-- R75 to R84, R91, R102: the plan of a frame event. A line bus of a CONNECTED or HELD line holds its inbound and its
owners' microphones, a group bus the holders' microphones and the hoot lines. A HELD far end hears the HOLD tone alone, a
BRIDGED one its group but for itself, an earpiece its line, a loudspeaker its side's channels that are ON, each lowered by
duck while a handset of the position is BOUND, then its tone, and a recorder channel its subject's bus. The gain of an
attenuation is 16384 times 10^(−A/20), rounded, and 0 at 72; a tone gives its table by the frame number while its phase is
on, and else zeros. -/
def Obligations.MixPlanGivesTerms : Prop :=
  (∀ s : State,
    let plan := derivePlan s
    let talks (g : GroupId) : Prop := (s.group g).holders ≠ [] ∨ (s.group g).hootLines ≠ []
    let onCall (l : LineId) : Prop := (s.line l).state = .connected ∨ (s.line l).state = .held
    (∀ l, (onCall l → plan.bus (.line l) =
        ⟨⟨l.val, by omega⟩, (s.line l).pad⟩ :: (s.line l).owners.map fun h => ⟨h.source, (s.handset h).micPad⟩) ∧
      (¬onCall l → plan.bus (.line l) = [])) ∧
    (∀ g, plan.bus (.group g) =
      (s.group g).holders.map (fun e => ⟨⟨98 + 3 * e.pos.val, by omega⟩, (s.settings e.pos).speakerMicPad⟩) ++
        (s.group g).hootLines.map fun l => ⟨⟨l.val, by omega⟩, (s.line l).pad⟩) ∧
    (∀ i, referenced plan.buses i = true ↔ ∃ x, ∃ t ∈ plan.bus x, t.source = i) ∧
    (∀ l : LineId, let terms := plan.terms.get ⟨l.val, by omega⟩
      ((s.line l).state = .connected → terms = [⟨.bus (.line l), some (lineSource l), 0⟩]) ∧
      ((s.line l).state = .held → terms = [⟨.tone .hold, none, min s.mp.holdLevel 72⟩]) ∧
      (∀ g, (s.line l).state = .bridged → (s.line l).group = some g →
        terms = [⟨.bus (.group g), some (lineSource l), 0⟩]) ∧
      ((s.line l).state = .idle ∨ (s.line l).state = .ringing ∨ (s.line l).state = .outOfService → terms = [])) ∧
    (∀ h : Handset,
      let terms := plan.terms.get ⟨96 + 4 * h.pos.val + (match h.side with | .left => 0 | .right => 1), by
        cases h.side <;> simp <;> omega⟩
      (∀ l, (s.handset h).binding = some l →
        terms = [⟨.bus (.line l), some h.source, min (s.handset h).volume 72⟩]) ∧
      ((s.handset h).binding = none → terms = [])) ∧
    (∀ (p : PosId) (side : Side), ∃ (duck : Nat) (channel : SpkId → Option Term) (tone : List Term),
      plan.terms.get ⟨98 + 4 * p.val + (match side with | .left => 0 | .right => 1), by
        cases side <;> simp <;> omega⟩ = (List.finRange 12).filterMap channel ++ tone ∧
      ((∃ h : Handset, h.pos = p ∧ (s.handset h).binding ≠ none) → duck = (s.settings p).duck) ∧
      ((∀ h : Handset, h.pos = p → (s.handset h).binding = none) → duck = 0) ∧
      (∀ j, let k := (s.speakers p).get j
        (k.on = false ∨ k.side ≠ side ∨ k.subject = none → channel j = none) ∧
        (∀ g, k.on = true → k.side = side → k.subject = some (.group g) →
          let hears : Prop := inSet (s.group g).members p = true ∧ talks g
          (¬hears → channel j = none) ∧
          (hears → ∃ excl, channel j = some ⟨.bus (.group g), excl, min (k.volume + duck) 72⟩ ∧
            ((∃ e ∈ (s.group g).holders, e.pos = p) → excl = some (speakerSource p)) ∧
            ((∀ e ∈ (s.group g).holders, e.pos ≠ p) → excl = none))) ∧
        (∀ l, k.on = true → k.side = side → k.subject = some (.line l) →
          let hears : Prop := s.appears p l = true ∧ onCall l ∧ (s.line l).privacy = false ∧
            ∀ h : Handset, h.pos = p → (s.handset h).binding ≠ some l
          (¬hears → channel j = none) ∧
          (hears → channel j = some ⟨.bus (.line l), none, min (k.volume + duck) 72⟩))) ∧
      (side = .left → tone = if 0 < (s.posRing p).ringCount
        then [⟨.tone .ring, none, min (s.settings p).ringLevel 72⟩] else []) ∧
      (side = .right → tone = if 0 < (s.posRing p).recallCount
        then [⟨.tone .recall, none, min (s.settings p).recallLevel 72⟩] else [])) ∧
    (∀ c : ChanId, let terms := plan.terms.get ⟨128 + c.val, by omega⟩
      ((s.chan c).state ≠ .active → terms = []) ∧
      (∀ x, (s.chan c).state = .active → (s.chan c).subject = some x →
        (plan.bus x = [] → terms = []) ∧ (plan.bus x ≠ [] → terms = [⟨.bus x, none, 0⟩])))) ∧
  (∀ (values : Table 120 Frame) (tones : Table 3 Frame) (l : LineId) (k : Fin 16) (s : State),
    let out := listenerSum (derivePlan s) values tones ((derivePlan s).terms.get ⟨l.val, by omega⟩) k
    ((s.line l).state = .held → out = roundGain (((tones.get 1).get k).toInt * gain (min s.mp.holdLevel 72))) ∧
    (∀ g, (s.line l).state = .bridged → (s.line l).group = some g → FloorLaw s → HootLaw s →
      out = ((s.group g).holders.map fun e =>
          enterBus ((values.get (speakerSource e.pos)).get k) (s.settings e.pos).speakerMicPad).sum +
        (((s.group g).hootLines.filter (· != l)).map fun m =>
          enterBus ((values.get (lineSource m)).get k) (s.line m).pad).sum)) ∧
  (∀ att : Nat, att ≤ 71 →
    (2 * gain att - 1) ^ 20 * 10 ^ att ≤ 32768 ^ 20 ∧ 32768 ^ 20 < (2 * gain att + 1) ^ 20 * 10 ^ att) ∧
  gain 72 = 0 ∧
  (∀ (t : ToneTable) (phase : Nat) (n : Word) (k : Fin 16),
    (phase < t.onFrames → (toneFrame t phase n).get k =
      t.samples.get ⟨(16 * n.toNat + k.val) % 32, Nat.mod_lt _ (by decide)⟩) ∧
    (t.onFrames ≤ phase → (toneFrame t phase n).get k = 0))

end
end

