-- ==== Sys2Proof/Laws/State.lean ====
section
/-! SUPPORT. What each named update leaves of every part of the state, and what a table gives back after it. -/

namespace Sys2Proof.Machine

variable (s : State)

/-! ### `modLine` -/

@[simp] theorem modLine_rc (l : LineId) (f : LineRec → LineRec) : (s.modLine l f).rc = s.rc := rfl
@[simp] theorem modLine_fc (l : LineId) (f : LineRec → LineRec) : (s.modLine l f).fc = s.fc := rfl
@[simp] theorem modLine_mp (l : LineId) (f : LineRec → LineRec) : (s.modLine l f).mp = s.mp := rfl
@[simp] theorem modLine_me (l : LineId) (f : LineRec → LineRec) : (s.modLine l f).me = s.me := rfl
@[simp] theorem modLine_pu (l : LineId) (f : LineRec → LineRec) : (s.modLine l f).pu = s.pu := rfl
@[simp] theorem modLine_ft (l : LineId) (f : LineRec → LineRec) : (s.modLine l f).ft = s.ft := rfl
@[simp] theorem modLine_ru (l : LineId) (f : LineRec → LineRec) : (s.modLine l f).ru = s.ru := rfl
@[simp] theorem modLine_cu (l : LineId) (f : LineRec → LineRec) : (s.modLine l f).cu = s.cu := rfl
@[simp] theorem modLine_ld (l : LineId) (f : LineRec → LineRec) : (s.modLine l f).ld = s.ld := rfl
@[simp] theorem modLine_handed (l : LineId) (f : LineRec → LineRec) : (s.modLine l f).handed = s.handed := rfl
@[simp] theorem modLine_draws (l : LineId) (f : LineRec → LineRec) : (s.modLine l f).draws = s.draws := rfl
@[simp] theorem modLine_pending (l : LineId) (f : LineRec → LineRec) : (s.modLine l f).pending = s.pending := rfl
@[simp] theorem modLine_handset (l : LineId) (f : LineRec → LineRec) (k : Handset) : (s.modLine l f).handset k = s.handset k := rfl
@[simp] theorem modLine_map (l : LineId) (f : LineRec → LineRec) (q : PosId) : (s.modLine l f).map q = s.map q := rfl
@[simp] theorem modLine_appears (l : LineId) (f : LineRec → LineRec) (q : PosId) (m : LineId) : (s.modLine l f).appears q m = s.appears q m := rfl
@[simp] theorem modLine_ring (l : LineId) (f : LineRec → LineRec) (m : LineId) : (s.modLine l f).ring m = s.ring m := rfl
@[simp] theorem modLine_posRing (l : LineId) (f : LineRec → LineRec) (q : PosId) : (s.modLine l f).posRing q = s.posRing q := rfl
@[simp] theorem modLine_group (l : LineId) (f : LineRec → LineRec) (k : GroupId) : (s.modLine l f).group k = s.group k := rfl
@[simp] theorem modLine_settings (l : LineId) (f : LineRec → LineRec) (q : PosId) : (s.modLine l f).settings q = s.settings q := rfl
@[simp] theorem modLine_speakers (l : LineId) (f : LineRec → LineRec) (q : PosId) : (s.modLine l f).speakers q = s.speakers q := rfl
@[simp] theorem modLine_chan (l : LineId) (f : LineRec → LineRec) (k : ChanId) : (s.modLine l f).chan k = s.chan k := rfl
@[simp] theorem modLine_now (l : LineId) (f : LineRec → LineRec) : (s.modLine l f).now = s.now := rfl
@[simp] theorem modLine_running (l : LineId) (f : LineRec → LineRec) : (s.modLine l f).running = s.running := rfl

/-! ### `modHandset` -/

@[simp] theorem modHandset_rc (h : Handset) (f : HandsetRec → HandsetRec) : (s.modHandset h f).rc = s.rc := rfl
@[simp] theorem modHandset_fc (h : Handset) (f : HandsetRec → HandsetRec) : (s.modHandset h f).fc = s.fc := rfl
@[simp] theorem modHandset_mp (h : Handset) (f : HandsetRec → HandsetRec) : (s.modHandset h f).mp = s.mp := rfl
@[simp] theorem modHandset_me (h : Handset) (f : HandsetRec → HandsetRec) : (s.modHandset h f).me = s.me := rfl
@[simp] theorem modHandset_pu (h : Handset) (f : HandsetRec → HandsetRec) : (s.modHandset h f).pu = s.pu := rfl
@[simp] theorem modHandset_ft (h : Handset) (f : HandsetRec → HandsetRec) : (s.modHandset h f).ft = s.ft := rfl
@[simp] theorem modHandset_ru (h : Handset) (f : HandsetRec → HandsetRec) : (s.modHandset h f).ru = s.ru := rfl
@[simp] theorem modHandset_cu (h : Handset) (f : HandsetRec → HandsetRec) : (s.modHandset h f).cu = s.cu := rfl
@[simp] theorem modHandset_ld (h : Handset) (f : HandsetRec → HandsetRec) : (s.modHandset h f).ld = s.ld := rfl
@[simp] theorem modHandset_handed (h : Handset) (f : HandsetRec → HandsetRec) : (s.modHandset h f).handed = s.handed := rfl
@[simp] theorem modHandset_draws (h : Handset) (f : HandsetRec → HandsetRec) : (s.modHandset h f).draws = s.draws := rfl
@[simp] theorem modHandset_pending (h : Handset) (f : HandsetRec → HandsetRec) : (s.modHandset h f).pending = s.pending := rfl
@[simp] theorem modHandset_line (h : Handset) (f : HandsetRec → HandsetRec) (m : LineId) : (s.modHandset h f).line m = s.line m := rfl
@[simp] theorem modHandset_map (h : Handset) (f : HandsetRec → HandsetRec) (q : PosId) : (s.modHandset h f).map q = s.map q := rfl
@[simp] theorem modHandset_appears (h : Handset) (f : HandsetRec → HandsetRec) (q : PosId) (m : LineId) : (s.modHandset h f).appears q m = s.appears q m := rfl
@[simp] theorem modHandset_ring (h : Handset) (f : HandsetRec → HandsetRec) (m : LineId) : (s.modHandset h f).ring m = s.ring m := rfl
@[simp] theorem modHandset_posRing (h : Handset) (f : HandsetRec → HandsetRec) (q : PosId) : (s.modHandset h f).posRing q = s.posRing q := rfl
@[simp] theorem modHandset_group (h : Handset) (f : HandsetRec → HandsetRec) (k : GroupId) : (s.modHandset h f).group k = s.group k := rfl
@[simp] theorem modHandset_settings (h : Handset) (f : HandsetRec → HandsetRec) (q : PosId) : (s.modHandset h f).settings q = s.settings q := rfl
@[simp] theorem modHandset_speakers (h : Handset) (f : HandsetRec → HandsetRec) (q : PosId) : (s.modHandset h f).speakers q = s.speakers q := rfl
@[simp] theorem modHandset_chan (h : Handset) (f : HandsetRec → HandsetRec) (k : ChanId) : (s.modHandset h f).chan k = s.chan k := rfl
@[simp] theorem modHandset_now (h : Handset) (f : HandsetRec → HandsetRec) : (s.modHandset h f).now = s.now := rfl
@[simp] theorem modHandset_running (h : Handset) (f : HandsetRec → HandsetRec) : (s.modHandset h f).running = s.running := rfl

/-! ### `setKey` -/

@[simp] theorem setKey_rc (p : PosId) (k : KeyId) (x : Option LineId) : (s.setKey p k x).rc = s.rc := rfl
@[simp] theorem setKey_fc (p : PosId) (k : KeyId) (x : Option LineId) : (s.setKey p k x).fc = s.fc := rfl
@[simp] theorem setKey_mp (p : PosId) (k : KeyId) (x : Option LineId) : (s.setKey p k x).mp = s.mp := rfl
@[simp] theorem setKey_me (p : PosId) (k : KeyId) (x : Option LineId) : (s.setKey p k x).me = s.me := rfl
@[simp] theorem setKey_pu (p : PosId) (k : KeyId) (x : Option LineId) : (s.setKey p k x).pu = s.pu := rfl
@[simp] theorem setKey_ft (p : PosId) (k : KeyId) (x : Option LineId) : (s.setKey p k x).ft = s.ft := rfl
@[simp] theorem setKey_ru (p : PosId) (k : KeyId) (x : Option LineId) : (s.setKey p k x).ru = s.ru := rfl
@[simp] theorem setKey_cu (p : PosId) (k : KeyId) (x : Option LineId) : (s.setKey p k x).cu = s.cu := rfl
@[simp] theorem setKey_ld (p : PosId) (k : KeyId) (x : Option LineId) : (s.setKey p k x).ld = s.ld := rfl
@[simp] theorem setKey_handed (p : PosId) (k : KeyId) (x : Option LineId) : (s.setKey p k x).handed = s.handed := rfl
@[simp] theorem setKey_draws (p : PosId) (k : KeyId) (x : Option LineId) : (s.setKey p k x).draws = s.draws := rfl
@[simp] theorem setKey_pending (p : PosId) (k : KeyId) (x : Option LineId) : (s.setKey p k x).pending = s.pending := rfl
@[simp] theorem setKey_line (p : PosId) (k : KeyId) (x : Option LineId) (m : LineId) : (s.setKey p k x).line m = s.line m := rfl
@[simp] theorem setKey_handset (p : PosId) (k : KeyId) (x : Option LineId) (h : Handset) : (s.setKey p k x).handset h = s.handset h := rfl
@[simp] theorem setKey_ring (p : PosId) (k : KeyId) (x : Option LineId) (m : LineId) : (s.setKey p k x).ring m = s.ring m := rfl
@[simp] theorem setKey_posRing (p : PosId) (k : KeyId) (x : Option LineId) (q : PosId) : (s.setKey p k x).posRing q = s.posRing q := rfl
@[simp] theorem setKey_group (p : PosId) (k : KeyId) (x : Option LineId) (g : GroupId) : (s.setKey p k x).group g = s.group g := rfl
@[simp] theorem setKey_settings (p : PosId) (k : KeyId) (x : Option LineId) (q : PosId) : (s.setKey p k x).settings q = s.settings q := rfl
@[simp] theorem setKey_speakers (p : PosId) (k : KeyId) (x : Option LineId) (q : PosId) : (s.setKey p k x).speakers q = s.speakers q := rfl
@[simp] theorem setKey_chan (p : PosId) (k : KeyId) (x : Option LineId) (c : ChanId) : (s.setKey p k x).chan c = s.chan c := rfl
@[simp] theorem setKey_now (p : PosId) (k : KeyId) (x : Option LineId) : (s.setKey p k x).now = s.now := rfl
@[simp] theorem setKey_running (p : PosId) (k : KeyId) (x : Option LineId) : (s.setKey p k x).running = s.running := rfl

/-! ### `setRing` -/

@[simp] theorem setRing_lc (l : LineId) (r : Option RingRec) : (s.setRing l r).lc = s.lc := rfl
@[simp] theorem setRing_fc (l : LineId) (r : Option RingRec) : (s.setRing l r).fc = s.fc := rfl
@[simp] theorem setRing_mp (l : LineId) (r : Option RingRec) : (s.setRing l r).mp = s.mp := rfl
@[simp] theorem setRing_me (l : LineId) (r : Option RingRec) : (s.setRing l r).me = s.me := rfl
@[simp] theorem setRing_pu (l : LineId) (r : Option RingRec) : (s.setRing l r).pu = s.pu := rfl
@[simp] theorem setRing_ft (l : LineId) (r : Option RingRec) : (s.setRing l r).ft = s.ft := rfl
@[simp] theorem setRing_ru (l : LineId) (r : Option RingRec) : (s.setRing l r).ru = s.ru := rfl
@[simp] theorem setRing_cu (l : LineId) (r : Option RingRec) : (s.setRing l r).cu = s.cu := rfl
@[simp] theorem setRing_ld (l : LineId) (r : Option RingRec) : (s.setRing l r).ld = s.ld := rfl
@[simp] theorem setRing_handed (l : LineId) (r : Option RingRec) : (s.setRing l r).handed = s.handed := rfl
@[simp] theorem setRing_draws (l : LineId) (r : Option RingRec) : (s.setRing l r).draws = s.draws := rfl
@[simp] theorem setRing_pending (l : LineId) (r : Option RingRec) : (s.setRing l r).pending = s.pending := rfl
@[simp] theorem setRing_line (l : LineId) (r : Option RingRec) (m : LineId) : (s.setRing l r).line m = s.line m := rfl
@[simp] theorem setRing_handset (l : LineId) (r : Option RingRec) (k : Handset) : (s.setRing l r).handset k = s.handset k := rfl
@[simp] theorem setRing_map (l : LineId) (r : Option RingRec) (q : PosId) : (s.setRing l r).map q = s.map q := rfl
@[simp] theorem setRing_appears (l : LineId) (r : Option RingRec) (q : PosId) (m : LineId) : (s.setRing l r).appears q m = s.appears q m := rfl
@[simp] theorem setRing_posRing (l : LineId) (r : Option RingRec) (q : PosId) : (s.setRing l r).posRing q = s.posRing q := rfl
@[simp] theorem setRing_group (l : LineId) (r : Option RingRec) (k : GroupId) : (s.setRing l r).group k = s.group k := rfl
@[simp] theorem setRing_settings (l : LineId) (r : Option RingRec) (q : PosId) : (s.setRing l r).settings q = s.settings q := rfl
@[simp] theorem setRing_speakers (l : LineId) (r : Option RingRec) (q : PosId) : (s.setRing l r).speakers q = s.speakers q := rfl
@[simp] theorem setRing_chan (l : LineId) (r : Option RingRec) (k : ChanId) : (s.setRing l r).chan k = s.chan k := rfl
@[simp] theorem setRing_now (l : LineId) (r : Option RingRec) : (s.setRing l r).now = s.now := rfl
@[simp] theorem setRing_running (l : LineId) (r : Option RingRec) : (s.setRing l r).running = s.running := rfl

/-! ### `setPosRing` -/

@[simp] theorem setPosRing_lc (p : PosId) (c : PosRing) : (s.setPosRing p c).lc = s.lc := rfl
@[simp] theorem setPosRing_fc (p : PosId) (c : PosRing) : (s.setPosRing p c).fc = s.fc := rfl
@[simp] theorem setPosRing_mp (p : PosId) (c : PosRing) : (s.setPosRing p c).mp = s.mp := rfl
@[simp] theorem setPosRing_me (p : PosId) (c : PosRing) : (s.setPosRing p c).me = s.me := rfl
@[simp] theorem setPosRing_pu (p : PosId) (c : PosRing) : (s.setPosRing p c).pu = s.pu := rfl
@[simp] theorem setPosRing_ft (p : PosId) (c : PosRing) : (s.setPosRing p c).ft = s.ft := rfl
@[simp] theorem setPosRing_ru (p : PosId) (c : PosRing) : (s.setPosRing p c).ru = s.ru := rfl
@[simp] theorem setPosRing_cu (p : PosId) (c : PosRing) : (s.setPosRing p c).cu = s.cu := rfl
@[simp] theorem setPosRing_ld (p : PosId) (c : PosRing) : (s.setPosRing p c).ld = s.ld := rfl
@[simp] theorem setPosRing_handed (p : PosId) (c : PosRing) : (s.setPosRing p c).handed = s.handed := rfl
@[simp] theorem setPosRing_draws (p : PosId) (c : PosRing) : (s.setPosRing p c).draws = s.draws := rfl
@[simp] theorem setPosRing_pending (p : PosId) (c : PosRing) : (s.setPosRing p c).pending = s.pending := rfl
@[simp] theorem setPosRing_line (p : PosId) (c : PosRing) (m : LineId) : (s.setPosRing p c).line m = s.line m := rfl
@[simp] theorem setPosRing_handset (p : PosId) (c : PosRing) (k : Handset) : (s.setPosRing p c).handset k = s.handset k := rfl
@[simp] theorem setPosRing_map (p : PosId) (c : PosRing) (q : PosId) : (s.setPosRing p c).map q = s.map q := rfl
@[simp] theorem setPosRing_appears (p : PosId) (c : PosRing) (q : PosId) (m : LineId) : (s.setPosRing p c).appears q m = s.appears q m := rfl
@[simp] theorem setPosRing_ring (p : PosId) (c : PosRing) (m : LineId) : (s.setPosRing p c).ring m = s.ring m := rfl
@[simp] theorem setPosRing_group (p : PosId) (c : PosRing) (k : GroupId) : (s.setPosRing p c).group k = s.group k := rfl
@[simp] theorem setPosRing_settings (p : PosId) (c : PosRing) (q : PosId) : (s.setPosRing p c).settings q = s.settings q := rfl
@[simp] theorem setPosRing_speakers (p : PosId) (c : PosRing) (q : PosId) : (s.setPosRing p c).speakers q = s.speakers q := rfl
@[simp] theorem setPosRing_chan (p : PosId) (c : PosRing) (k : ChanId) : (s.setPosRing p c).chan k = s.chan k := rfl
@[simp] theorem setPosRing_now (p : PosId) (c : PosRing) : (s.setPosRing p c).now = s.now := rfl
@[simp] theorem setPosRing_running (p : PosId) (c : PosRing) : (s.setPosRing p c).running = s.running := rfl

/-! ### `modGroup` -/

@[simp] theorem modGroup_lc (g : GroupId) (f : GroupRec → GroupRec) : (s.modGroup g f).lc = s.lc := rfl
@[simp] theorem modGroup_rc (g : GroupId) (f : GroupRec → GroupRec) : (s.modGroup g f).rc = s.rc := rfl
@[simp] theorem modGroup_mp (g : GroupId) (f : GroupRec → GroupRec) : (s.modGroup g f).mp = s.mp := rfl
@[simp] theorem modGroup_me (g : GroupId) (f : GroupRec → GroupRec) : (s.modGroup g f).me = s.me := rfl
@[simp] theorem modGroup_pu (g : GroupId) (f : GroupRec → GroupRec) : (s.modGroup g f).pu = s.pu := rfl
@[simp] theorem modGroup_ft (g : GroupId) (f : GroupRec → GroupRec) : (s.modGroup g f).ft = s.ft := rfl
@[simp] theorem modGroup_ru (g : GroupId) (f : GroupRec → GroupRec) : (s.modGroup g f).ru = s.ru := rfl
@[simp] theorem modGroup_cu (g : GroupId) (f : GroupRec → GroupRec) : (s.modGroup g f).cu = s.cu := rfl
@[simp] theorem modGroup_ld (g : GroupId) (f : GroupRec → GroupRec) : (s.modGroup g f).ld = s.ld := rfl
@[simp] theorem modGroup_handed (g : GroupId) (f : GroupRec → GroupRec) : (s.modGroup g f).handed = s.handed := rfl
@[simp] theorem modGroup_draws (g : GroupId) (f : GroupRec → GroupRec) : (s.modGroup g f).draws = s.draws := rfl
@[simp] theorem modGroup_pending (g : GroupId) (f : GroupRec → GroupRec) : (s.modGroup g f).pending = s.pending := rfl
@[simp] theorem modGroup_line (g : GroupId) (f : GroupRec → GroupRec) (m : LineId) : (s.modGroup g f).line m = s.line m := rfl
@[simp] theorem modGroup_handset (g : GroupId) (f : GroupRec → GroupRec) (k : Handset) : (s.modGroup g f).handset k = s.handset k := rfl
@[simp] theorem modGroup_map (g : GroupId) (f : GroupRec → GroupRec) (q : PosId) : (s.modGroup g f).map q = s.map q := rfl
@[simp] theorem modGroup_appears (g : GroupId) (f : GroupRec → GroupRec) (q : PosId) (m : LineId) : (s.modGroup g f).appears q m = s.appears q m := rfl
@[simp] theorem modGroup_ring (g : GroupId) (f : GroupRec → GroupRec) (m : LineId) : (s.modGroup g f).ring m = s.ring m := rfl
@[simp] theorem modGroup_posRing (g : GroupId) (f : GroupRec → GroupRec) (q : PosId) : (s.modGroup g f).posRing q = s.posRing q := rfl
@[simp] theorem modGroup_settings (g : GroupId) (f : GroupRec → GroupRec) (q : PosId) : (s.modGroup g f).settings q = s.settings q := rfl
@[simp] theorem modGroup_speakers (g : GroupId) (f : GroupRec → GroupRec) (q : PosId) : (s.modGroup g f).speakers q = s.speakers q := rfl
@[simp] theorem modGroup_chan (g : GroupId) (f : GroupRec → GroupRec) (k : ChanId) : (s.modGroup g f).chan k = s.chan k := rfl
@[simp] theorem modGroup_now (g : GroupId) (f : GroupRec → GroupRec) : (s.modGroup g f).now = s.now := rfl
@[simp] theorem modGroup_running (g : GroupId) (f : GroupRec → GroupRec) : (s.modGroup g f).running = s.running := rfl

/-! ### `modChan` -/

@[simp] theorem modChan_lc (c : ChanId) (f : Channel → Channel) : (s.modChan c f).lc = s.lc := rfl
@[simp] theorem modChan_rc (c : ChanId) (f : Channel → Channel) : (s.modChan c f).rc = s.rc := rfl
@[simp] theorem modChan_fc (c : ChanId) (f : Channel → Channel) : (s.modChan c f).fc = s.fc := rfl
@[simp] theorem modChan_mp (c : ChanId) (f : Channel → Channel) : (s.modChan c f).mp = s.mp := rfl
@[simp] theorem modChan_me (c : ChanId) (f : Channel → Channel) : (s.modChan c f).me = s.me := rfl
@[simp] theorem modChan_pu (c : ChanId) (f : Channel → Channel) : (s.modChan c f).pu = s.pu := rfl
@[simp] theorem modChan_ft (c : ChanId) (f : Channel → Channel) : (s.modChan c f).ft = s.ft := rfl
@[simp] theorem modChan_cu (c : ChanId) (f : Channel → Channel) : (s.modChan c f).cu = s.cu := rfl
@[simp] theorem modChan_ld (c : ChanId) (f : Channel → Channel) : (s.modChan c f).ld = s.ld := rfl
@[simp] theorem modChan_handed (c : ChanId) (f : Channel → Channel) : (s.modChan c f).handed = s.handed := rfl
@[simp] theorem modChan_draws (c : ChanId) (f : Channel → Channel) : (s.modChan c f).draws = s.draws := rfl
@[simp] theorem modChan_pending (c : ChanId) (f : Channel → Channel) : (s.modChan c f).pending = s.pending := rfl
@[simp] theorem modChan_line (c : ChanId) (f : Channel → Channel) (m : LineId) : (s.modChan c f).line m = s.line m := rfl
@[simp] theorem modChan_handset (c : ChanId) (f : Channel → Channel) (k : Handset) : (s.modChan c f).handset k = s.handset k := rfl
@[simp] theorem modChan_map (c : ChanId) (f : Channel → Channel) (q : PosId) : (s.modChan c f).map q = s.map q := rfl
@[simp] theorem modChan_appears (c : ChanId) (f : Channel → Channel) (q : PosId) (m : LineId) : (s.modChan c f).appears q m = s.appears q m := rfl
@[simp] theorem modChan_ring (c : ChanId) (f : Channel → Channel) (m : LineId) : (s.modChan c f).ring m = s.ring m := rfl
@[simp] theorem modChan_posRing (c : ChanId) (f : Channel → Channel) (q : PosId) : (s.modChan c f).posRing q = s.posRing q := rfl
@[simp] theorem modChan_group (c : ChanId) (f : Channel → Channel) (k : GroupId) : (s.modChan c f).group k = s.group k := rfl
@[simp] theorem modChan_settings (c : ChanId) (f : Channel → Channel) (q : PosId) : (s.modChan c f).settings q = s.settings q := rfl
@[simp] theorem modChan_speakers (c : ChanId) (f : Channel → Channel) (q : PosId) : (s.modChan c f).speakers q = s.speakers q := rfl
@[simp] theorem modChan_now (c : ChanId) (f : Channel → Channel) : (s.modChan c f).now = s.now := rfl
@[simp] theorem modChan_running (c : ChanId) (f : Channel → Channel) : (s.modChan c f).running = s.running := rfl

/-! ### `requestOwn` -/

@[simp] theorem requestOwn_lc (u : Purpose) (a : Addr) (d : List Byte) : (requestOwn u a d s).lc = s.lc := rfl
@[simp] theorem requestOwn_rc (u : Purpose) (a : Addr) (d : List Byte) : (requestOwn u a d s).rc = s.rc := rfl
@[simp] theorem requestOwn_fc (u : Purpose) (a : Addr) (d : List Byte) : (requestOwn u a d s).fc = s.fc := rfl
@[simp] theorem requestOwn_mp (u : Purpose) (a : Addr) (d : List Byte) : (requestOwn u a d s).mp = s.mp := rfl
@[simp] theorem requestOwn_me (u : Purpose) (a : Addr) (d : List Byte) : (requestOwn u a d s).me = s.me := rfl
@[simp] theorem requestOwn_ft (u : Purpose) (a : Addr) (d : List Byte) : (requestOwn u a d s).ft = s.ft := rfl
@[simp] theorem requestOwn_ru (u : Purpose) (a : Addr) (d : List Byte) : (requestOwn u a d s).ru = s.ru := rfl
@[simp] theorem requestOwn_cu (u : Purpose) (a : Addr) (d : List Byte) : (requestOwn u a d s).cu = s.cu := rfl
@[simp] theorem requestOwn_ld (u : Purpose) (a : Addr) (d : List Byte) : (requestOwn u a d s).ld = s.ld := rfl
@[simp] theorem requestOwn_handed (u : Purpose) (a : Addr) (d : List Byte) : (requestOwn u a d s).handed = s.handed := rfl
@[simp] theorem requestOwn_draws (u : Purpose) (a : Addr) (d : List Byte) : (requestOwn u a d s).draws = s.draws := rfl
@[simp] theorem requestOwn_pending (u : Purpose) (a : Addr) (d : List Byte) : (requestOwn u a d s).pending = s.pending := rfl
@[simp] theorem requestOwn_line (u : Purpose) (a : Addr) (d : List Byte) (m : LineId) : (requestOwn u a d s).line m = s.line m := rfl
@[simp] theorem requestOwn_handset (u : Purpose) (a : Addr) (d : List Byte) (k : Handset) : (requestOwn u a d s).handset k = s.handset k := rfl
@[simp] theorem requestOwn_map (u : Purpose) (a : Addr) (d : List Byte) (q : PosId) : (requestOwn u a d s).map q = s.map q := rfl
@[simp] theorem requestOwn_appears (u : Purpose) (a : Addr) (d : List Byte) (q : PosId) (m : LineId) : (requestOwn u a d s).appears q m = s.appears q m := rfl
@[simp] theorem requestOwn_ring (u : Purpose) (a : Addr) (d : List Byte) (m : LineId) : (requestOwn u a d s).ring m = s.ring m := rfl
@[simp] theorem requestOwn_posRing (u : Purpose) (a : Addr) (d : List Byte) (q : PosId) : (requestOwn u a d s).posRing q = s.posRing q := rfl
@[simp] theorem requestOwn_group (u : Purpose) (a : Addr) (d : List Byte) (k : GroupId) : (requestOwn u a d s).group k = s.group k := rfl
@[simp] theorem requestOwn_settings (u : Purpose) (a : Addr) (d : List Byte) (q : PosId) : (requestOwn u a d s).settings q = s.settings q := rfl
@[simp] theorem requestOwn_speakers (u : Purpose) (a : Addr) (d : List Byte) (q : PosId) : (requestOwn u a d s).speakers q = s.speakers q := rfl
@[simp] theorem requestOwn_chan (u : Purpose) (a : Addr) (d : List Byte) (k : ChanId) : (requestOwn u a d s).chan k = s.chan k := rfl
@[simp] theorem requestOwn_now (u : Purpose) (a : Addr) (d : List Byte) : (requestOwn u a d s).now = s.now := rfl
@[simp] theorem requestOwn_running (u : Purpose) (a : Addr) (d : List Byte) : (requestOwn u a d s).running = s.running := rfl

/-! ### `takeHanded` -/

@[simp] theorem takeHanded_lc (h : Handed) : (takeHanded h s).lc = s.lc := rfl
@[simp] theorem takeHanded_rc (h : Handed) : (takeHanded h s).rc = s.rc := rfl
@[simp] theorem takeHanded_fc (h : Handed) : (takeHanded h s).fc = s.fc := rfl
@[simp] theorem takeHanded_mp (h : Handed) : (takeHanded h s).mp = s.mp := rfl
@[simp] theorem takeHanded_me (h : Handed) : (takeHanded h s).me = s.me := rfl
@[simp] theorem takeHanded_pu (h : Handed) : (takeHanded h s).pu = s.pu := rfl
@[simp] theorem takeHanded_ft (h : Handed) : (takeHanded h s).ft = s.ft := rfl
@[simp] theorem takeHanded_ru (h : Handed) : (takeHanded h s).ru = s.ru := rfl
@[simp] theorem takeHanded_cu (h : Handed) : (takeHanded h s).cu = s.cu := rfl
@[simp] theorem takeHanded_ld (h : Handed) : (takeHanded h s).ld = s.ld := rfl
@[simp] theorem takeHanded_draws (h : Handed) : (takeHanded h s).draws = s.draws := rfl
@[simp] theorem takeHanded_pending (h : Handed) : (takeHanded h s).pending = s.pending := rfl
@[simp] theorem takeHanded_line (h : Handed) (m : LineId) : (takeHanded h s).line m = s.line m := rfl
@[simp] theorem takeHanded_handset (h : Handed) (k : Handset) : (takeHanded h s).handset k = s.handset k := rfl
@[simp] theorem takeHanded_map (h : Handed) (q : PosId) : (takeHanded h s).map q = s.map q := rfl
@[simp] theorem takeHanded_appears (h : Handed) (q : PosId) (m : LineId) : (takeHanded h s).appears q m = s.appears q m := rfl
@[simp] theorem takeHanded_ring (h : Handed) (m : LineId) : (takeHanded h s).ring m = s.ring m := rfl
@[simp] theorem takeHanded_posRing (h : Handed) (q : PosId) : (takeHanded h s).posRing q = s.posRing q := rfl
@[simp] theorem takeHanded_group (h : Handed) (k : GroupId) : (takeHanded h s).group k = s.group k := rfl
@[simp] theorem takeHanded_settings (h : Handed) (q : PosId) : (takeHanded h s).settings q = s.settings q := rfl
@[simp] theorem takeHanded_speakers (h : Handed) (q : PosId) : (takeHanded h s).speakers q = s.speakers q := rfl
@[simp] theorem takeHanded_chan (h : Handed) (k : ChanId) : (takeHanded h s).chan k = s.chan k := rfl
@[simp] theorem takeHanded_now (h : Handed) : (takeHanded h s).now = s.now := rfl
@[simp] theorem takeHanded_running (h : Handed) : (takeHanded h s).running = s.running := rfl

/-- Whether a deadline is due depends on the Frame Timer alone. -/
theorem State.due_congr {s t : State} (h : t.ft = s.ft) (d : Word) : t.due d = s.due d := by
  unfold State.due State.now
  rw [h]

/-- States that agree in every part are equal: how a frame is proved. -/
theorem State.ext_parts {s t : State} (lc : s.lc = t.lc) (rc : s.rc = t.rc) (fc : s.fc = t.fc) (mp : s.mp = t.mp)
    (me : s.me = t.me) (pu : s.pu = t.pu) (ft : s.ft = t.ft) (ru : s.ru = t.ru) (cu : s.cu = t.cu) (ld : s.ld = t.ld)
    (handed : s.handed = t.handed) (draws : s.draws = t.draws) (pending : s.pending = t.pending) : s = t := by
  cases s
  cases t
  simp_all

/-! ### Series of steps -/

/-- What every step of a series leaves alone, the series leaves alone. -/
theorem foldl_keeps {α β : Type} (get : State → β) (f : State → α → State) (h : ∀ s a, get (f s a) = get s) (as : List α)
    (s : State) : get (as.foldl f s) = get s := by
  induction as generalizing s with
  | nil => rfl
  | cons a as ih => rw [List.foldl_cons, ih, h]

/-! ### Reading back -/

@[simp] theorem modLine_line_self (l : LineId) (f : LineRec → LineRec) : (s.modLine l f).line l = f (s.line l) := by
  simp [State.modLine, State.line]

theorem modLine_line (l m : LineId) (f : LineRec → LineRec) :
    (s.modLine l f).line m = if l = m then f (s.line l) else s.line m := by
  simp [State.modLine, State.line, Table.get_modify]

@[simp] theorem modLine_line_ne (l m : LineId) (f : LineRec → LineRec) (h : l ≠ m) :
    (s.modLine l f).line m = s.line m := by simp [modLine_line, h]

theorem Handset.idx_inj {h k : Handset} (e : h.idx = k.idx) : h = k := by
  obtain ⟨p, a⟩ := h
  obtain ⟨q, b⟩ := k
  cases a <;> cases b <;> simp [Handset.idx, Fin.ext_iff] at e ⊢ <;> omega

@[simp] theorem modHandset_handset_self (h : Handset) (f : HandsetRec → HandsetRec) :
    (s.modHandset h f).handset h = f (s.handset h) := by simp [State.modHandset, State.handset]

theorem modHandset_handset (h k : Handset) (f : HandsetRec → HandsetRec) :
    (s.modHandset h f).handset k = if h = k then f (s.handset h) else s.handset k := by
  by_cases e : h = k
  · subst e; simp
  · have : h.idx ≠ k.idx := fun x => e (Handset.idx_inj x)
    simp [State.modHandset, State.handset, this, e]

@[simp] theorem setRing_ring_self (l : LineId) (r : Option RingRec) : (s.setRing l r).ring l = r := by
  simp [State.setRing, State.ring]

theorem setRing_ring (l m : LineId) (r : Option RingRec) :
    (s.setRing l r).ring m = if l = m then r else s.ring m := by
  simp [State.setRing, State.ring, Table.get_set]

@[simp] theorem setPosRing_posRing_self (p : PosId) (c : PosRing) : (s.setPosRing p c).posRing p = c := by
  simp [State.setPosRing, State.posRing]

theorem setPosRing_posRing (p q : PosId) (c : PosRing) :
    (s.setPosRing p c).posRing q = if p = q then c else s.posRing q := by
  simp [State.setPosRing, State.posRing, Table.get_set]

@[simp] theorem modGroup_group_self (g : GroupId) (f : GroupRec → GroupRec) :
    (s.modGroup g f).group g = f (s.group g) := by simp [State.modGroup, State.group]

theorem modGroup_group (g k : GroupId) (f : GroupRec → GroupRec) :
    (s.modGroup g f).group k = if g = k then f (s.group g) else s.group k := by
  simp [State.modGroup, State.group, Table.get_modify]

@[simp] theorem modChan_chan_self (c : ChanId) (f : Channel → Channel) : (s.modChan c f).chan c = f (s.chan c) := by
  simp [State.modChan, State.chan]

theorem modChan_chan (c k : ChanId) (f : Channel → Channel) :
    (s.modChan c f).chan k = if c = k then f (s.chan c) else s.chan k := by
  simp [State.modChan, State.chan, Table.get_modify]

@[simp] theorem setKey_map_self (p : PosId) (k : KeyId) (x : Option LineId) :
    (s.setKey p k x).map p = (s.map p).set k x := by simp [State.setKey, State.map]

theorem setKey_map (p q : PosId) (k : KeyId) (x : Option LineId) :
    (s.setKey p k x).map q = if p = q then (s.map p).set k x else s.map q := by
  simp [State.setKey, State.map, Table.get_modify]

/-- An own access joins the end of those asked for; nothing else of the path unit moves. -/
theorem requestOwn_pu (u : Purpose) (a : Addr) (d : List Byte) :
    (requestOwn u a d s).pu =
      { s.pu with own := s.pu.own ++ [⟨u, a, d, if u.isRead then s.pu.writesWaiting else 0⟩] } := rfl

end Sys2Proof.Machine
end

