-- ==== Sys2Proof/Laws/Events.lean ====
section
/-! SUPPORT. What posting events, recording faults and completing a command leave of the state, and what each does to the
Command and Event Unit. -/

namespace Sys2Proof.Machine

variable (s : State)

/-! ### `emit` -/

@[simp] theorem emit_lc (x : Emission) : (emit x s).lc = s.lc := rfl
@[simp] theorem emit_rc (x : Emission) : (emit x s).rc = s.rc := rfl
@[simp] theorem emit_fc (x : Emission) : (emit x s).fc = s.fc := rfl
@[simp] theorem emit_mp (x : Emission) : (emit x s).mp = s.mp := rfl
@[simp] theorem emit_me (x : Emission) : (emit x s).me = s.me := rfl
@[simp] theorem emit_ft (x : Emission) : (emit x s).ft = s.ft := rfl
@[simp] theorem emit_ru (x : Emission) : (emit x s).ru = s.ru := rfl
@[simp] theorem emit_ld (x : Emission) : (emit x s).ld = s.ld := rfl
@[simp] theorem emit_handed (x : Emission) : (emit x s).handed = s.handed := rfl
@[simp] theorem emit_draws (x : Emission) : (emit x s).draws = s.draws := rfl
@[simp] theorem emit_pending (x : Emission) : (emit x s).pending = s.pending := rfl
@[simp] theorem emit_line (x : Emission) (m : LineId) : (emit x s).line m = s.line m := rfl
@[simp] theorem emit_handset (x : Emission) (h : Handset) : (emit x s).handset h = s.handset h := rfl
@[simp] theorem emit_map (x : Emission) (q : PosId) : (emit x s).map q = s.map q := rfl
@[simp] theorem emit_appears (x : Emission) (q : PosId) (m : LineId) : (emit x s).appears q m = s.appears q m := rfl
@[simp] theorem emit_ring (x : Emission) (m : LineId) : (emit x s).ring m = s.ring m := rfl
@[simp] theorem emit_posRing (x : Emission) (q : PosId) : (emit x s).posRing q = s.posRing q := rfl
@[simp] theorem emit_group (x : Emission) (g : GroupId) : (emit x s).group g = s.group g := rfl
@[simp] theorem emit_settings (x : Emission) (q : PosId) : (emit x s).settings q = s.settings q := rfl
@[simp] theorem emit_speakers (x : Emission) (q : PosId) : (emit x s).speakers q = s.speakers q := rfl
@[simp] theorem emit_chan (x : Emission) (c : ChanId) : (emit x s).chan c = s.chan c := rfl
@[simp] theorem emit_now (x : Emission) : (emit x s).now = s.now := rfl
@[simp] theorem emit_running (x : Emission) : (emit x s).running = s.running := rfl

/-! ### `drain` -/

@[simp] theorem drain_lc : (drain s).lc = s.lc := rfl
@[simp] theorem drain_rc : (drain s).rc = s.rc := rfl
@[simp] theorem drain_fc : (drain s).fc = s.fc := rfl
@[simp] theorem drain_mp : (drain s).mp = s.mp := rfl
@[simp] theorem drain_me : (drain s).me = s.me := rfl
@[simp] theorem drain_ft : (drain s).ft = s.ft := rfl
@[simp] theorem drain_ru : (drain s).ru = s.ru := rfl
@[simp] theorem drain_ld : (drain s).ld = s.ld := rfl
@[simp] theorem drain_handed : (drain s).handed = s.handed := rfl
@[simp] theorem drain_draws : (drain s).draws = s.draws := rfl
@[simp] theorem drain_pending : (drain s).pending = s.pending := rfl
@[simp] theorem drain_line (m : LineId) : (drain s).line m = s.line m := rfl
@[simp] theorem drain_handset (h : Handset) : (drain s).handset h = s.handset h := rfl
@[simp] theorem drain_map (q : PosId) : (drain s).map q = s.map q := rfl
@[simp] theorem drain_appears (q : PosId) (m : LineId) : (drain s).appears q m = s.appears q m := rfl
@[simp] theorem drain_ring (m : LineId) : (drain s).ring m = s.ring m := rfl
@[simp] theorem drain_posRing (q : PosId) : (drain s).posRing q = s.posRing q := rfl
@[simp] theorem drain_group (g : GroupId) : (drain s).group g = s.group g := rfl
@[simp] theorem drain_settings (q : PosId) : (drain s).settings q = s.settings q := rfl
@[simp] theorem drain_speakers (q : PosId) : (drain s).speakers q = s.speakers q := rfl
@[simp] theorem drain_chan (c : ChanId) : (drain s).chan c = s.chan c := rfl
@[simp] theorem drain_now : (drain s).now = s.now := rfl
@[simp] theorem drain_running : (drain s).running = s.running := rfl

/-! ### `postKeeping` -/

@[simp] theorem postKeeping_lc (keep : Nat) (e : Event) : (postKeeping keep e s).lc = s.lc := rfl
@[simp] theorem postKeeping_rc (keep : Nat) (e : Event) : (postKeeping keep e s).rc = s.rc := rfl
@[simp] theorem postKeeping_fc (keep : Nat) (e : Event) : (postKeeping keep e s).fc = s.fc := rfl
@[simp] theorem postKeeping_mp (keep : Nat) (e : Event) : (postKeeping keep e s).mp = s.mp := rfl
@[simp] theorem postKeeping_me (keep : Nat) (e : Event) : (postKeeping keep e s).me = s.me := rfl
@[simp] theorem postKeeping_ft (keep : Nat) (e : Event) : (postKeeping keep e s).ft = s.ft := rfl
@[simp] theorem postKeeping_ru (keep : Nat) (e : Event) : (postKeeping keep e s).ru = s.ru := rfl
@[simp] theorem postKeeping_ld (keep : Nat) (e : Event) : (postKeeping keep e s).ld = s.ld := rfl
@[simp] theorem postKeeping_handed (keep : Nat) (e : Event) : (postKeeping keep e s).handed = s.handed := rfl
@[simp] theorem postKeeping_draws (keep : Nat) (e : Event) : (postKeeping keep e s).draws = s.draws := rfl
@[simp] theorem postKeeping_pending (keep : Nat) (e : Event) : (postKeeping keep e s).pending = s.pending := rfl
@[simp] theorem postKeeping_line (keep : Nat) (e : Event) (m : LineId) : (postKeeping keep e s).line m = s.line m := rfl
@[simp] theorem postKeeping_handset (keep : Nat) (e : Event) (h : Handset) : (postKeeping keep e s).handset h = s.handset h := rfl
@[simp] theorem postKeeping_map (keep : Nat) (e : Event) (q : PosId) : (postKeeping keep e s).map q = s.map q := rfl
@[simp] theorem postKeeping_appears (keep : Nat) (e : Event) (q : PosId) (m : LineId) : (postKeeping keep e s).appears q m = s.appears q m := rfl
@[simp] theorem postKeeping_ring (keep : Nat) (e : Event) (m : LineId) : (postKeeping keep e s).ring m = s.ring m := rfl
@[simp] theorem postKeeping_posRing (keep : Nat) (e : Event) (q : PosId) : (postKeeping keep e s).posRing q = s.posRing q := rfl
@[simp] theorem postKeeping_group (keep : Nat) (e : Event) (g : GroupId) : (postKeeping keep e s).group g = s.group g := rfl
@[simp] theorem postKeeping_settings (keep : Nat) (e : Event) (q : PosId) : (postKeeping keep e s).settings q = s.settings q := rfl
@[simp] theorem postKeeping_speakers (keep : Nat) (e : Event) (q : PosId) : (postKeeping keep e s).speakers q = s.speakers q := rfl
@[simp] theorem postKeeping_chan (keep : Nat) (e : Event) (c : ChanId) : (postKeeping keep e s).chan c = s.chan c := rfl
@[simp] theorem postKeeping_now (keep : Nat) (e : Event) : (postKeeping keep e s).now = s.now := rfl
@[simp] theorem postKeeping_running (keep : Nat) (e : Event) : (postKeeping keep e s).running = s.running := rfl

/-! ### `post` -/

@[simp] theorem post_lc (e : Event) : (post e s).lc = s.lc := rfl
@[simp] theorem post_rc (e : Event) : (post e s).rc = s.rc := rfl
@[simp] theorem post_fc (e : Event) : (post e s).fc = s.fc := rfl
@[simp] theorem post_mp (e : Event) : (post e s).mp = s.mp := rfl
@[simp] theorem post_me (e : Event) : (post e s).me = s.me := rfl
@[simp] theorem post_ft (e : Event) : (post e s).ft = s.ft := rfl
@[simp] theorem post_ru (e : Event) : (post e s).ru = s.ru := rfl
@[simp] theorem post_ld (e : Event) : (post e s).ld = s.ld := rfl
@[simp] theorem post_handed (e : Event) : (post e s).handed = s.handed := rfl
@[simp] theorem post_draws (e : Event) : (post e s).draws = s.draws := rfl
@[simp] theorem post_pending (e : Event) : (post e s).pending = s.pending := rfl
@[simp] theorem post_line (e : Event) (m : LineId) : (post e s).line m = s.line m := rfl
@[simp] theorem post_handset (e : Event) (h : Handset) : (post e s).handset h = s.handset h := rfl
@[simp] theorem post_map (e : Event) (q : PosId) : (post e s).map q = s.map q := rfl
@[simp] theorem post_appears (e : Event) (q : PosId) (m : LineId) : (post e s).appears q m = s.appears q m := rfl
@[simp] theorem post_ring (e : Event) (m : LineId) : (post e s).ring m = s.ring m := rfl
@[simp] theorem post_posRing (e : Event) (q : PosId) : (post e s).posRing q = s.posRing q := rfl
@[simp] theorem post_group (e : Event) (g : GroupId) : (post e s).group g = s.group g := rfl
@[simp] theorem post_settings (e : Event) (q : PosId) : (post e s).settings q = s.settings q := rfl
@[simp] theorem post_speakers (e : Event) (q : PosId) : (post e s).speakers q = s.speakers q := rfl
@[simp] theorem post_chan (e : Event) (c : ChanId) : (post e s).chan c = s.chan c := rfl
@[simp] theorem post_now (e : Event) : (post e s).now = s.now := rfl
@[simp] theorem post_running (e : Event) : (post e s).running = s.running := rfl

/-! ### `recordFault` -/

@[simp] theorem recordFault_lc (code : FaultCode) (kind : AccessKind) (addr : Addr) : (recordFault code kind addr s).lc = s.lc := rfl
@[simp] theorem recordFault_rc (code : FaultCode) (kind : AccessKind) (addr : Addr) : (recordFault code kind addr s).rc = s.rc := rfl
@[simp] theorem recordFault_fc (code : FaultCode) (kind : AccessKind) (addr : Addr) : (recordFault code kind addr s).fc = s.fc := rfl
@[simp] theorem recordFault_mp (code : FaultCode) (kind : AccessKind) (addr : Addr) : (recordFault code kind addr s).mp = s.mp := rfl
@[simp] theorem recordFault_me (code : FaultCode) (kind : AccessKind) (addr : Addr) : (recordFault code kind addr s).me = s.me := rfl
@[simp] theorem recordFault_ft (code : FaultCode) (kind : AccessKind) (addr : Addr) : (recordFault code kind addr s).ft = s.ft := rfl
@[simp] theorem recordFault_ru (code : FaultCode) (kind : AccessKind) (addr : Addr) : (recordFault code kind addr s).ru = s.ru := rfl
@[simp] theorem recordFault_ld (code : FaultCode) (kind : AccessKind) (addr : Addr) : (recordFault code kind addr s).ld = s.ld := rfl
@[simp] theorem recordFault_handed (code : FaultCode) (kind : AccessKind) (addr : Addr) : (recordFault code kind addr s).handed = s.handed := rfl
@[simp] theorem recordFault_draws (code : FaultCode) (kind : AccessKind) (addr : Addr) : (recordFault code kind addr s).draws = s.draws := rfl
@[simp] theorem recordFault_pending (code : FaultCode) (kind : AccessKind) (addr : Addr) : (recordFault code kind addr s).pending = s.pending := rfl
@[simp] theorem recordFault_line (code : FaultCode) (kind : AccessKind) (addr : Addr) (m : LineId) : (recordFault code kind addr s).line m = s.line m := rfl
@[simp] theorem recordFault_handset (code : FaultCode) (kind : AccessKind) (addr : Addr) (h : Handset) : (recordFault code kind addr s).handset h = s.handset h := rfl
@[simp] theorem recordFault_map (code : FaultCode) (kind : AccessKind) (addr : Addr) (q : PosId) : (recordFault code kind addr s).map q = s.map q := rfl
@[simp] theorem recordFault_appears (code : FaultCode) (kind : AccessKind) (addr : Addr) (q : PosId) (m : LineId) : (recordFault code kind addr s).appears q m = s.appears q m := rfl
@[simp] theorem recordFault_ring (code : FaultCode) (kind : AccessKind) (addr : Addr) (m : LineId) : (recordFault code kind addr s).ring m = s.ring m := rfl
@[simp] theorem recordFault_posRing (code : FaultCode) (kind : AccessKind) (addr : Addr) (q : PosId) : (recordFault code kind addr s).posRing q = s.posRing q := rfl
@[simp] theorem recordFault_group (code : FaultCode) (kind : AccessKind) (addr : Addr) (g : GroupId) : (recordFault code kind addr s).group g = s.group g := rfl
@[simp] theorem recordFault_settings (code : FaultCode) (kind : AccessKind) (addr : Addr) (q : PosId) : (recordFault code kind addr s).settings q = s.settings q := rfl
@[simp] theorem recordFault_speakers (code : FaultCode) (kind : AccessKind) (addr : Addr) (q : PosId) : (recordFault code kind addr s).speakers q = s.speakers q := rfl
@[simp] theorem recordFault_chan (code : FaultCode) (kind : AccessKind) (addr : Addr) (c : ChanId) : (recordFault code kind addr s).chan c = s.chan c := rfl
@[simp] theorem recordFault_now (code : FaultCode) (kind : AccessKind) (addr : Addr) : (recordFault code kind addr s).now = s.now := rfl
@[simp] theorem recordFault_running (code : FaultCode) (kind : AccessKind) (addr : Addr) : (recordFault code kind addr s).running = s.running := rfl

/-! ### `complete` -/

@[simp] theorem complete_lc (st : Status) : (complete st s).lc = s.lc := rfl
@[simp] theorem complete_rc (st : Status) : (complete st s).rc = s.rc := rfl
@[simp] theorem complete_fc (st : Status) : (complete st s).fc = s.fc := rfl
@[simp] theorem complete_mp (st : Status) : (complete st s).mp = s.mp := rfl
@[simp] theorem complete_me (st : Status) : (complete st s).me = s.me := rfl
@[simp] theorem complete_ft (st : Status) : (complete st s).ft = s.ft := rfl
@[simp] theorem complete_ru (st : Status) : (complete st s).ru = s.ru := rfl
@[simp] theorem complete_ld (st : Status) : (complete st s).ld = s.ld := rfl
@[simp] theorem complete_handed (st : Status) : (complete st s).handed = s.handed := rfl
@[simp] theorem complete_draws (st : Status) : (complete st s).draws = s.draws := rfl
@[simp] theorem complete_pending (st : Status) : (complete st s).pending = s.pending := rfl
@[simp] theorem complete_line (st : Status) (m : LineId) : (complete st s).line m = s.line m := rfl
@[simp] theorem complete_handset (st : Status) (h : Handset) : (complete st s).handset h = s.handset h := rfl
@[simp] theorem complete_map (st : Status) (q : PosId) : (complete st s).map q = s.map q := rfl
@[simp] theorem complete_appears (st : Status) (q : PosId) (m : LineId) : (complete st s).appears q m = s.appears q m := rfl
@[simp] theorem complete_ring (st : Status) (m : LineId) : (complete st s).ring m = s.ring m := rfl
@[simp] theorem complete_posRing (st : Status) (q : PosId) : (complete st s).posRing q = s.posRing q := rfl
@[simp] theorem complete_group (st : Status) (g : GroupId) : (complete st s).group g = s.group g := rfl
@[simp] theorem complete_settings (st : Status) (q : PosId) : (complete st s).settings q = s.settings q := rfl
@[simp] theorem complete_speakers (st : Status) (q : PosId) : (complete st s).speakers q = s.speakers q := rfl
@[simp] theorem complete_chan (st : Status) (c : ChanId) : (complete st s).chan c = s.chan c := rfl
@[simp] theorem complete_now (st : Status) : (complete st s).now = s.now := rfl
@[simp] theorem complete_running (st : Status) : (complete st s).running = s.running := rfl

/-! ### `postAll` -/

@[simp] theorem postAll_nil : postAll [] s = s := rfl
@[simp] theorem postAll_cons (e : Event) (es : List Event) : postAll (e :: es) s = postAll es (post e s) := rfl

@[simp] theorem postAll_lc (es : List Event) : (postAll es s).lc = s.lc := by
  induction es generalizing s with
  | nil => rfl
  | cons e es ih => simp [ih]
@[simp] theorem postAll_rc (es : List Event) : (postAll es s).rc = s.rc := by
  induction es generalizing s with
  | nil => rfl
  | cons e es ih => simp [ih]
@[simp] theorem postAll_fc (es : List Event) : (postAll es s).fc = s.fc := by
  induction es generalizing s with
  | nil => rfl
  | cons e es ih => simp [ih]
@[simp] theorem postAll_mp (es : List Event) : (postAll es s).mp = s.mp := by
  induction es generalizing s with
  | nil => rfl
  | cons e es ih => simp [ih]
@[simp] theorem postAll_me (es : List Event) : (postAll es s).me = s.me := by
  induction es generalizing s with
  | nil => rfl
  | cons e es ih => simp [ih]
@[simp] theorem postAll_ft (es : List Event) : (postAll es s).ft = s.ft := by
  induction es generalizing s with
  | nil => rfl
  | cons e es ih => simp [ih]
@[simp] theorem postAll_ru (es : List Event) : (postAll es s).ru = s.ru := by
  induction es generalizing s with
  | nil => rfl
  | cons e es ih => simp [ih]
@[simp] theorem postAll_ld (es : List Event) : (postAll es s).ld = s.ld := by
  induction es generalizing s with
  | nil => rfl
  | cons e es ih => simp [ih]
@[simp] theorem postAll_handed (es : List Event) : (postAll es s).handed = s.handed := by
  induction es generalizing s with
  | nil => rfl
  | cons e es ih => simp [ih]
@[simp] theorem postAll_draws (es : List Event) : (postAll es s).draws = s.draws := by
  induction es generalizing s with
  | nil => rfl
  | cons e es ih => simp [ih]
@[simp] theorem postAll_pending (es : List Event) : (postAll es s).pending = s.pending := by
  induction es generalizing s with
  | nil => rfl
  | cons e es ih => simp [ih]
@[simp] theorem postAll_line (es : List Event) (m : LineId) : (postAll es s).line m = s.line m := by
  simp [State.line]
@[simp] theorem postAll_handset (es : List Event) (h : Handset) : (postAll es s).handset h = s.handset h := by
  simp [State.handset]
@[simp] theorem postAll_map (es : List Event) (q : PosId) : (postAll es s).map q = s.map q := by
  simp [State.map]
@[simp] theorem postAll_appears (es : List Event) (q : PosId) (m : LineId) : (postAll es s).appears q m = s.appears q m := by
  simp [State.appears, State.map]
@[simp] theorem postAll_ring (es : List Event) (m : LineId) : (postAll es s).ring m = s.ring m := by
  simp [State.ring]
@[simp] theorem postAll_posRing (es : List Event) (q : PosId) : (postAll es s).posRing q = s.posRing q := by
  simp [State.posRing]
@[simp] theorem postAll_group (es : List Event) (g : GroupId) : (postAll es s).group g = s.group g := by
  simp [State.group]
@[simp] theorem postAll_settings (es : List Event) (q : PosId) : (postAll es s).settings q = s.settings q := by
  simp [State.settings]
@[simp] theorem postAll_speakers (es : List Event) (q : PosId) : (postAll es s).speakers q = s.speakers q := by
  simp [State.speakers]
@[simp] theorem postAll_chan (es : List Event) (c : ChanId) : (postAll es s).chan c = s.chan c := by
  simp [State.chan]
@[simp] theorem postAll_now (es : List Event) : (postAll es s).now = s.now := by
  simp [State.now]
@[simp] theorem postAll_running (es : List Event) : (postAll es s).running = s.running := by
  simp [State.running]

/-! ### `memoryFault`, `faultIf` -/

/-- A memory fault records the fault, and may post one event. -/
theorem memoryFault_cases (a : OwnAccess) :
    memoryFault a s = recordFault .memoryError a.purpose.kind a.addr s ∨
      memoryFault a s = post (.fault .memoryError a.purpose.kind a.addr (satSucc s.cu.fault.count))
        (recordFault .memoryError a.purpose.kind a.addr s) := by
  unfold memoryFault
  dsimp only
  split
  · exact .inl rfl
  · exact .inr rfl

@[simp] theorem memoryFault_lc (a : OwnAccess) : (memoryFault a s).lc = s.lc := by
  rcases memoryFault_cases s a with h | h <;> simp [h]
@[simp] theorem faultIf_lc (error : Bool) (a : OwnAccess) : (faultIf error a s).lc = s.lc := by
  cases error <;> simp [faultIf]
@[simp] theorem memoryFault_rc (a : OwnAccess) : (memoryFault a s).rc = s.rc := by
  rcases memoryFault_cases s a with h | h <;> simp [h]
@[simp] theorem faultIf_rc (error : Bool) (a : OwnAccess) : (faultIf error a s).rc = s.rc := by
  cases error <;> simp [faultIf]
@[simp] theorem memoryFault_fc (a : OwnAccess) : (memoryFault a s).fc = s.fc := by
  rcases memoryFault_cases s a with h | h <;> simp [h]
@[simp] theorem faultIf_fc (error : Bool) (a : OwnAccess) : (faultIf error a s).fc = s.fc := by
  cases error <;> simp [faultIf]
@[simp] theorem memoryFault_mp (a : OwnAccess) : (memoryFault a s).mp = s.mp := by
  rcases memoryFault_cases s a with h | h <;> simp [h]
@[simp] theorem faultIf_mp (error : Bool) (a : OwnAccess) : (faultIf error a s).mp = s.mp := by
  cases error <;> simp [faultIf]
@[simp] theorem memoryFault_me (a : OwnAccess) : (memoryFault a s).me = s.me := by
  rcases memoryFault_cases s a with h | h <;> simp [h]
@[simp] theorem faultIf_me (error : Bool) (a : OwnAccess) : (faultIf error a s).me = s.me := by
  cases error <;> simp [faultIf]
@[simp] theorem memoryFault_ft (a : OwnAccess) : (memoryFault a s).ft = s.ft := by
  rcases memoryFault_cases s a with h | h <;> simp [h]
@[simp] theorem faultIf_ft (error : Bool) (a : OwnAccess) : (faultIf error a s).ft = s.ft := by
  cases error <;> simp [faultIf]
@[simp] theorem memoryFault_ru (a : OwnAccess) : (memoryFault a s).ru = s.ru := by
  rcases memoryFault_cases s a with h | h <;> simp [h]
@[simp] theorem faultIf_ru (error : Bool) (a : OwnAccess) : (faultIf error a s).ru = s.ru := by
  cases error <;> simp [faultIf]
@[simp] theorem memoryFault_ld (a : OwnAccess) : (memoryFault a s).ld = s.ld := by
  rcases memoryFault_cases s a with h | h <;> simp [h]
@[simp] theorem faultIf_ld (error : Bool) (a : OwnAccess) : (faultIf error a s).ld = s.ld := by
  cases error <;> simp [faultIf]
@[simp] theorem memoryFault_handed (a : OwnAccess) : (memoryFault a s).handed = s.handed := by
  rcases memoryFault_cases s a with h | h <;> simp [h]
@[simp] theorem faultIf_handed (error : Bool) (a : OwnAccess) : (faultIf error a s).handed = s.handed := by
  cases error <;> simp [faultIf]
@[simp] theorem memoryFault_draws (a : OwnAccess) : (memoryFault a s).draws = s.draws := by
  rcases memoryFault_cases s a with h | h <;> simp [h]
@[simp] theorem faultIf_draws (error : Bool) (a : OwnAccess) : (faultIf error a s).draws = s.draws := by
  cases error <;> simp [faultIf]
@[simp] theorem memoryFault_pending (a : OwnAccess) : (memoryFault a s).pending = s.pending := by
  rcases memoryFault_cases s a with h | h <;> simp [h]
@[simp] theorem faultIf_pending (error : Bool) (a : OwnAccess) : (faultIf error a s).pending = s.pending := by
  cases error <;> simp [faultIf]

/-! ### The Command and Event Unit -/

/-- What the drain of a backlog keeps of the unit. -/
theorem Emission.drainFrom_keeps (es : List Event) (m : Emission) :
    ((Emission.drainFrom es m).unit.cmdBase = m.unit.cmdBase ∧ (Emission.drainFrom es m).unit.cmdSize = m.unit.cmdSize) ∧
    ((Emission.drainFrom es m).unit.posted = m.unit.posted ∧ (Emission.drainFrom es m).unit.taken = m.unit.taken) ∧
    ((Emission.drainFrom es m).unit.execution = m.unit.execution ∧ (Emission.drainFrom es m).unit.curTag = m.unit.curTag) ∧
    ((Emission.drainFrom es m).unit.curKind = m.unit.curKind ∧ (Emission.drainFrom es m).unit.inHand = m.unit.inHand) ∧
    ((Emission.drainFrom es m).unit.snapError = m.unit.snapError ∧ (Emission.drainFrom es m).unit.evBase = m.unit.evBase) ∧
    ((Emission.drainFrom es m).unit.evSize = m.unit.evSize ∧
      (Emission.drainFrom es m).unit.evConsumed = m.unit.evConsumed) ∧
    ((Emission.drainFrom es m).unit.lost = m.unit.lost ∧ (Emission.drainFrom es m).unit.evFaults = m.unit.evFaults) ∧
    (Emission.drainFrom es m).unit.fault = m.unit.fault := by
  induction es generalizing m with
  | nil => simp [Emission.drainFrom]
  | cons e es ih =>
    unfold Emission.drainFrom
    split
    · have := ih (m.write e)
      simpa [Emission.write] using this
    · simp

@[simp] theorem CmdUnit.takeEvent_cmdBase (c : CmdUnit) (keep : Nat) (e : Event) : (c.takeEvent keep e).unit.cmdBase = c.cmdBase := by
  have h := Emission.drainFrom_keeps (c.queued e).backlog ⟨c.queued e, []⟩
  unfold CmdUnit.takeEvent CmdUnit.drained
  split
  · rfl
  · split
    · split
      · simpa [CmdUnit.queued] using (by tauto : (Emission.drainFrom (c.queued e).backlog ⟨c.queued e, []⟩).unit.cmdBase = (c.queued e).cmdBase)
      · rfl
    · rfl
@[simp] theorem post_cmdBase (e : Event) : (post e s).cu.cmdBase = s.cu.cmdBase := CmdUnit.takeEvent_cmdBase ..
@[simp] theorem postAll_cmdBase (es : List Event) : (postAll es s).cu.cmdBase = s.cu.cmdBase := by
  induction es generalizing s with
  | nil => rfl
  | cons e es ih => simp [ih]
@[simp] theorem CmdUnit.takeEvent_cmdSize (c : CmdUnit) (keep : Nat) (e : Event) : (c.takeEvent keep e).unit.cmdSize = c.cmdSize := by
  have h := Emission.drainFrom_keeps (c.queued e).backlog ⟨c.queued e, []⟩
  unfold CmdUnit.takeEvent CmdUnit.drained
  split
  · rfl
  · split
    · split
      · simpa [CmdUnit.queued] using (by tauto : (Emission.drainFrom (c.queued e).backlog ⟨c.queued e, []⟩).unit.cmdSize = (c.queued e).cmdSize)
      · rfl
    · rfl
@[simp] theorem post_cmdSize (e : Event) : (post e s).cu.cmdSize = s.cu.cmdSize := CmdUnit.takeEvent_cmdSize ..
@[simp] theorem postAll_cmdSize (es : List Event) : (postAll es s).cu.cmdSize = s.cu.cmdSize := by
  induction es generalizing s with
  | nil => rfl
  | cons e es ih => simp [ih]
@[simp] theorem CmdUnit.takeEvent_posted (c : CmdUnit) (keep : Nat) (e : Event) : (c.takeEvent keep e).unit.posted = c.posted := by
  have h := Emission.drainFrom_keeps (c.queued e).backlog ⟨c.queued e, []⟩
  unfold CmdUnit.takeEvent CmdUnit.drained
  split
  · rfl
  · split
    · split
      · simpa [CmdUnit.queued] using (by tauto : (Emission.drainFrom (c.queued e).backlog ⟨c.queued e, []⟩).unit.posted = (c.queued e).posted)
      · rfl
    · rfl
@[simp] theorem post_posted (e : Event) : (post e s).cu.posted = s.cu.posted := CmdUnit.takeEvent_posted ..
@[simp] theorem postAll_posted (es : List Event) : (postAll es s).cu.posted = s.cu.posted := by
  induction es generalizing s with
  | nil => rfl
  | cons e es ih => simp [ih]
@[simp] theorem CmdUnit.takeEvent_taken (c : CmdUnit) (keep : Nat) (e : Event) : (c.takeEvent keep e).unit.taken = c.taken := by
  have h := Emission.drainFrom_keeps (c.queued e).backlog ⟨c.queued e, []⟩
  unfold CmdUnit.takeEvent CmdUnit.drained
  split
  · rfl
  · split
    · split
      · simpa [CmdUnit.queued] using (by tauto : (Emission.drainFrom (c.queued e).backlog ⟨c.queued e, []⟩).unit.taken = (c.queued e).taken)
      · rfl
    · rfl
@[simp] theorem post_taken (e : Event) : (post e s).cu.taken = s.cu.taken := CmdUnit.takeEvent_taken ..
@[simp] theorem postAll_taken (es : List Event) : (postAll es s).cu.taken = s.cu.taken := by
  induction es generalizing s with
  | nil => rfl
  | cons e es ih => simp [ih]
@[simp] theorem CmdUnit.takeEvent_execution (c : CmdUnit) (keep : Nat) (e : Event) : (c.takeEvent keep e).unit.execution = c.execution := by
  have h := Emission.drainFrom_keeps (c.queued e).backlog ⟨c.queued e, []⟩
  unfold CmdUnit.takeEvent CmdUnit.drained
  split
  · rfl
  · split
    · split
      · simpa [CmdUnit.queued] using (by tauto : (Emission.drainFrom (c.queued e).backlog ⟨c.queued e, []⟩).unit.execution = (c.queued e).execution)
      · rfl
    · rfl
@[simp] theorem post_execution (e : Event) : (post e s).cu.execution = s.cu.execution := CmdUnit.takeEvent_execution ..
@[simp] theorem postAll_execution (es : List Event) : (postAll es s).cu.execution = s.cu.execution := by
  induction es generalizing s with
  | nil => rfl
  | cons e es ih => simp [ih]
@[simp] theorem CmdUnit.takeEvent_curTag (c : CmdUnit) (keep : Nat) (e : Event) : (c.takeEvent keep e).unit.curTag = c.curTag := by
  have h := Emission.drainFrom_keeps (c.queued e).backlog ⟨c.queued e, []⟩
  unfold CmdUnit.takeEvent CmdUnit.drained
  split
  · rfl
  · split
    · split
      · simpa [CmdUnit.queued] using (by tauto : (Emission.drainFrom (c.queued e).backlog ⟨c.queued e, []⟩).unit.curTag = (c.queued e).curTag)
      · rfl
    · rfl
@[simp] theorem post_curTag (e : Event) : (post e s).cu.curTag = s.cu.curTag := CmdUnit.takeEvent_curTag ..
@[simp] theorem postAll_curTag (es : List Event) : (postAll es s).cu.curTag = s.cu.curTag := by
  induction es generalizing s with
  | nil => rfl
  | cons e es ih => simp [ih]
@[simp] theorem CmdUnit.takeEvent_curKind (c : CmdUnit) (keep : Nat) (e : Event) : (c.takeEvent keep e).unit.curKind = c.curKind := by
  have h := Emission.drainFrom_keeps (c.queued e).backlog ⟨c.queued e, []⟩
  unfold CmdUnit.takeEvent CmdUnit.drained
  split
  · rfl
  · split
    · split
      · simpa [CmdUnit.queued] using (by tauto : (Emission.drainFrom (c.queued e).backlog ⟨c.queued e, []⟩).unit.curKind = (c.queued e).curKind)
      · rfl
    · rfl
@[simp] theorem post_curKind (e : Event) : (post e s).cu.curKind = s.cu.curKind := CmdUnit.takeEvent_curKind ..
@[simp] theorem postAll_curKind (es : List Event) : (postAll es s).cu.curKind = s.cu.curKind := by
  induction es generalizing s with
  | nil => rfl
  | cons e es ih => simp [ih]
@[simp] theorem CmdUnit.takeEvent_inHand (c : CmdUnit) (keep : Nat) (e : Event) : (c.takeEvent keep e).unit.inHand = c.inHand := by
  have h := Emission.drainFrom_keeps (c.queued e).backlog ⟨c.queued e, []⟩
  unfold CmdUnit.takeEvent CmdUnit.drained
  split
  · rfl
  · split
    · split
      · simpa [CmdUnit.queued] using (by tauto : (Emission.drainFrom (c.queued e).backlog ⟨c.queued e, []⟩).unit.inHand = (c.queued e).inHand)
      · rfl
    · rfl
@[simp] theorem post_inHand (e : Event) : (post e s).cu.inHand = s.cu.inHand := CmdUnit.takeEvent_inHand ..
@[simp] theorem postAll_inHand (es : List Event) : (postAll es s).cu.inHand = s.cu.inHand := by
  induction es generalizing s with
  | nil => rfl
  | cons e es ih => simp [ih]
@[simp] theorem CmdUnit.takeEvent_snapError (c : CmdUnit) (keep : Nat) (e : Event) : (c.takeEvent keep e).unit.snapError = c.snapError := by
  have h := Emission.drainFrom_keeps (c.queued e).backlog ⟨c.queued e, []⟩
  unfold CmdUnit.takeEvent CmdUnit.drained
  split
  · rfl
  · split
    · split
      · simpa [CmdUnit.queued] using (by tauto : (Emission.drainFrom (c.queued e).backlog ⟨c.queued e, []⟩).unit.snapError = (c.queued e).snapError)
      · rfl
    · rfl
@[simp] theorem post_snapError (e : Event) : (post e s).cu.snapError = s.cu.snapError := CmdUnit.takeEvent_snapError ..
@[simp] theorem postAll_snapError (es : List Event) : (postAll es s).cu.snapError = s.cu.snapError := by
  induction es generalizing s with
  | nil => rfl
  | cons e es ih => simp [ih]
@[simp] theorem CmdUnit.takeEvent_evBase (c : CmdUnit) (keep : Nat) (e : Event) : (c.takeEvent keep e).unit.evBase = c.evBase := by
  have h := Emission.drainFrom_keeps (c.queued e).backlog ⟨c.queued e, []⟩
  unfold CmdUnit.takeEvent CmdUnit.drained
  split
  · rfl
  · split
    · split
      · simpa [CmdUnit.queued] using (by tauto : (Emission.drainFrom (c.queued e).backlog ⟨c.queued e, []⟩).unit.evBase = (c.queued e).evBase)
      · rfl
    · rfl
@[simp] theorem post_evBase (e : Event) : (post e s).cu.evBase = s.cu.evBase := CmdUnit.takeEvent_evBase ..
@[simp] theorem postAll_evBase (es : List Event) : (postAll es s).cu.evBase = s.cu.evBase := by
  induction es generalizing s with
  | nil => rfl
  | cons e es ih => simp [ih]
@[simp] theorem CmdUnit.takeEvent_evSize (c : CmdUnit) (keep : Nat) (e : Event) : (c.takeEvent keep e).unit.evSize = c.evSize := by
  have h := Emission.drainFrom_keeps (c.queued e).backlog ⟨c.queued e, []⟩
  unfold CmdUnit.takeEvent CmdUnit.drained
  split
  · rfl
  · split
    · split
      · simpa [CmdUnit.queued] using (by tauto : (Emission.drainFrom (c.queued e).backlog ⟨c.queued e, []⟩).unit.evSize = (c.queued e).evSize)
      · rfl
    · rfl
@[simp] theorem post_evSize (e : Event) : (post e s).cu.evSize = s.cu.evSize := CmdUnit.takeEvent_evSize ..
@[simp] theorem postAll_evSize (es : List Event) : (postAll es s).cu.evSize = s.cu.evSize := by
  induction es generalizing s with
  | nil => rfl
  | cons e es ih => simp [ih]
@[simp] theorem CmdUnit.takeEvent_evConsumed (c : CmdUnit) (keep : Nat) (e : Event) : (c.takeEvent keep e).unit.evConsumed = c.evConsumed := by
  have h := Emission.drainFrom_keeps (c.queued e).backlog ⟨c.queued e, []⟩
  unfold CmdUnit.takeEvent CmdUnit.drained
  split
  · rfl
  · split
    · split
      · simpa [CmdUnit.queued] using (by tauto : (Emission.drainFrom (c.queued e).backlog ⟨c.queued e, []⟩).unit.evConsumed = (c.queued e).evConsumed)
      · rfl
    · rfl
@[simp] theorem post_evConsumed (e : Event) : (post e s).cu.evConsumed = s.cu.evConsumed := CmdUnit.takeEvent_evConsumed ..
@[simp] theorem postAll_evConsumed (es : List Event) : (postAll es s).cu.evConsumed = s.cu.evConsumed := by
  induction es generalizing s with
  | nil => rfl
  | cons e es ih => simp [ih]
@[simp] theorem CmdUnit.takeEvent_evFaults (c : CmdUnit) (keep : Nat) (e : Event) : (c.takeEvent keep e).unit.evFaults = c.evFaults := by
  have h := Emission.drainFrom_keeps (c.queued e).backlog ⟨c.queued e, []⟩
  unfold CmdUnit.takeEvent CmdUnit.drained
  split
  · rfl
  · split
    · split
      · simpa [CmdUnit.queued] using (by tauto : (Emission.drainFrom (c.queued e).backlog ⟨c.queued e, []⟩).unit.evFaults = (c.queued e).evFaults)
      · rfl
    · rfl
@[simp] theorem post_evFaults (e : Event) : (post e s).cu.evFaults = s.cu.evFaults := CmdUnit.takeEvent_evFaults ..
@[simp] theorem postAll_evFaults (es : List Event) : (postAll es s).cu.evFaults = s.cu.evFaults := by
  induction es generalizing s with
  | nil => rfl
  | cons e es ih => simp [ih]
@[simp] theorem CmdUnit.takeEvent_fault (c : CmdUnit) (keep : Nat) (e : Event) : (c.takeEvent keep e).unit.fault = c.fault := by
  have h := Emission.drainFrom_keeps (c.queued e).backlog ⟨c.queued e, []⟩
  unfold CmdUnit.takeEvent CmdUnit.drained
  split
  · rfl
  · split
    · split
      · simpa [CmdUnit.queued] using (by tauto : (Emission.drainFrom (c.queued e).backlog ⟨c.queued e, []⟩).unit.fault = (c.queued e).fault)
      · rfl
    · rfl
@[simp] theorem post_fault (e : Event) : (post e s).cu.fault = s.cu.fault := CmdUnit.takeEvent_fault ..
@[simp] theorem postAll_fault (es : List Event) : (postAll es s).cu.fault = s.cu.fault := by
  induction es generalizing s with
  | nil => rfl
  | cons e es ih => simp [ih]

theorem post_cu (e : Event) : (post e s).cu = s.cu.afterEvents [e] := rfl

theorem CmdUnit.afterEvents_append (c : CmdUnit) (es fs : List Event) :
    c.afterEvents (es ++ fs) = (c.afterEvents es).afterEvents fs := by simp [CmdUnit.afterEvents]

@[simp] theorem CmdUnit.afterEvents_nil (c : CmdUnit) : c.afterEvents [] = c := rfl

theorem postAll_cu (es : List Event) : (postAll es s).cu = s.cu.afterEvents es := by
  induction es generalizing s with
  | nil => rfl
  | cons e es ih =>
    rw [postAll_cons, ih, post_cu, ← CmdUnit.afterEvents_append, List.singleton_append]

theorem complete_cu (st : Status) : (complete st s).cu = s.cu.afterDone st := by
  have : (postKeeping 0 (.commandDone s.cu.curTag s.cu.curKind st) s).cu.taken = s.cu.taken := CmdUnit.takeEvent_taken ..
  simp only [complete, CmdUnit.afterDone, this]
  rfl

/-! ### Own accesses asked for -/

/-- A slot write asked for by the arrival of an event is a write of an event slot. -/
theorem Emission.drainFrom_slots (es : List Event) (m : Emission) (h : ∀ a ∈ m.slots, a.purpose.kind = .eventWrite) :
    ∀ a ∈ (Emission.drainFrom es m).slots, a.purpose.kind = .eventWrite := by
  induction es generalizing m with
  | nil => simpa [Emission.drainFrom] using h
  | cons e es ih =>
    unfold Emission.drainFrom
    split
    · refine ih _ fun a ha => ?_
      rcases List.mem_append.1 ha with h1 | h1
      · exact h a h1
      · rw [List.mem_singleton.1 h1]; rfl
    · exact h

theorem CmdUnit.takeEvent_slots (c : CmdUnit) (keep : Nat) (e : Event) :
    ∀ a ∈ (c.takeEvent keep e).slots, a.purpose.kind = .eventWrite := by
  unfold CmdUnit.takeEvent CmdUnit.drained
  split
  · simp [Emission.write, CmdUnit.slotWrite, Purpose.kind]
  · split
    · split
      · exact Emission.drainFrom_slots _ _ (by simp)
      · simp
    · simp

theorem CmdUnit.slotWrites_append (c : CmdUnit) (es fs : List Event) :
    c.slotWrites (es ++ fs) = c.slotWrites es ++ (c.afterEvents es).slotWrites fs := by
  induction es generalizing c with
  | nil => rfl
  | cons e es ih => simp [CmdUnit.slotWrites, ih, CmdUnit.afterEvents]

/-- Accesses of another kind than line control, asked for with no line marked. -/
theorem Asks.of_writes {t : State} {writes : List OwnAccess} (hp : t.pu = { s.pu with own := s.pu.own ++ writes })
    (hk : ∀ a ∈ writes, a.purpose.kind ≠ .lineControl) (hl : ∀ l, (t.line l).ctlPending = (s.line l).ctlPending) :
    Asks writes s t := by
  refine ⟨⟨writes, [], hp, ?_, ?_, List.nodup_nil, fun l => by simp [hl]⟩, fun l h => by rw [hl, h]⟩
  · exact List.filter_eq_self.2 fun a ha => by simpa using hk a ha
  · simpa using hk

theorem Asks.refl : Asks [] s s := .of_writes s (by simp) (by simp) fun _ => rfl

theorem Asks.trans {s t u : State} {as bs : List OwnAccess} (h : Asks as s t) (k : Asks bs t u) : Asks (as ++ bs) s u := by
  obtain ⟨⟨m, ls, hp, hf, hc, hn, hm⟩, hk⟩ := h
  obtain ⟨⟨n, ks, kp, kf, kc, kn, km⟩, kk⟩ := k
  have same : controlWrite t = controlWrite s := by funext l; simp [controlWrite, hp]
  refine ⟨⟨m ++ n, ls ++ ks, by simp [kp, hp], by simp [hf, kf], by simp [hc, kc, same], ?_, fun l => ?_⟩,
    fun l x => kk l (hk l x)⟩
  · refine List.nodup_append.2 ⟨hn, kn, fun l x l' y e => ?_⟩
    subst e
    have marked := ((hm l).1 x).2
    simp [((km l).1 y).1] at marked
  · have h1 := hm l; have h2 := km l; have h3 := kk l; have h4 := hk l
    rw [List.mem_append]
    cases hs : (s.line l).ctlPending <;> cases ht : (t.line l).ctlPending <;> cases hu : (u.line l).ctlPending <;> simp_all

/-- Only the path unit and the lines after it matter. -/
theorem Asks.congr {s t t' : State} {writes : List OwnAccess} (h : Asks writes s t) (tp : t'.pu = t.pu) (tl : t'.lc = t.lc) :
    Asks writes s t' := by
  obtain ⟨⟨more, ls, hp, h⟩, hk⟩ := h
  have same : ∀ l, t'.line l = t.line l := fun l => by simp [State.line, tl]
  exact ⟨⟨more, ls, by rw [tp, hp], by simpa [same] using h⟩, by simpa [same] using hk⟩

theorem asks_postKeeping (keep : Nat) (e : Event) : Asks (s.cu.takeEvent keep e).slots s (postKeeping keep e s) :=
  .of_writes s rfl (fun a ha => by simp [CmdUnit.takeEvent_slots _ _ _ a ha]) fun _ => rfl

/-- An own write that is no line control word. -/
theorem asks_requestOwn (u : Purpose) (a : Addr) (d : List Byte) (hr : u.isRead = false) (hk : u.kind ≠ .lineControl) :
    Asks [⟨u, a, d, 0⟩] s (requestOwn u a d s) :=
  .of_writes s (by simp [requestOwn, hr]) (by simpa using hk) fun _ => rfl

theorem asks_markControl (l : LineId) : Asks [] s (markControl l s) := by
  unfold markControl
  split
  · exact .refl s
  · rename_i h
    refine ⟨⟨[controlWrite s l], [l], rfl, rfl, rfl, by simp, fun m => ?_⟩, fun m hm => ?_⟩ <;>
      (by_cases e : l = m
       · simp_all [requestOwn, State.line, State.modLine]
       · simp_all [requestOwn, State.line, State.modLine, Ne.symm e])

theorem asks_complete (st : Status) : Asks (completionWrites s s.cu st) s (complete st s) := by
  have taken : (postKeeping 0 (.commandDone s.cu.curTag s.cu.curKind st) s).cu.taken = s.cu.taken := CmdUnit.takeEvent_taken ..
  have h := (asks_postKeeping s 0 (.commandDone s.cu.curTag s.cu.curKind st)).trans
    (asks_requestOwn _ (.commandTaken (s.cu.taken + 1)) (controlAddr s 4) (wordBytes (s.cu.taken + 1)) rfl (by simp [Purpose.kind]))
  refine h.congr ?_ ?_
  · simp only [complete, taken]; rfl
  · rfl

/-! ### Events posted in order -/

theorem Posts.refl : Posts [] s s := ⟨rfl, .refl s⟩

/-- Two states with the same Command and Event Unit, path unit and line marks have posted nothing between them. -/
theorem Posts.of_eq {s t : State} (hc : t.cu = s.cu) (hp : t.pu = s.pu)
    (hl : ∀ l, (t.line l).ctlPending = (s.line l).ctlPending) : Posts [] s t :=
  ⟨hc, .of_writes s (by simp [hp, CmdUnit.slotWrites]) (by simp [CmdUnit.slotWrites]) hl⟩

theorem Posts.trans {s t u : State} {es fs : List Event} (h : Posts es s t) (k : Posts fs t u) : Posts (es ++ fs) s u :=
  ⟨by rw [k.unit, h.unit, CmdUnit.afterEvents_append], by
    have := h.asks.trans k.asks
    rwa [h.unit, ← CmdUnit.slotWrites_append] at this⟩

theorem posts_post (e : Event) : Posts [e] s (post e s) :=
  ⟨post_cu s e, by
    simp only [CmdUnit.slotWrites, List.append_nil]
    exact asks_postKeeping s s.cu.reserve e⟩

theorem posts_postAll (es : List Event) : Posts es s (postAll es s) := by
  induction es generalizing s with
  | nil => exact .refl s
  | cons e es ih => exact (posts_post s e).trans (ih _)

/-- Marking a line posts nothing; its control word is asked for unless it was marked already. -/
theorem posts_markControl (l : LineId) : Posts [] s (markControl l s) :=
  ⟨by unfold markControl; split <;> rfl, asks_markControl s l⟩

/-- Only the units that take part in posting and the lines' marks matter. -/
theorem Posts.congr {s s' t t' : State} {es : List Event} (h : Posts es s t) (sc : s'.cu = s.cu) (sp : s'.pu = s.pu)
    (tc : t'.cu = t.cu) (tp : t'.pu = t.pu) (sl : ∀ l, (s'.line l).ctlPending = (s.line l).ctlPending)
    (tl : ∀ l, (t'.line l).ctlPending = (t.line l).ctlPending) : Posts es s' t' := by
  obtain ⟨hu, ⟨more, ls, hp, hf, hc, hn, hm⟩, hk⟩ := h
  have same : controlWrite s' = controlWrite s := by funext l; simp [controlWrite, sp]
  exact ⟨by rw [tc, hu, sc], ⟨more, ls, by rw [tp, hp, sp], by rw [hf, sc], by rw [hc, same], hn, by simpa [sl, tl] using hm⟩,
    by simpa [sl, tl] using hk⟩

/-- A command that has posted its events and completes. -/
theorem Posts.answers {s t : State} {es : List Event} (h : Posts es s t) (st : Status) : Answers es st s (complete st t) := by
  refine ⟨by rw [complete_cu, h.unit], ?_⟩
  have := h.asks.trans (asks_complete t st)
  obtain ⟨⟨_, _, hp, _⟩, _⟩ := h.asks
  rw [h.unit] at this
  simpa [completionWrites, controlAddr, hp] using this

/-- A command that is answered at once and does nothing else is refused. -/
theorem onlyAnswers_of_eq {c : Instr} {st : Status} (h : exec c s = .next (complete st s)) : OnlyAnswers c st s :=
  ⟨_, h, (Posts.refl s).answers st, rfl⟩

end Sys2Proof.Machine
end

