-- ==== Sys2Proof/Laws/Recorder.lean ====
section
/-! SUPPORT. What the Recorder Unit's operations leave of the state. -/

namespace Sys2Proof.Machine

variable (s : State)

/-! ### `openSession` -/

@[simp] theorem openSession_lc (c : ChanId) (x : Subject) (ps : List PosId) : (openSession c x ps s).lc = s.lc := by rfl
@[simp] theorem openSession_rc (c : ChanId) (x : Subject) (ps : List PosId) : (openSession c x ps s).rc = s.rc := by rfl
@[simp] theorem openSession_fc (c : ChanId) (x : Subject) (ps : List PosId) : (openSession c x ps s).fc = s.fc := by rfl
@[simp] theorem openSession_mp (c : ChanId) (x : Subject) (ps : List PosId) : (openSession c x ps s).mp = s.mp := by rfl
@[simp] theorem openSession_me (c : ChanId) (x : Subject) (ps : List PosId) : (openSession c x ps s).me = s.me := by rfl
@[simp] theorem openSession_pu (c : ChanId) (x : Subject) (ps : List PosId) : (openSession c x ps s).pu = s.pu := by rfl
@[simp] theorem openSession_ft (c : ChanId) (x : Subject) (ps : List PosId) : (openSession c x ps s).ft = s.ft := by rfl
@[simp] theorem openSession_cu (c : ChanId) (x : Subject) (ps : List PosId) : (openSession c x ps s).cu = s.cu := by rfl
@[simp] theorem openSession_ld (c : ChanId) (x : Subject) (ps : List PosId) : (openSession c x ps s).ld = s.ld := by rfl
@[simp] theorem openSession_handed (c : ChanId) (x : Subject) (ps : List PosId) : (openSession c x ps s).handed = s.handed := by rfl
@[simp] theorem openSession_draws (c : ChanId) (x : Subject) (ps : List PosId) : (openSession c x ps s).draws = s.draws := by rfl
@[simp] theorem openSession_pending (c : ChanId) (x : Subject) (ps : List PosId) : (openSession c x ps s).pending = s.pending := by rfl
@[simp] theorem openSession_line (c : ChanId) (x : Subject) (ps : List PosId) (m_ : LineId) : (openSession c x ps s).line m_ = s.line m_ := by simp only [State.line, openSession_lc]
@[simp] theorem openSession_handset (c : ChanId) (x : Subject) (ps : List PosId) (h_ : Handset) : (openSession c x ps s).handset h_ = s.handset h_ := by simp only [State.handset, openSession_lc]
@[simp] theorem openSession_map (c : ChanId) (x : Subject) (ps : List PosId) (q_ : PosId) : (openSession c x ps s).map q_ = s.map q_ := by simp only [State.map, openSession_lc]
@[simp] theorem openSession_appears (c : ChanId) (x : Subject) (ps : List PosId) (q_ : PosId) (m_ : LineId) : (openSession c x ps s).appears q_ m_ = s.appears q_ m_ := by simp only [State.appears, State.map, openSession_lc]
@[simp] theorem openSession_ring (c : ChanId) (x : Subject) (ps : List PosId) (m_ : LineId) : (openSession c x ps s).ring m_ = s.ring m_ := by simp only [State.ring, openSession_rc]
@[simp] theorem openSession_posRing (c : ChanId) (x : Subject) (ps : List PosId) (q_ : PosId) : (openSession c x ps s).posRing q_ = s.posRing q_ := by simp only [State.posRing, openSession_rc]
@[simp] theorem openSession_group (c : ChanId) (x : Subject) (ps : List PosId) (g_ : GroupId) : (openSession c x ps s).group g_ = s.group g_ := by simp only [State.group, openSession_fc]
@[simp] theorem openSession_settings (c : ChanId) (x : Subject) (ps : List PosId) (q_ : PosId) : (openSession c x ps s).settings q_ = s.settings q_ := by simp only [State.settings, openSession_mp]
@[simp] theorem openSession_speakers (c : ChanId) (x : Subject) (ps : List PosId) (q_ : PosId) : (openSession c x ps s).speakers q_ = s.speakers q_ := by simp only [State.speakers, openSession_mp]
@[simp] theorem openSession_now (c : ChanId) (x : Subject) (ps : List PosId) : (openSession c x ps s).now = s.now := by simp only [State.now, openSession_ft]
@[simp] theorem openSession_running (c : ChanId) (x : Subject) (ps : List PosId) : (openSession c x ps s).running = s.running := by simp only [State.running, openSession_ld]
@[simp] theorem openSession_due (c : ChanId) (x : Subject) (ps : List PosId) (d_ : Word) : (openSession c x ps s).due d_ = s.due d_ := by exact State.due_congr (by simp) _
/-! ### `partyArrival` -/

@[simp] theorem partyArrival_lc (c : ChanId) (p : PosId) : (partyArrival c p s).lc = s.lc := by rfl
@[simp] theorem partyArrival_rc (c : ChanId) (p : PosId) : (partyArrival c p s).rc = s.rc := by rfl
@[simp] theorem partyArrival_fc (c : ChanId) (p : PosId) : (partyArrival c p s).fc = s.fc := by rfl
@[simp] theorem partyArrival_mp (c : ChanId) (p : PosId) : (partyArrival c p s).mp = s.mp := by rfl
@[simp] theorem partyArrival_me (c : ChanId) (p : PosId) : (partyArrival c p s).me = s.me := by rfl
@[simp] theorem partyArrival_pu (c : ChanId) (p : PosId) : (partyArrival c p s).pu = s.pu := by rfl
@[simp] theorem partyArrival_ft (c : ChanId) (p : PosId) : (partyArrival c p s).ft = s.ft := by rfl
@[simp] theorem partyArrival_cu (c : ChanId) (p : PosId) : (partyArrival c p s).cu = s.cu := by rfl
@[simp] theorem partyArrival_ld (c : ChanId) (p : PosId) : (partyArrival c p s).ld = s.ld := by rfl
@[simp] theorem partyArrival_handed (c : ChanId) (p : PosId) : (partyArrival c p s).handed = s.handed := by rfl
@[simp] theorem partyArrival_draws (c : ChanId) (p : PosId) : (partyArrival c p s).draws = s.draws := by rfl
@[simp] theorem partyArrival_pending (c : ChanId) (p : PosId) : (partyArrival c p s).pending = s.pending := by rfl
@[simp] theorem partyArrival_line (c : ChanId) (p : PosId) (m_ : LineId) : (partyArrival c p s).line m_ = s.line m_ := by simp only [State.line, partyArrival_lc]
@[simp] theorem partyArrival_handset (c : ChanId) (p : PosId) (h_ : Handset) : (partyArrival c p s).handset h_ = s.handset h_ := by simp only [State.handset, partyArrival_lc]
@[simp] theorem partyArrival_map (c : ChanId) (p : PosId) (q_ : PosId) : (partyArrival c p s).map q_ = s.map q_ := by simp only [State.map, partyArrival_lc]
@[simp] theorem partyArrival_appears (c : ChanId) (p : PosId) (q_ : PosId) (m_ : LineId) : (partyArrival c p s).appears q_ m_ = s.appears q_ m_ := by simp only [State.appears, State.map, partyArrival_lc]
@[simp] theorem partyArrival_ring (c : ChanId) (p : PosId) (m_ : LineId) : (partyArrival c p s).ring m_ = s.ring m_ := by simp only [State.ring, partyArrival_rc]
@[simp] theorem partyArrival_posRing (c : ChanId) (p : PosId) (q_ : PosId) : (partyArrival c p s).posRing q_ = s.posRing q_ := by simp only [State.posRing, partyArrival_rc]
@[simp] theorem partyArrival_group (c : ChanId) (p : PosId) (g_ : GroupId) : (partyArrival c p s).group g_ = s.group g_ := by simp only [State.group, partyArrival_fc]
@[simp] theorem partyArrival_settings (c : ChanId) (p : PosId) (q_ : PosId) : (partyArrival c p s).settings q_ = s.settings q_ := by simp only [State.settings, partyArrival_mp]
@[simp] theorem partyArrival_speakers (c : ChanId) (p : PosId) (q_ : PosId) : (partyArrival c p s).speakers q_ = s.speakers q_ := by simp only [State.speakers, partyArrival_mp]
@[simp] theorem partyArrival_now (c : ChanId) (p : PosId) : (partyArrival c p s).now = s.now := by simp only [State.now, partyArrival_ft]
@[simp] theorem partyArrival_running (c : ChanId) (p : PosId) : (partyArrival c p s).running = s.running := by simp only [State.running, partyArrival_ld]
@[simp] theorem partyArrival_due (c : ChanId) (p : PosId) (d_ : Word) : (partyArrival c p s).due d_ = s.due d_ := by exact State.due_congr (by simp) _
/-! ### `sessionEnd` -/

@[simp] theorem sessionEnd_lc (c : ChanId) (cause : SessionCause) : (sessionEnd c cause s).lc = s.lc := by unfold sessionEnd; split <;> rfl
@[simp] theorem sessionEnd_rc (c : ChanId) (cause : SessionCause) : (sessionEnd c cause s).rc = s.rc := by unfold sessionEnd; split <;> rfl
@[simp] theorem sessionEnd_fc (c : ChanId) (cause : SessionCause) : (sessionEnd c cause s).fc = s.fc := by unfold sessionEnd; split <;> rfl
@[simp] theorem sessionEnd_mp (c : ChanId) (cause : SessionCause) : (sessionEnd c cause s).mp = s.mp := by unfold sessionEnd; split <;> rfl
@[simp] theorem sessionEnd_me (c : ChanId) (cause : SessionCause) : (sessionEnd c cause s).me = s.me := by unfold sessionEnd; split <;> rfl
@[simp] theorem sessionEnd_pu (c : ChanId) (cause : SessionCause) : (sessionEnd c cause s).pu = s.pu := by unfold sessionEnd; split <;> rfl
@[simp] theorem sessionEnd_ft (c : ChanId) (cause : SessionCause) : (sessionEnd c cause s).ft = s.ft := by unfold sessionEnd; split <;> rfl
@[simp] theorem sessionEnd_cu (c : ChanId) (cause : SessionCause) : (sessionEnd c cause s).cu = s.cu := by unfold sessionEnd; split <;> rfl
@[simp] theorem sessionEnd_ld (c : ChanId) (cause : SessionCause) : (sessionEnd c cause s).ld = s.ld := by unfold sessionEnd; split <;> rfl
@[simp] theorem sessionEnd_handed (c : ChanId) (cause : SessionCause) : (sessionEnd c cause s).handed = s.handed := by unfold sessionEnd; split <;> rfl
@[simp] theorem sessionEnd_draws (c : ChanId) (cause : SessionCause) : (sessionEnd c cause s).draws = s.draws := by unfold sessionEnd; split <;> rfl
@[simp] theorem sessionEnd_pending (c : ChanId) (cause : SessionCause) : (sessionEnd c cause s).pending = s.pending := by unfold sessionEnd; split <;> rfl
@[simp] theorem sessionEnd_line (c : ChanId) (cause : SessionCause) (m_ : LineId) : (sessionEnd c cause s).line m_ = s.line m_ := by simp only [State.line, sessionEnd_lc]
@[simp] theorem sessionEnd_handset (c : ChanId) (cause : SessionCause) (h_ : Handset) : (sessionEnd c cause s).handset h_ = s.handset h_ := by simp only [State.handset, sessionEnd_lc]
@[simp] theorem sessionEnd_map (c : ChanId) (cause : SessionCause) (q_ : PosId) : (sessionEnd c cause s).map q_ = s.map q_ := by simp only [State.map, sessionEnd_lc]
@[simp] theorem sessionEnd_appears (c : ChanId) (cause : SessionCause) (q_ : PosId) (m_ : LineId) : (sessionEnd c cause s).appears q_ m_ = s.appears q_ m_ := by simp only [State.appears, State.map, sessionEnd_lc]
@[simp] theorem sessionEnd_ring (c : ChanId) (cause : SessionCause) (m_ : LineId) : (sessionEnd c cause s).ring m_ = s.ring m_ := by simp only [State.ring, sessionEnd_rc]
@[simp] theorem sessionEnd_posRing (c : ChanId) (cause : SessionCause) (q_ : PosId) : (sessionEnd c cause s).posRing q_ = s.posRing q_ := by simp only [State.posRing, sessionEnd_rc]
@[simp] theorem sessionEnd_group (c : ChanId) (cause : SessionCause) (g_ : GroupId) : (sessionEnd c cause s).group g_ = s.group g_ := by simp only [State.group, sessionEnd_fc]
@[simp] theorem sessionEnd_settings (c : ChanId) (cause : SessionCause) (q_ : PosId) : (sessionEnd c cause s).settings q_ = s.settings q_ := by simp only [State.settings, sessionEnd_mp]
@[simp] theorem sessionEnd_speakers (c : ChanId) (cause : SessionCause) (q_ : PosId) : (sessionEnd c cause s).speakers q_ = s.speakers q_ := by simp only [State.speakers, sessionEnd_mp]
@[simp] theorem sessionEnd_now (c : ChanId) (cause : SessionCause) : (sessionEnd c cause s).now = s.now := by simp only [State.now, sessionEnd_ft]
@[simp] theorem sessionEnd_running (c : ChanId) (cause : SessionCause) : (sessionEnd c cause s).running = s.running := by simp only [State.running, sessionEnd_ld]
@[simp] theorem sessionEnd_due (c : ChanId) (cause : SessionCause) (d_ : Word) : (sessionEnd c cause s).due d_ = s.due d_ := by exact State.due_congr (by simp) _
/-! ### `markStepped` -/

@[simp] theorem markStepped_lc  : (markStepped s).lc = s.lc := by rfl
@[simp] theorem markStepped_rc  : (markStepped s).rc = s.rc := by rfl
@[simp] theorem markStepped_fc  : (markStepped s).fc = s.fc := by rfl
@[simp] theorem markStepped_mp  : (markStepped s).mp = s.mp := by rfl
@[simp] theorem markStepped_me  : (markStepped s).me = s.me := by rfl
@[simp] theorem markStepped_pu  : (markStepped s).pu = s.pu := by rfl
@[simp] theorem markStepped_ft  : (markStepped s).ft = s.ft := by rfl
@[simp] theorem markStepped_cu  : (markStepped s).cu = s.cu := by rfl
@[simp] theorem markStepped_ld  : (markStepped s).ld = s.ld := by rfl
@[simp] theorem markStepped_handed  : (markStepped s).handed = s.handed := by rfl
@[simp] theorem markStepped_draws  : (markStepped s).draws = s.draws := by rfl
@[simp] theorem markStepped_pending  : (markStepped s).pending = s.pending := by rfl
@[simp] theorem markStepped_line (m_ : LineId) : (markStepped s).line m_ = s.line m_ := by simp only [State.line, markStepped_lc]
@[simp] theorem markStepped_handset (h_ : Handset) : (markStepped s).handset h_ = s.handset h_ := by simp only [State.handset, markStepped_lc]
@[simp] theorem markStepped_map (q_ : PosId) : (markStepped s).map q_ = s.map q_ := by simp only [State.map, markStepped_lc]
@[simp] theorem markStepped_appears (q_ : PosId) (m_ : LineId) : (markStepped s).appears q_ m_ = s.appears q_ m_ := by simp only [State.appears, State.map, markStepped_lc]
@[simp] theorem markStepped_ring (m_ : LineId) : (markStepped s).ring m_ = s.ring m_ := by simp only [State.ring, markStepped_rc]
@[simp] theorem markStepped_posRing (q_ : PosId) : (markStepped s).posRing q_ = s.posRing q_ := by simp only [State.posRing, markStepped_rc]
@[simp] theorem markStepped_group (g_ : GroupId) : (markStepped s).group g_ = s.group g_ := by simp only [State.group, markStepped_fc]
@[simp] theorem markStepped_settings (q_ : PosId) : (markStepped s).settings q_ = s.settings q_ := by simp only [State.settings, markStepped_mp]
@[simp] theorem markStepped_speakers (q_ : PosId) : (markStepped s).speakers q_ = s.speakers q_ := by simp only [State.speakers, markStepped_mp]
@[simp] theorem markStepped_now  : (markStepped s).now = s.now := by simp only [State.now, markStepped_ft]
@[simp] theorem markStepped_running  : (markStepped s).running = s.running := by simp only [State.running, markStepped_ld]
@[simp] theorem markStepped_due (d_ : Word) : (markStepped s).due d_ = s.due d_ := by exact State.due_congr (by simp) _
/-! ### `placeRecord` -/

@[simp] theorem placeRecord_lc (x : Session) : (placeRecord x s).lc = s.lc := by rfl
@[simp] theorem placeRecord_rc (x : Session) : (placeRecord x s).rc = s.rc := by rfl
@[simp] theorem placeRecord_fc (x : Session) : (placeRecord x s).fc = s.fc := by rfl
@[simp] theorem placeRecord_mp (x : Session) : (placeRecord x s).mp = s.mp := by rfl
@[simp] theorem placeRecord_me (x : Session) : (placeRecord x s).me = s.me := by rfl
@[simp] theorem placeRecord_ft (x : Session) : (placeRecord x s).ft = s.ft := by rfl
@[simp] theorem placeRecord_cu (x : Session) : (placeRecord x s).cu = s.cu := by rfl
@[simp] theorem placeRecord_ld (x : Session) : (placeRecord x s).ld = s.ld := by rfl
@[simp] theorem placeRecord_handed (x : Session) : (placeRecord x s).handed = s.handed := by rfl
@[simp] theorem placeRecord_draws (x : Session) : (placeRecord x s).draws = s.draws := by rfl
@[simp] theorem placeRecord_pending (x : Session) : (placeRecord x s).pending = s.pending := by rfl
@[simp] theorem placeRecord_line (x : Session) (m_ : LineId) : (placeRecord x s).line m_ = s.line m_ := by simp only [State.line, placeRecord_lc]
@[simp] theorem placeRecord_handset (x : Session) (h_ : Handset) : (placeRecord x s).handset h_ = s.handset h_ := by simp only [State.handset, placeRecord_lc]
@[simp] theorem placeRecord_map (x : Session) (q_ : PosId) : (placeRecord x s).map q_ = s.map q_ := by simp only [State.map, placeRecord_lc]
@[simp] theorem placeRecord_appears (x : Session) (q_ : PosId) (m_ : LineId) : (placeRecord x s).appears q_ m_ = s.appears q_ m_ := by simp only [State.appears, State.map, placeRecord_lc]
@[simp] theorem placeRecord_ring (x : Session) (m_ : LineId) : (placeRecord x s).ring m_ = s.ring m_ := by simp only [State.ring, placeRecord_rc]
@[simp] theorem placeRecord_posRing (x : Session) (q_ : PosId) : (placeRecord x s).posRing q_ = s.posRing q_ := by simp only [State.posRing, placeRecord_rc]
@[simp] theorem placeRecord_group (x : Session) (g_ : GroupId) : (placeRecord x s).group g_ = s.group g_ := by simp only [State.group, placeRecord_fc]
@[simp] theorem placeRecord_settings (x : Session) (q_ : PosId) : (placeRecord x s).settings q_ = s.settings q_ := by simp only [State.settings, placeRecord_mp]
@[simp] theorem placeRecord_speakers (x : Session) (q_ : PosId) : (placeRecord x s).speakers q_ = s.speakers q_ := by simp only [State.speakers, placeRecord_mp]
@[simp] theorem placeRecord_now (x : Session) : (placeRecord x s).now = s.now := by simp only [State.now, placeRecord_ft]
@[simp] theorem placeRecord_running (x : Session) : (placeRecord x s).running = s.running := by simp only [State.running, placeRecord_ld]
@[simp] theorem placeRecord_due (x : Session) (d_ : Word) : (placeRecord x s).due d_ = s.due d_ := by exact State.due_congr (by simp) _
/-! ### `placeHeld` -/

@[simp] theorem placeHeld_lc (c : ChanId) : (placeHeld c s).lc = s.lc := by unfold placeHeld; split <;> simp
@[simp] theorem placeHeld_rc (c : ChanId) : (placeHeld c s).rc = s.rc := by unfold placeHeld; split <;> simp
@[simp] theorem placeHeld_fc (c : ChanId) : (placeHeld c s).fc = s.fc := by unfold placeHeld; split <;> simp
@[simp] theorem placeHeld_mp (c : ChanId) : (placeHeld c s).mp = s.mp := by unfold placeHeld; split <;> simp
@[simp] theorem placeHeld_me (c : ChanId) : (placeHeld c s).me = s.me := by unfold placeHeld; split <;> simp
@[simp] theorem placeHeld_ft (c : ChanId) : (placeHeld c s).ft = s.ft := by unfold placeHeld; split <;> simp
@[simp] theorem placeHeld_cu (c : ChanId) : (placeHeld c s).cu = s.cu := by unfold placeHeld; split <;> simp
@[simp] theorem placeHeld_ld (c : ChanId) : (placeHeld c s).ld = s.ld := by unfold placeHeld; split <;> simp
@[simp] theorem placeHeld_handed (c : ChanId) : (placeHeld c s).handed = s.handed := by unfold placeHeld; split <;> simp
@[simp] theorem placeHeld_draws (c : ChanId) : (placeHeld c s).draws = s.draws := by unfold placeHeld; split <;> simp
@[simp] theorem placeHeld_pending (c : ChanId) : (placeHeld c s).pending = s.pending := by unfold placeHeld; split <;> simp
@[simp] theorem placeHeld_line (c : ChanId) (m_ : LineId) : (placeHeld c s).line m_ = s.line m_ := by simp only [State.line, placeHeld_lc]
@[simp] theorem placeHeld_handset (c : ChanId) (h_ : Handset) : (placeHeld c s).handset h_ = s.handset h_ := by simp only [State.handset, placeHeld_lc]
@[simp] theorem placeHeld_map (c : ChanId) (q_ : PosId) : (placeHeld c s).map q_ = s.map q_ := by simp only [State.map, placeHeld_lc]
@[simp] theorem placeHeld_appears (c : ChanId) (q_ : PosId) (m_ : LineId) : (placeHeld c s).appears q_ m_ = s.appears q_ m_ := by simp only [State.appears, State.map, placeHeld_lc]
@[simp] theorem placeHeld_ring (c : ChanId) (m_ : LineId) : (placeHeld c s).ring m_ = s.ring m_ := by simp only [State.ring, placeHeld_rc]
@[simp] theorem placeHeld_posRing (c : ChanId) (q_ : PosId) : (placeHeld c s).posRing q_ = s.posRing q_ := by simp only [State.posRing, placeHeld_rc]
@[simp] theorem placeHeld_group (c : ChanId) (g_ : GroupId) : (placeHeld c s).group g_ = s.group g_ := by simp only [State.group, placeHeld_fc]
@[simp] theorem placeHeld_settings (c : ChanId) (q_ : PosId) : (placeHeld c s).settings q_ = s.settings q_ := by simp only [State.settings, placeHeld_mp]
@[simp] theorem placeHeld_speakers (c : ChanId) (q_ : PosId) : (placeHeld c s).speakers q_ = s.speakers q_ := by simp only [State.speakers, placeHeld_mp]
@[simp] theorem placeHeld_now (c : ChanId) : (placeHeld c s).now = s.now := by simp only [State.now, placeHeld_ft]
@[simp] theorem placeHeld_running (c : ChanId) : (placeHeld c s).running = s.running := by simp only [State.running, placeHeld_ld]
@[simp] theorem placeHeld_due (c : ChanId) (d_ : Word) : (placeHeld c s).due d_ = s.due d_ := by exact State.due_congr (by simp) _
theorem placeWaiting_keeps {α : Type} (get : State → α) (h : ∀ c s, get (placeHeld c s) = get s) :
    get (placeWaiting s) = get s := by
  refine foldl_keeps get _ (fun s c => ?_) _ s
  split
  · exact h c s
  · rfl

/-! ### `placeWaiting` -/

@[simp] theorem placeWaiting_lc  : (placeWaiting s).lc = s.lc := placeWaiting_keeps s (·.lc) (by simp)
@[simp] theorem placeWaiting_rc  : (placeWaiting s).rc = s.rc := placeWaiting_keeps s (·.rc) (by simp)
@[simp] theorem placeWaiting_fc  : (placeWaiting s).fc = s.fc := placeWaiting_keeps s (·.fc) (by simp)
@[simp] theorem placeWaiting_mp  : (placeWaiting s).mp = s.mp := placeWaiting_keeps s (·.mp) (by simp)
@[simp] theorem placeWaiting_me  : (placeWaiting s).me = s.me := placeWaiting_keeps s (·.me) (by simp)
@[simp] theorem placeWaiting_ft  : (placeWaiting s).ft = s.ft := placeWaiting_keeps s (·.ft) (by simp)
@[simp] theorem placeWaiting_cu  : (placeWaiting s).cu = s.cu := placeWaiting_keeps s (·.cu) (by simp)
@[simp] theorem placeWaiting_ld  : (placeWaiting s).ld = s.ld := placeWaiting_keeps s (·.ld) (by simp)
@[simp] theorem placeWaiting_handed  : (placeWaiting s).handed = s.handed := placeWaiting_keeps s (·.handed) (by simp)
@[simp] theorem placeWaiting_draws  : (placeWaiting s).draws = s.draws := placeWaiting_keeps s (·.draws) (by simp)
@[simp] theorem placeWaiting_pending  : (placeWaiting s).pending = s.pending := placeWaiting_keeps s (·.pending) (by simp)
@[simp] theorem placeWaiting_line (m_ : LineId) : (placeWaiting s).line m_ = s.line m_ := by simp only [State.line, placeWaiting_lc]
@[simp] theorem placeWaiting_handset (h_ : Handset) : (placeWaiting s).handset h_ = s.handset h_ := by simp only [State.handset, placeWaiting_lc]
@[simp] theorem placeWaiting_map (q_ : PosId) : (placeWaiting s).map q_ = s.map q_ := by simp only [State.map, placeWaiting_lc]
@[simp] theorem placeWaiting_appears (q_ : PosId) (m_ : LineId) : (placeWaiting s).appears q_ m_ = s.appears q_ m_ := by simp only [State.appears, State.map, placeWaiting_lc]
@[simp] theorem placeWaiting_ring (m_ : LineId) : (placeWaiting s).ring m_ = s.ring m_ := by simp only [State.ring, placeWaiting_rc]
@[simp] theorem placeWaiting_posRing (q_ : PosId) : (placeWaiting s).posRing q_ = s.posRing q_ := by simp only [State.posRing, placeWaiting_rc]
@[simp] theorem placeWaiting_group (g_ : GroupId) : (placeWaiting s).group g_ = s.group g_ := by simp only [State.group, placeWaiting_fc]
@[simp] theorem placeWaiting_settings (q_ : PosId) : (placeWaiting s).settings q_ = s.settings q_ := by simp only [State.settings, placeWaiting_mp]
@[simp] theorem placeWaiting_speakers (q_ : PosId) : (placeWaiting s).speakers q_ = s.speakers q_ := by simp only [State.speakers, placeWaiting_mp]
@[simp] theorem placeWaiting_now  : (placeWaiting s).now = s.now := by simp only [State.now, placeWaiting_ft]
@[simp] theorem placeWaiting_running  : (placeWaiting s).running = s.running := by simp only [State.running, placeWaiting_ld]
@[simp] theorem placeWaiting_due (d_ : Word) : (placeWaiting s).due d_ = s.due d_ := by exact State.due_congr (by simp) _
/-! ### `freeWritten` -/

@[simp] theorem freeWritten_lc (count : Word) : (freeWritten count s).lc = s.lc := by rfl
@[simp] theorem freeWritten_rc (count : Word) : (freeWritten count s).rc = s.rc := by rfl
@[simp] theorem freeWritten_fc (count : Word) : (freeWritten count s).fc = s.fc := by rfl
@[simp] theorem freeWritten_mp (count : Word) : (freeWritten count s).mp = s.mp := by rfl
@[simp] theorem freeWritten_me (count : Word) : (freeWritten count s).me = s.me := by rfl
@[simp] theorem freeWritten_pu (count : Word) : (freeWritten count s).pu = s.pu := by rfl
@[simp] theorem freeWritten_ft (count : Word) : (freeWritten count s).ft = s.ft := by rfl
@[simp] theorem freeWritten_cu (count : Word) : (freeWritten count s).cu = s.cu := by rfl
@[simp] theorem freeWritten_ld (count : Word) : (freeWritten count s).ld = s.ld := by rfl
@[simp] theorem freeWritten_handed (count : Word) : (freeWritten count s).handed = s.handed := by rfl
@[simp] theorem freeWritten_draws (count : Word) : (freeWritten count s).draws = s.draws := by rfl
@[simp] theorem freeWritten_pending (count : Word) : (freeWritten count s).pending = s.pending := by rfl
@[simp] theorem freeWritten_line (count : Word) (m_ : LineId) : (freeWritten count s).line m_ = s.line m_ := by simp only [State.line, freeWritten_lc]
@[simp] theorem freeWritten_handset (count : Word) (h_ : Handset) : (freeWritten count s).handset h_ = s.handset h_ := by simp only [State.handset, freeWritten_lc]
@[simp] theorem freeWritten_map (count : Word) (q_ : PosId) : (freeWritten count s).map q_ = s.map q_ := by simp only [State.map, freeWritten_lc]
@[simp] theorem freeWritten_appears (count : Word) (q_ : PosId) (m_ : LineId) : (freeWritten count s).appears q_ m_ = s.appears q_ m_ := by simp only [State.appears, State.map, freeWritten_lc]
@[simp] theorem freeWritten_ring (count : Word) (m_ : LineId) : (freeWritten count s).ring m_ = s.ring m_ := by simp only [State.ring, freeWritten_rc]
@[simp] theorem freeWritten_posRing (count : Word) (q_ : PosId) : (freeWritten count s).posRing q_ = s.posRing q_ := by simp only [State.posRing, freeWritten_rc]
@[simp] theorem freeWritten_group (count : Word) (g_ : GroupId) : (freeWritten count s).group g_ = s.group g_ := by simp only [State.group, freeWritten_fc]
@[simp] theorem freeWritten_settings (count : Word) (q_ : PosId) : (freeWritten count s).settings q_ = s.settings q_ := by simp only [State.settings, freeWritten_mp]
@[simp] theorem freeWritten_speakers (count : Word) (q_ : PosId) : (freeWritten count s).speakers q_ = s.speakers q_ := by simp only [State.speakers, freeWritten_mp]
@[simp] theorem freeWritten_now (count : Word) : (freeWritten count s).now = s.now := by simp only [State.now, freeWritten_ft]
@[simp] theorem freeWritten_running (count : Word) : (freeWritten count s).running = s.running := by simp only [State.running, freeWritten_ld]
@[simp] theorem freeWritten_due (count : Word) (d_ : Word) : (freeWritten count s).due d_ = s.due d_ := by exact State.due_congr (by simp) _
/-! ### `bufferFull` -/

@[simp] theorem bufferFull_lc (c : ChanId) : (bufferFull c s).lc = s.lc := by unfold bufferFull; dsimp only; split <;> simp
@[simp] theorem bufferFull_rc (c : ChanId) : (bufferFull c s).rc = s.rc := by unfold bufferFull; dsimp only; split <;> simp
@[simp] theorem bufferFull_fc (c : ChanId) : (bufferFull c s).fc = s.fc := by unfold bufferFull; dsimp only; split <;> simp
@[simp] theorem bufferFull_mp (c : ChanId) : (bufferFull c s).mp = s.mp := by unfold bufferFull; dsimp only; split <;> simp
@[simp] theorem bufferFull_me (c : ChanId) : (bufferFull c s).me = s.me := by unfold bufferFull; dsimp only; split <;> simp
@[simp] theorem bufferFull_ft (c : ChanId) : (bufferFull c s).ft = s.ft := by unfold bufferFull; dsimp only; split <;> simp
@[simp] theorem bufferFull_ld (c : ChanId) : (bufferFull c s).ld = s.ld := by unfold bufferFull; dsimp only; split <;> simp
@[simp] theorem bufferFull_handed (c : ChanId) : (bufferFull c s).handed = s.handed := by unfold bufferFull; dsimp only; split <;> simp
@[simp] theorem bufferFull_draws (c : ChanId) : (bufferFull c s).draws = s.draws := by unfold bufferFull; dsimp only; split <;> simp
@[simp] theorem bufferFull_pending (c : ChanId) : (bufferFull c s).pending = s.pending := by unfold bufferFull; dsimp only; split <;> simp
@[simp] theorem bufferFull_line (c : ChanId) (m_ : LineId) : (bufferFull c s).line m_ = s.line m_ := by simp only [State.line, bufferFull_lc]
@[simp] theorem bufferFull_handset (c : ChanId) (h_ : Handset) : (bufferFull c s).handset h_ = s.handset h_ := by simp only [State.handset, bufferFull_lc]
@[simp] theorem bufferFull_map (c : ChanId) (q_ : PosId) : (bufferFull c s).map q_ = s.map q_ := by simp only [State.map, bufferFull_lc]
@[simp] theorem bufferFull_appears (c : ChanId) (q_ : PosId) (m_ : LineId) : (bufferFull c s).appears q_ m_ = s.appears q_ m_ := by simp only [State.appears, State.map, bufferFull_lc]
@[simp] theorem bufferFull_ring (c : ChanId) (m_ : LineId) : (bufferFull c s).ring m_ = s.ring m_ := by simp only [State.ring, bufferFull_rc]
@[simp] theorem bufferFull_posRing (c : ChanId) (q_ : PosId) : (bufferFull c s).posRing q_ = s.posRing q_ := by simp only [State.posRing, bufferFull_rc]
@[simp] theorem bufferFull_group (c : ChanId) (g_ : GroupId) : (bufferFull c s).group g_ = s.group g_ := by simp only [State.group, bufferFull_fc]
@[simp] theorem bufferFull_settings (c : ChanId) (q_ : PosId) : (bufferFull c s).settings q_ = s.settings q_ := by simp only [State.settings, bufferFull_mp]
@[simp] theorem bufferFull_speakers (c : ChanId) (q_ : PosId) : (bufferFull c s).speakers q_ = s.speakers q_ := by simp only [State.speakers, bufferFull_mp]
@[simp] theorem bufferFull_now (c : ChanId) : (bufferFull c s).now = s.now := by simp only [State.now, bufferFull_ft]
@[simp] theorem bufferFull_running (c : ChanId) : (bufferFull c s).running = s.running := by simp only [State.running, bufferFull_ld]
@[simp] theorem bufferFull_due (c : ChanId) (d_ : Word) : (bufferFull c s).due d_ = s.due d_ := by exact State.due_congr (by simp) _
/-! ### `writeFrame` -/

@[simp] theorem writeFrame_lc (c : ChanId) (n : Word) (fr : Frame) (x : Session) : (writeFrame c n fr x s).lc = s.lc := by unfold writeFrame; dsimp only; (repeat' split) <;> simp
@[simp] theorem writeFrame_rc (c : ChanId) (n : Word) (fr : Frame) (x : Session) : (writeFrame c n fr x s).rc = s.rc := by unfold writeFrame; dsimp only; (repeat' split) <;> simp
@[simp] theorem writeFrame_fc (c : ChanId) (n : Word) (fr : Frame) (x : Session) : (writeFrame c n fr x s).fc = s.fc := by unfold writeFrame; dsimp only; (repeat' split) <;> simp
@[simp] theorem writeFrame_mp (c : ChanId) (n : Word) (fr : Frame) (x : Session) : (writeFrame c n fr x s).mp = s.mp := by unfold writeFrame; dsimp only; (repeat' split) <;> simp
@[simp] theorem writeFrame_me (c : ChanId) (n : Word) (fr : Frame) (x : Session) : (writeFrame c n fr x s).me = s.me := by unfold writeFrame; dsimp only; (repeat' split) <;> simp
@[simp] theorem writeFrame_ft (c : ChanId) (n : Word) (fr : Frame) (x : Session) : (writeFrame c n fr x s).ft = s.ft := by unfold writeFrame; dsimp only; (repeat' split) <;> simp
@[simp] theorem writeFrame_ld (c : ChanId) (n : Word) (fr : Frame) (x : Session) : (writeFrame c n fr x s).ld = s.ld := by unfold writeFrame; dsimp only; (repeat' split) <;> simp
@[simp] theorem writeFrame_handed (c : ChanId) (n : Word) (fr : Frame) (x : Session) : (writeFrame c n fr x s).handed = s.handed := by unfold writeFrame; dsimp only; (repeat' split) <;> simp
@[simp] theorem writeFrame_draws (c : ChanId) (n : Word) (fr : Frame) (x : Session) : (writeFrame c n fr x s).draws = s.draws := by unfold writeFrame; dsimp only; (repeat' split) <;> simp
@[simp] theorem writeFrame_pending (c : ChanId) (n : Word) (fr : Frame) (x : Session) : (writeFrame c n fr x s).pending = s.pending := by unfold writeFrame; dsimp only; (repeat' split) <;> simp
@[simp] theorem writeFrame_line (c : ChanId) (n : Word) (fr : Frame) (x : Session) (m_ : LineId) : (writeFrame c n fr x s).line m_ = s.line m_ := by simp only [State.line, writeFrame_lc]
@[simp] theorem writeFrame_handset (c : ChanId) (n : Word) (fr : Frame) (x : Session) (h_ : Handset) : (writeFrame c n fr x s).handset h_ = s.handset h_ := by simp only [State.handset, writeFrame_lc]
@[simp] theorem writeFrame_map (c : ChanId) (n : Word) (fr : Frame) (x : Session) (q_ : PosId) : (writeFrame c n fr x s).map q_ = s.map q_ := by simp only [State.map, writeFrame_lc]
@[simp] theorem writeFrame_appears (c : ChanId) (n : Word) (fr : Frame) (x : Session) (q_ : PosId) (m_ : LineId) : (writeFrame c n fr x s).appears q_ m_ = s.appears q_ m_ := by simp only [State.appears, State.map, writeFrame_lc]
@[simp] theorem writeFrame_ring (c : ChanId) (n : Word) (fr : Frame) (x : Session) (m_ : LineId) : (writeFrame c n fr x s).ring m_ = s.ring m_ := by simp only [State.ring, writeFrame_rc]
@[simp] theorem writeFrame_posRing (c : ChanId) (n : Word) (fr : Frame) (x : Session) (q_ : PosId) : (writeFrame c n fr x s).posRing q_ = s.posRing q_ := by simp only [State.posRing, writeFrame_rc]
@[simp] theorem writeFrame_group (c : ChanId) (n : Word) (fr : Frame) (x : Session) (g_ : GroupId) : (writeFrame c n fr x s).group g_ = s.group g_ := by simp only [State.group, writeFrame_fc]
@[simp] theorem writeFrame_settings (c : ChanId) (n : Word) (fr : Frame) (x : Session) (q_ : PosId) : (writeFrame c n fr x s).settings q_ = s.settings q_ := by simp only [State.settings, writeFrame_mp]
@[simp] theorem writeFrame_speakers (c : ChanId) (n : Word) (fr : Frame) (x : Session) (q_ : PosId) : (writeFrame c n fr x s).speakers q_ = s.speakers q_ := by simp only [State.speakers, writeFrame_mp]
@[simp] theorem writeFrame_now (c : ChanId) (n : Word) (fr : Frame) (x : Session) : (writeFrame c n fr x s).now = s.now := by simp only [State.now, writeFrame_ft]
@[simp] theorem writeFrame_running (c : ChanId) (n : Word) (fr : Frame) (x : Session) : (writeFrame c n fr x s).running = s.running := by simp only [State.running, writeFrame_ld]
@[simp] theorem writeFrame_due (c : ChanId) (n : Word) (fr : Frame) (x : Session) (d_ : Word) : (writeFrame c n fr x s).due d_ = s.due d_ := by exact State.due_congr (by simp) _
/-! ### `loseFrame` -/

@[simp] theorem loseFrame_lc (c : ChanId) (n : Word) (x : Session) : (loseFrame c n x s).lc = s.lc := by unfold loseFrame; dsimp only; split <;> simp
@[simp] theorem loseFrame_rc (c : ChanId) (n : Word) (x : Session) : (loseFrame c n x s).rc = s.rc := by unfold loseFrame; dsimp only; split <;> simp
@[simp] theorem loseFrame_fc (c : ChanId) (n : Word) (x : Session) : (loseFrame c n x s).fc = s.fc := by unfold loseFrame; dsimp only; split <;> simp
@[simp] theorem loseFrame_mp (c : ChanId) (n : Word) (x : Session) : (loseFrame c n x s).mp = s.mp := by unfold loseFrame; dsimp only; split <;> simp
@[simp] theorem loseFrame_me (c : ChanId) (n : Word) (x : Session) : (loseFrame c n x s).me = s.me := by unfold loseFrame; dsimp only; split <;> simp
@[simp] theorem loseFrame_ft (c : ChanId) (n : Word) (x : Session) : (loseFrame c n x s).ft = s.ft := by unfold loseFrame; dsimp only; split <;> simp
@[simp] theorem loseFrame_ld (c : ChanId) (n : Word) (x : Session) : (loseFrame c n x s).ld = s.ld := by unfold loseFrame; dsimp only; split <;> simp
@[simp] theorem loseFrame_handed (c : ChanId) (n : Word) (x : Session) : (loseFrame c n x s).handed = s.handed := by unfold loseFrame; dsimp only; split <;> simp
@[simp] theorem loseFrame_draws (c : ChanId) (n : Word) (x : Session) : (loseFrame c n x s).draws = s.draws := by unfold loseFrame; dsimp only; split <;> simp
@[simp] theorem loseFrame_pending (c : ChanId) (n : Word) (x : Session) : (loseFrame c n x s).pending = s.pending := by unfold loseFrame; dsimp only; split <;> simp
@[simp] theorem loseFrame_line (c : ChanId) (n : Word) (x : Session) (m_ : LineId) : (loseFrame c n x s).line m_ = s.line m_ := by simp only [State.line, loseFrame_lc]
@[simp] theorem loseFrame_handset (c : ChanId) (n : Word) (x : Session) (h_ : Handset) : (loseFrame c n x s).handset h_ = s.handset h_ := by simp only [State.handset, loseFrame_lc]
@[simp] theorem loseFrame_map (c : ChanId) (n : Word) (x : Session) (q_ : PosId) : (loseFrame c n x s).map q_ = s.map q_ := by simp only [State.map, loseFrame_lc]
@[simp] theorem loseFrame_appears (c : ChanId) (n : Word) (x : Session) (q_ : PosId) (m_ : LineId) : (loseFrame c n x s).appears q_ m_ = s.appears q_ m_ := by simp only [State.appears, State.map, loseFrame_lc]
@[simp] theorem loseFrame_ring (c : ChanId) (n : Word) (x : Session) (m_ : LineId) : (loseFrame c n x s).ring m_ = s.ring m_ := by simp only [State.ring, loseFrame_rc]
@[simp] theorem loseFrame_posRing (c : ChanId) (n : Word) (x : Session) (q_ : PosId) : (loseFrame c n x s).posRing q_ = s.posRing q_ := by simp only [State.posRing, loseFrame_rc]
@[simp] theorem loseFrame_group (c : ChanId) (n : Word) (x : Session) (g_ : GroupId) : (loseFrame c n x s).group g_ = s.group g_ := by simp only [State.group, loseFrame_fc]
@[simp] theorem loseFrame_settings (c : ChanId) (n : Word) (x : Session) (q_ : PosId) : (loseFrame c n x s).settings q_ = s.settings q_ := by simp only [State.settings, loseFrame_mp]
@[simp] theorem loseFrame_speakers (c : ChanId) (n : Word) (x : Session) (q_ : PosId) : (loseFrame c n x s).speakers q_ = s.speakers q_ := by simp only [State.speakers, loseFrame_mp]
@[simp] theorem loseFrame_now (c : ChanId) (n : Word) (x : Session) : (loseFrame c n x s).now = s.now := by simp only [State.now, loseFrame_ft]
@[simp] theorem loseFrame_running (c : ChanId) (n : Word) (x : Session) : (loseFrame c n x s).running = s.running := by simp only [State.running, loseFrame_ld]
@[simp] theorem loseFrame_due (c : ChanId) (n : Word) (x : Session) (d_ : Word) : (loseFrame c n x s).due d_ = s.due d_ := by exact State.due_congr (by simp) _
/-! ### `cutSegment` -/

@[simp] theorem cutSegment_lc (c : ChanId) (x : Session) : (cutSegment c x s).lc = s.lc := by simp [cutSegment]
@[simp] theorem cutSegment_rc (c : ChanId) (x : Session) : (cutSegment c x s).rc = s.rc := by simp [cutSegment]
@[simp] theorem cutSegment_fc (c : ChanId) (x : Session) : (cutSegment c x s).fc = s.fc := by simp [cutSegment]
@[simp] theorem cutSegment_mp (c : ChanId) (x : Session) : (cutSegment c x s).mp = s.mp := by simp [cutSegment]
@[simp] theorem cutSegment_me (c : ChanId) (x : Session) : (cutSegment c x s).me = s.me := by simp [cutSegment]
@[simp] theorem cutSegment_ft (c : ChanId) (x : Session) : (cutSegment c x s).ft = s.ft := by simp [cutSegment]
@[simp] theorem cutSegment_cu (c : ChanId) (x : Session) : (cutSegment c x s).cu = s.cu := by simp [cutSegment]
@[simp] theorem cutSegment_ld (c : ChanId) (x : Session) : (cutSegment c x s).ld = s.ld := by simp [cutSegment]
@[simp] theorem cutSegment_handed (c : ChanId) (x : Session) : (cutSegment c x s).handed = s.handed := by simp [cutSegment]
@[simp] theorem cutSegment_draws (c : ChanId) (x : Session) : (cutSegment c x s).draws = s.draws := by simp [cutSegment]
@[simp] theorem cutSegment_pending (c : ChanId) (x : Session) : (cutSegment c x s).pending = s.pending := by simp [cutSegment]
@[simp] theorem cutSegment_line (c : ChanId) (x : Session) (m_ : LineId) : (cutSegment c x s).line m_ = s.line m_ := by simp only [State.line, cutSegment_lc]
@[simp] theorem cutSegment_handset (c : ChanId) (x : Session) (h_ : Handset) : (cutSegment c x s).handset h_ = s.handset h_ := by simp only [State.handset, cutSegment_lc]
@[simp] theorem cutSegment_map (c : ChanId) (x : Session) (q_ : PosId) : (cutSegment c x s).map q_ = s.map q_ := by simp only [State.map, cutSegment_lc]
@[simp] theorem cutSegment_appears (c : ChanId) (x : Session) (q_ : PosId) (m_ : LineId) : (cutSegment c x s).appears q_ m_ = s.appears q_ m_ := by simp only [State.appears, State.map, cutSegment_lc]
@[simp] theorem cutSegment_ring (c : ChanId) (x : Session) (m_ : LineId) : (cutSegment c x s).ring m_ = s.ring m_ := by simp only [State.ring, cutSegment_rc]
@[simp] theorem cutSegment_posRing (c : ChanId) (x : Session) (q_ : PosId) : (cutSegment c x s).posRing q_ = s.posRing q_ := by simp only [State.posRing, cutSegment_rc]
@[simp] theorem cutSegment_group (c : ChanId) (x : Session) (g_ : GroupId) : (cutSegment c x s).group g_ = s.group g_ := by simp only [State.group, cutSegment_fc]
@[simp] theorem cutSegment_settings (c : ChanId) (x : Session) (q_ : PosId) : (cutSegment c x s).settings q_ = s.settings q_ := by simp only [State.settings, cutSegment_mp]
@[simp] theorem cutSegment_speakers (c : ChanId) (x : Session) (q_ : PosId) : (cutSegment c x s).speakers q_ = s.speakers q_ := by simp only [State.speakers, cutSegment_mp]
@[simp] theorem cutSegment_now (c : ChanId) (x : Session) : (cutSegment c x s).now = s.now := by simp only [State.now, cutSegment_ft]
@[simp] theorem cutSegment_running (c : ChanId) (x : Session) : (cutSegment c x s).running = s.running := by simp only [State.running, cutSegment_ld]
@[simp] theorem cutSegment_due (c : ChanId) (x : Session) (d_ : Word) : (cutSegment c x s).due d_ = s.due d_ := by exact State.due_congr (by simp) _
/-! ### `segmentTest` -/

@[simp] theorem segmentTest_lc (c : ChanId) : (segmentTest c s).lc = s.lc := by unfold segmentTest; dsimp only; split <;> [(split <;> [(split <;> simp); rfl]); rfl]
@[simp] theorem segmentTest_rc (c : ChanId) : (segmentTest c s).rc = s.rc := by unfold segmentTest; dsimp only; split <;> [(split <;> [(split <;> simp); rfl]); rfl]
@[simp] theorem segmentTest_fc (c : ChanId) : (segmentTest c s).fc = s.fc := by unfold segmentTest; dsimp only; split <;> [(split <;> [(split <;> simp); rfl]); rfl]
@[simp] theorem segmentTest_mp (c : ChanId) : (segmentTest c s).mp = s.mp := by unfold segmentTest; dsimp only; split <;> [(split <;> [(split <;> simp); rfl]); rfl]
@[simp] theorem segmentTest_me (c : ChanId) : (segmentTest c s).me = s.me := by unfold segmentTest; dsimp only; split <;> [(split <;> [(split <;> simp); rfl]); rfl]
@[simp] theorem segmentTest_ft (c : ChanId) : (segmentTest c s).ft = s.ft := by unfold segmentTest; dsimp only; split <;> [(split <;> [(split <;> simp); rfl]); rfl]
@[simp] theorem segmentTest_cu (c : ChanId) : (segmentTest c s).cu = s.cu := by unfold segmentTest; dsimp only; split <;> [(split <;> [(split <;> simp); rfl]); rfl]
@[simp] theorem segmentTest_ld (c : ChanId) : (segmentTest c s).ld = s.ld := by unfold segmentTest; dsimp only; split <;> [(split <;> [(split <;> simp); rfl]); rfl]
@[simp] theorem segmentTest_handed (c : ChanId) : (segmentTest c s).handed = s.handed := by unfold segmentTest; dsimp only; split <;> [(split <;> [(split <;> simp); rfl]); rfl]
@[simp] theorem segmentTest_draws (c : ChanId) : (segmentTest c s).draws = s.draws := by unfold segmentTest; dsimp only; split <;> [(split <;> [(split <;> simp); rfl]); rfl]
@[simp] theorem segmentTest_pending (c : ChanId) : (segmentTest c s).pending = s.pending := by unfold segmentTest; dsimp only; split <;> [(split <;> [(split <;> simp); rfl]); rfl]
@[simp] theorem segmentTest_line (c : ChanId) (m_ : LineId) : (segmentTest c s).line m_ = s.line m_ := by simp only [State.line, segmentTest_lc]
@[simp] theorem segmentTest_handset (c : ChanId) (h_ : Handset) : (segmentTest c s).handset h_ = s.handset h_ := by simp only [State.handset, segmentTest_lc]
@[simp] theorem segmentTest_map (c : ChanId) (q_ : PosId) : (segmentTest c s).map q_ = s.map q_ := by simp only [State.map, segmentTest_lc]
@[simp] theorem segmentTest_appears (c : ChanId) (q_ : PosId) (m_ : LineId) : (segmentTest c s).appears q_ m_ = s.appears q_ m_ := by simp only [State.appears, State.map, segmentTest_lc]
@[simp] theorem segmentTest_ring (c : ChanId) (m_ : LineId) : (segmentTest c s).ring m_ = s.ring m_ := by simp only [State.ring, segmentTest_rc]
@[simp] theorem segmentTest_posRing (c : ChanId) (q_ : PosId) : (segmentTest c s).posRing q_ = s.posRing q_ := by simp only [State.posRing, segmentTest_rc]
@[simp] theorem segmentTest_group (c : ChanId) (g_ : GroupId) : (segmentTest c s).group g_ = s.group g_ := by simp only [State.group, segmentTest_fc]
@[simp] theorem segmentTest_settings (c : ChanId) (q_ : PosId) : (segmentTest c s).settings q_ = s.settings q_ := by simp only [State.settings, segmentTest_mp]
@[simp] theorem segmentTest_speakers (c : ChanId) (q_ : PosId) : (segmentTest c s).speakers q_ = s.speakers q_ := by simp only [State.speakers, segmentTest_mp]
@[simp] theorem segmentTest_now (c : ChanId) : (segmentTest c s).now = s.now := by simp only [State.now, segmentTest_ft]
@[simp] theorem segmentTest_running (c : ChanId) : (segmentTest c s).running = s.running := by simp only [State.running, segmentTest_ld]
@[simp] theorem segmentTest_due (c : ChanId) (d_ : Word) : (segmentTest c s).due d_ = s.due d_ := by exact State.due_congr (by simp) _
/-! ### `closeStep` -/

@[simp] theorem closeStep_lc (c : ChanId) : (closeStep c s).lc = s.lc := by unfold closeStep; dsimp only; split <;> split <;> simp
@[simp] theorem closeStep_rc (c : ChanId) : (closeStep c s).rc = s.rc := by unfold closeStep; dsimp only; split <;> split <;> simp
@[simp] theorem closeStep_fc (c : ChanId) : (closeStep c s).fc = s.fc := by unfold closeStep; dsimp only; split <;> split <;> simp
@[simp] theorem closeStep_mp (c : ChanId) : (closeStep c s).mp = s.mp := by unfold closeStep; dsimp only; split <;> split <;> simp
@[simp] theorem closeStep_me (c : ChanId) : (closeStep c s).me = s.me := by unfold closeStep; dsimp only; split <;> split <;> simp
@[simp] theorem closeStep_ft (c : ChanId) : (closeStep c s).ft = s.ft := by unfold closeStep; dsimp only; split <;> split <;> simp
@[simp] theorem closeStep_ld (c : ChanId) : (closeStep c s).ld = s.ld := by unfold closeStep; dsimp only; split <;> split <;> simp
@[simp] theorem closeStep_handed (c : ChanId) : (closeStep c s).handed = s.handed := by unfold closeStep; dsimp only; split <;> split <;> simp
@[simp] theorem closeStep_draws (c : ChanId) : (closeStep c s).draws = s.draws := by unfold closeStep; dsimp only; split <;> split <;> simp
@[simp] theorem closeStep_pending (c : ChanId) : (closeStep c s).pending = s.pending := by unfold closeStep; dsimp only; split <;> split <;> simp
@[simp] theorem closeStep_line (c : ChanId) (m_ : LineId) : (closeStep c s).line m_ = s.line m_ := by simp only [State.line, closeStep_lc]
@[simp] theorem closeStep_handset (c : ChanId) (h_ : Handset) : (closeStep c s).handset h_ = s.handset h_ := by simp only [State.handset, closeStep_lc]
@[simp] theorem closeStep_map (c : ChanId) (q_ : PosId) : (closeStep c s).map q_ = s.map q_ := by simp only [State.map, closeStep_lc]
@[simp] theorem closeStep_appears (c : ChanId) (q_ : PosId) (m_ : LineId) : (closeStep c s).appears q_ m_ = s.appears q_ m_ := by simp only [State.appears, State.map, closeStep_lc]
@[simp] theorem closeStep_ring (c : ChanId) (m_ : LineId) : (closeStep c s).ring m_ = s.ring m_ := by simp only [State.ring, closeStep_rc]
@[simp] theorem closeStep_posRing (c : ChanId) (q_ : PosId) : (closeStep c s).posRing q_ = s.posRing q_ := by simp only [State.posRing, closeStep_rc]
@[simp] theorem closeStep_group (c : ChanId) (g_ : GroupId) : (closeStep c s).group g_ = s.group g_ := by simp only [State.group, closeStep_fc]
@[simp] theorem closeStep_settings (c : ChanId) (q_ : PosId) : (closeStep c s).settings q_ = s.settings q_ := by simp only [State.settings, closeStep_mp]
@[simp] theorem closeStep_speakers (c : ChanId) (q_ : PosId) : (closeStep c s).speakers q_ = s.speakers q_ := by simp only [State.speakers, closeStep_mp]
@[simp] theorem closeStep_now (c : ChanId) : (closeStep c s).now = s.now := by simp only [State.now, closeStep_ft]
@[simp] theorem closeStep_running (c : ChanId) : (closeStep c s).running = s.running := by simp only [State.running, closeStep_ld]
@[simp] theorem closeStep_due (c : ChanId) (d_ : Word) : (closeStep c s).due d_ = s.due d_ := by exact State.due_congr (by simp) _
/-! ### `takeChannelFrame` -/

@[simp] theorem takeChannelFrame_lc (n : Word) (fs : Table 32 Frame) (c : ChanId) : (takeChannelFrame n fs c s).lc = s.lc := by unfold takeChannelFrame; dsimp only; split <;> [rfl; (split <;> [rfl; (split <;> simp)]); (split <;> simp)]
@[simp] theorem takeChannelFrame_rc (n : Word) (fs : Table 32 Frame) (c : ChanId) : (takeChannelFrame n fs c s).rc = s.rc := by unfold takeChannelFrame; dsimp only; split <;> [rfl; (split <;> [rfl; (split <;> simp)]); (split <;> simp)]
@[simp] theorem takeChannelFrame_fc (n : Word) (fs : Table 32 Frame) (c : ChanId) : (takeChannelFrame n fs c s).fc = s.fc := by unfold takeChannelFrame; dsimp only; split <;> [rfl; (split <;> [rfl; (split <;> simp)]); (split <;> simp)]
@[simp] theorem takeChannelFrame_mp (n : Word) (fs : Table 32 Frame) (c : ChanId) : (takeChannelFrame n fs c s).mp = s.mp := by unfold takeChannelFrame; dsimp only; split <;> [rfl; (split <;> [rfl; (split <;> simp)]); (split <;> simp)]
@[simp] theorem takeChannelFrame_me (n : Word) (fs : Table 32 Frame) (c : ChanId) : (takeChannelFrame n fs c s).me = s.me := by unfold takeChannelFrame; dsimp only; split <;> [rfl; (split <;> [rfl; (split <;> simp)]); (split <;> simp)]
@[simp] theorem takeChannelFrame_ft (n : Word) (fs : Table 32 Frame) (c : ChanId) : (takeChannelFrame n fs c s).ft = s.ft := by unfold takeChannelFrame; dsimp only; split <;> [rfl; (split <;> [rfl; (split <;> simp)]); (split <;> simp)]
@[simp] theorem takeChannelFrame_ld (n : Word) (fs : Table 32 Frame) (c : ChanId) : (takeChannelFrame n fs c s).ld = s.ld := by unfold takeChannelFrame; dsimp only; split <;> [rfl; (split <;> [rfl; (split <;> simp)]); (split <;> simp)]
@[simp] theorem takeChannelFrame_handed (n : Word) (fs : Table 32 Frame) (c : ChanId) : (takeChannelFrame n fs c s).handed = s.handed := by unfold takeChannelFrame; dsimp only; split <;> [rfl; (split <;> [rfl; (split <;> simp)]); (split <;> simp)]
@[simp] theorem takeChannelFrame_draws (n : Word) (fs : Table 32 Frame) (c : ChanId) : (takeChannelFrame n fs c s).draws = s.draws := by unfold takeChannelFrame; dsimp only; split <;> [rfl; (split <;> [rfl; (split <;> simp)]); (split <;> simp)]
@[simp] theorem takeChannelFrame_pending (n : Word) (fs : Table 32 Frame) (c : ChanId) : (takeChannelFrame n fs c s).pending = s.pending := by unfold takeChannelFrame; dsimp only; split <;> [rfl; (split <;> [rfl; (split <;> simp)]); (split <;> simp)]
@[simp] theorem takeChannelFrame_line (n : Word) (fs : Table 32 Frame) (c : ChanId) (m_ : LineId) : (takeChannelFrame n fs c s).line m_ = s.line m_ := by simp only [State.line, takeChannelFrame_lc]
@[simp] theorem takeChannelFrame_handset (n : Word) (fs : Table 32 Frame) (c : ChanId) (h_ : Handset) : (takeChannelFrame n fs c s).handset h_ = s.handset h_ := by simp only [State.handset, takeChannelFrame_lc]
@[simp] theorem takeChannelFrame_map (n : Word) (fs : Table 32 Frame) (c : ChanId) (q_ : PosId) : (takeChannelFrame n fs c s).map q_ = s.map q_ := by simp only [State.map, takeChannelFrame_lc]
@[simp] theorem takeChannelFrame_appears (n : Word) (fs : Table 32 Frame) (c : ChanId) (q_ : PosId) (m_ : LineId) : (takeChannelFrame n fs c s).appears q_ m_ = s.appears q_ m_ := by simp only [State.appears, State.map, takeChannelFrame_lc]
@[simp] theorem takeChannelFrame_ring (n : Word) (fs : Table 32 Frame) (c : ChanId) (m_ : LineId) : (takeChannelFrame n fs c s).ring m_ = s.ring m_ := by simp only [State.ring, takeChannelFrame_rc]
@[simp] theorem takeChannelFrame_posRing (n : Word) (fs : Table 32 Frame) (c : ChanId) (q_ : PosId) : (takeChannelFrame n fs c s).posRing q_ = s.posRing q_ := by simp only [State.posRing, takeChannelFrame_rc]
@[simp] theorem takeChannelFrame_group (n : Word) (fs : Table 32 Frame) (c : ChanId) (g_ : GroupId) : (takeChannelFrame n fs c s).group g_ = s.group g_ := by simp only [State.group, takeChannelFrame_fc]
@[simp] theorem takeChannelFrame_settings (n : Word) (fs : Table 32 Frame) (c : ChanId) (q_ : PosId) : (takeChannelFrame n fs c s).settings q_ = s.settings q_ := by simp only [State.settings, takeChannelFrame_mp]
@[simp] theorem takeChannelFrame_speakers (n : Word) (fs : Table 32 Frame) (c : ChanId) (q_ : PosId) : (takeChannelFrame n fs c s).speakers q_ = s.speakers q_ := by simp only [State.speakers, takeChannelFrame_mp]
@[simp] theorem takeChannelFrame_now (n : Word) (fs : Table 32 Frame) (c : ChanId) : (takeChannelFrame n fs c s).now = s.now := by simp only [State.now, takeChannelFrame_ft]
@[simp] theorem takeChannelFrame_running (n : Word) (fs : Table 32 Frame) (c : ChanId) : (takeChannelFrame n fs c s).running = s.running := by simp only [State.running, takeChannelFrame_ld]
@[simp] theorem takeChannelFrame_due (n : Word) (fs : Table 32 Frame) (c : ChanId) (d_ : Word) : (takeChannelFrame n fs c s).due d_ = s.due d_ := by exact State.due_congr (by simp) _
theorem takeFrames_keeps {α : Type} (get : State → α) (r : RecFrames)
    (h : ∀ c s, get (takeChannelFrame r.number r.frames c s) = get s) :
    get (takeFrames r s) = get { s with ru := { s.ru with frameNo := r.number } } :=
  foldl_keeps get _ (fun s c => h c s) _ _

/-! ### `takeFrames` -/

@[simp] theorem takeFrames_lc (r : RecFrames) : (takeFrames r s).lc = s.lc := takeFrames_keeps s (·.lc) r (by simp)
@[simp] theorem takeFrames_rc (r : RecFrames) : (takeFrames r s).rc = s.rc := takeFrames_keeps s (·.rc) r (by simp)
@[simp] theorem takeFrames_fc (r : RecFrames) : (takeFrames r s).fc = s.fc := takeFrames_keeps s (·.fc) r (by simp)
@[simp] theorem takeFrames_mp (r : RecFrames) : (takeFrames r s).mp = s.mp := takeFrames_keeps s (·.mp) r (by simp)
@[simp] theorem takeFrames_me (r : RecFrames) : (takeFrames r s).me = s.me := takeFrames_keeps s (·.me) r (by simp)
@[simp] theorem takeFrames_ft (r : RecFrames) : (takeFrames r s).ft = s.ft := takeFrames_keeps s (·.ft) r (by simp)
@[simp] theorem takeFrames_ld (r : RecFrames) : (takeFrames r s).ld = s.ld := takeFrames_keeps s (·.ld) r (by simp)
@[simp] theorem takeFrames_handed (r : RecFrames) : (takeFrames r s).handed = s.handed := takeFrames_keeps s (·.handed) r (by simp)
@[simp] theorem takeFrames_draws (r : RecFrames) : (takeFrames r s).draws = s.draws := takeFrames_keeps s (·.draws) r (by simp)
@[simp] theorem takeFrames_pending (r : RecFrames) : (takeFrames r s).pending = s.pending := takeFrames_keeps s (·.pending) r (by simp)
@[simp] theorem takeFrames_line (r : RecFrames) (m_ : LineId) : (takeFrames r s).line m_ = s.line m_ := by simp only [State.line, takeFrames_lc]
@[simp] theorem takeFrames_handset (r : RecFrames) (h_ : Handset) : (takeFrames r s).handset h_ = s.handset h_ := by simp only [State.handset, takeFrames_lc]
@[simp] theorem takeFrames_map (r : RecFrames) (q_ : PosId) : (takeFrames r s).map q_ = s.map q_ := by simp only [State.map, takeFrames_lc]
@[simp] theorem takeFrames_appears (r : RecFrames) (q_ : PosId) (m_ : LineId) : (takeFrames r s).appears q_ m_ = s.appears q_ m_ := by simp only [State.appears, State.map, takeFrames_lc]
@[simp] theorem takeFrames_ring (r : RecFrames) (m_ : LineId) : (takeFrames r s).ring m_ = s.ring m_ := by simp only [State.ring, takeFrames_rc]
@[simp] theorem takeFrames_posRing (r : RecFrames) (q_ : PosId) : (takeFrames r s).posRing q_ = s.posRing q_ := by simp only [State.posRing, takeFrames_rc]
@[simp] theorem takeFrames_group (r : RecFrames) (g_ : GroupId) : (takeFrames r s).group g_ = s.group g_ := by simp only [State.group, takeFrames_fc]
@[simp] theorem takeFrames_settings (r : RecFrames) (q_ : PosId) : (takeFrames r s).settings q_ = s.settings q_ := by simp only [State.settings, takeFrames_mp]
@[simp] theorem takeFrames_speakers (r : RecFrames) (q_ : PosId) : (takeFrames r s).speakers q_ = s.speakers q_ := by simp only [State.speakers, takeFrames_mp]
@[simp] theorem takeFrames_now (r : RecFrames) : (takeFrames r s).now = s.now := by simp only [State.now, takeFrames_ft]
@[simp] theorem takeFrames_running (r : RecFrames) : (takeFrames r s).running = s.running := by simp only [State.running, takeFrames_ld]
@[simp] theorem takeFrames_due (r : RecFrames) (d_ : Word) : (takeFrames r s).due d_ = s.due d_ := by exact State.due_congr (by simp) _
/-! ### `postBuffers` -/

@[simp] theorem postBuffers_lc (c : ChanId) : (postBuffers c s).lc = s.lc := by simp [postBuffers]
@[simp] theorem postBuffers_rc (c : ChanId) : (postBuffers c s).rc = s.rc := by simp [postBuffers]
@[simp] theorem postBuffers_fc (c : ChanId) : (postBuffers c s).fc = s.fc := by simp [postBuffers]
@[simp] theorem postBuffers_mp (c : ChanId) : (postBuffers c s).mp = s.mp := by simp [postBuffers]
@[simp] theorem postBuffers_me (c : ChanId) : (postBuffers c s).me = s.me := by simp [postBuffers]
@[simp] theorem postBuffers_ft (c : ChanId) : (postBuffers c s).ft = s.ft := by simp [postBuffers]
@[simp] theorem postBuffers_ld (c : ChanId) : (postBuffers c s).ld = s.ld := by simp [postBuffers]
@[simp] theorem postBuffers_handed (c : ChanId) : (postBuffers c s).handed = s.handed := by simp [postBuffers]
@[simp] theorem postBuffers_draws (c : ChanId) : (postBuffers c s).draws = s.draws := by simp [postBuffers]
@[simp] theorem postBuffers_pending (c : ChanId) : (postBuffers c s).pending = s.pending := by simp [postBuffers]
@[simp] theorem postBuffers_line (c : ChanId) (m_ : LineId) : (postBuffers c s).line m_ = s.line m_ := by simp only [State.line, postBuffers_lc]
@[simp] theorem postBuffers_handset (c : ChanId) (h_ : Handset) : (postBuffers c s).handset h_ = s.handset h_ := by simp only [State.handset, postBuffers_lc]
@[simp] theorem postBuffers_map (c : ChanId) (q_ : PosId) : (postBuffers c s).map q_ = s.map q_ := by simp only [State.map, postBuffers_lc]
@[simp] theorem postBuffers_appears (c : ChanId) (q_ : PosId) (m_ : LineId) : (postBuffers c s).appears q_ m_ = s.appears q_ m_ := by simp only [State.appears, State.map, postBuffers_lc]
@[simp] theorem postBuffers_ring (c : ChanId) (m_ : LineId) : (postBuffers c s).ring m_ = s.ring m_ := by simp only [State.ring, postBuffers_rc]
@[simp] theorem postBuffers_posRing (c : ChanId) (q_ : PosId) : (postBuffers c s).posRing q_ = s.posRing q_ := by simp only [State.posRing, postBuffers_rc]
@[simp] theorem postBuffers_group (c : ChanId) (g_ : GroupId) : (postBuffers c s).group g_ = s.group g_ := by simp only [State.group, postBuffers_fc]
@[simp] theorem postBuffers_settings (c : ChanId) (q_ : PosId) : (postBuffers c s).settings q_ = s.settings q_ := by simp only [State.settings, postBuffers_mp]
@[simp] theorem postBuffers_speakers (c : ChanId) (q_ : PosId) : (postBuffers c s).speakers q_ = s.speakers q_ := by simp only [State.speakers, postBuffers_mp]
@[simp] theorem postBuffers_now (c : ChanId) : (postBuffers c s).now = s.now := by simp only [State.now, postBuffers_ft]
@[simp] theorem postBuffers_running (c : ChanId) : (postBuffers c s).running = s.running := by simp only [State.running, postBuffers_ld]
@[simp] theorem postBuffers_due (c : ChanId) (d_ : Word) : (postBuffers c s).due d_ = s.due d_ := by exact State.due_congr (by simp) _
/-! ### `frameReturned` -/

@[simp] theorem frameReturned_lc (c : ChanId) (b : Buf) (fr n : Word) (e : Bool) : (frameReturned c b fr n e s).lc = s.lc := by unfold frameReturned; dsimp only; (repeat' split) <;> simp
@[simp] theorem frameReturned_rc (c : ChanId) (b : Buf) (fr n : Word) (e : Bool) : (frameReturned c b fr n e s).rc = s.rc := by unfold frameReturned; dsimp only; (repeat' split) <;> simp
@[simp] theorem frameReturned_fc (c : ChanId) (b : Buf) (fr n : Word) (e : Bool) : (frameReturned c b fr n e s).fc = s.fc := by unfold frameReturned; dsimp only; (repeat' split) <;> simp
@[simp] theorem frameReturned_mp (c : ChanId) (b : Buf) (fr n : Word) (e : Bool) : (frameReturned c b fr n e s).mp = s.mp := by unfold frameReturned; dsimp only; (repeat' split) <;> simp
@[simp] theorem frameReturned_me (c : ChanId) (b : Buf) (fr n : Word) (e : Bool) : (frameReturned c b fr n e s).me = s.me := by unfold frameReturned; dsimp only; (repeat' split) <;> simp
@[simp] theorem frameReturned_ft (c : ChanId) (b : Buf) (fr n : Word) (e : Bool) : (frameReturned c b fr n e s).ft = s.ft := by unfold frameReturned; dsimp only; (repeat' split) <;> simp
@[simp] theorem frameReturned_ld (c : ChanId) (b : Buf) (fr n : Word) (e : Bool) : (frameReturned c b fr n e s).ld = s.ld := by unfold frameReturned; dsimp only; (repeat' split) <;> simp
@[simp] theorem frameReturned_handed (c : ChanId) (b : Buf) (fr n : Word) (e : Bool) : (frameReturned c b fr n e s).handed = s.handed := by unfold frameReturned; dsimp only; (repeat' split) <;> simp
@[simp] theorem frameReturned_draws (c : ChanId) (b : Buf) (fr n : Word) (e : Bool) : (frameReturned c b fr n e s).draws = s.draws := by unfold frameReturned; dsimp only; (repeat' split) <;> simp
@[simp] theorem frameReturned_pending (c : ChanId) (b : Buf) (fr n : Word) (e : Bool) : (frameReturned c b fr n e s).pending = s.pending := by unfold frameReturned; dsimp only; (repeat' split) <;> simp
@[simp] theorem frameReturned_line (c : ChanId) (b : Buf) (fr n : Word) (e : Bool) (m_ : LineId) : (frameReturned c b fr n e s).line m_ = s.line m_ := by simp only [State.line, frameReturned_lc]
@[simp] theorem frameReturned_handset (c : ChanId) (b : Buf) (fr n : Word) (e : Bool) (h_ : Handset) : (frameReturned c b fr n e s).handset h_ = s.handset h_ := by simp only [State.handset, frameReturned_lc]
@[simp] theorem frameReturned_map (c : ChanId) (b : Buf) (fr n : Word) (e : Bool) (q_ : PosId) : (frameReturned c b fr n e s).map q_ = s.map q_ := by simp only [State.map, frameReturned_lc]
@[simp] theorem frameReturned_appears (c : ChanId) (b : Buf) (fr n : Word) (e : Bool) (q_ : PosId) (m_ : LineId) : (frameReturned c b fr n e s).appears q_ m_ = s.appears q_ m_ := by simp only [State.appears, State.map, frameReturned_lc]
@[simp] theorem frameReturned_ring (c : ChanId) (b : Buf) (fr n : Word) (e : Bool) (m_ : LineId) : (frameReturned c b fr n e s).ring m_ = s.ring m_ := by simp only [State.ring, frameReturned_rc]
@[simp] theorem frameReturned_posRing (c : ChanId) (b : Buf) (fr n : Word) (e : Bool) (q_ : PosId) : (frameReturned c b fr n e s).posRing q_ = s.posRing q_ := by simp only [State.posRing, frameReturned_rc]
@[simp] theorem frameReturned_group (c : ChanId) (b : Buf) (fr n : Word) (e : Bool) (g_ : GroupId) : (frameReturned c b fr n e s).group g_ = s.group g_ := by simp only [State.group, frameReturned_fc]
@[simp] theorem frameReturned_settings (c : ChanId) (b : Buf) (fr n : Word) (e : Bool) (q_ : PosId) : (frameReturned c b fr n e s).settings q_ = s.settings q_ := by simp only [State.settings, frameReturned_mp]
@[simp] theorem frameReturned_speakers (c : ChanId) (b : Buf) (fr n : Word) (e : Bool) (q_ : PosId) : (frameReturned c b fr n e s).speakers q_ = s.speakers q_ := by simp only [State.speakers, frameReturned_mp]
@[simp] theorem frameReturned_now (c : ChanId) (b : Buf) (fr n : Word) (e : Bool) : (frameReturned c b fr n e s).now = s.now := by simp only [State.now, frameReturned_ft]
@[simp] theorem frameReturned_running (c : ChanId) (b : Buf) (fr n : Word) (e : Bool) : (frameReturned c b fr n e s).running = s.running := by simp only [State.running, frameReturned_ld]
@[simp] theorem frameReturned_due (c : ChanId) (b : Buf) (fr n : Word) (e : Bool) (d_ : Word) : (frameReturned c b fr n e s).due d_ = s.due d_ := by exact State.due_congr (by simp) _

end Sys2Proof.Machine
end

