-- ==== Sys2Proof/Laws/Rings.lean ====
section
/-! SUPPORT. What the Ring Presenter's operations leave of the state. -/

namespace Sys2Proof.Machine

variable (s : State)

/-! ### `addShown` -/

@[simp] theorem addShown_lc (b : Bool) (p : PosId) : (addShown b p s).lc = s.lc := by unfold addShown; dsimp only; split <;> simp
@[simp] theorem addShown_fc (b : Bool) (p : PosId) : (addShown b p s).fc = s.fc := by unfold addShown; dsimp only; split <;> simp
@[simp] theorem addShown_mp (b : Bool) (p : PosId) : (addShown b p s).mp = s.mp := by unfold addShown; dsimp only; split <;> simp
@[simp] theorem addShown_me (b : Bool) (p : PosId) : (addShown b p s).me = s.me := by unfold addShown; dsimp only; split <;> simp
@[simp] theorem addShown_ft (b : Bool) (p : PosId) : (addShown b p s).ft = s.ft := by unfold addShown; dsimp only; split <;> simp
@[simp] theorem addShown_ru (b : Bool) (p : PosId) : (addShown b p s).ru = s.ru := by unfold addShown; dsimp only; split <;> simp
@[simp] theorem addShown_ld (b : Bool) (p : PosId) : (addShown b p s).ld = s.ld := by unfold addShown; dsimp only; split <;> simp
@[simp] theorem addShown_handed (b : Bool) (p : PosId) : (addShown b p s).handed = s.handed := by unfold addShown; dsimp only; split <;> simp
@[simp] theorem addShown_draws (b : Bool) (p : PosId) : (addShown b p s).draws = s.draws := by unfold addShown; dsimp only; split <;> simp
@[simp] theorem addShown_pending (b : Bool) (p : PosId) : (addShown b p s).pending = s.pending := by unfold addShown; dsimp only; split <;> simp
@[simp] theorem addShown_line (b : Bool) (p : PosId) (m_ : LineId) : (addShown b p s).line m_ = s.line m_ := by simp only [State.line, addShown_lc]
@[simp] theorem addShown_handset (b : Bool) (p : PosId) (h_ : Handset) : (addShown b p s).handset h_ = s.handset h_ := by simp only [State.handset, addShown_lc]
@[simp] theorem addShown_map (b : Bool) (p : PosId) (q_ : PosId) : (addShown b p s).map q_ = s.map q_ := by simp only [State.map, addShown_lc]
@[simp] theorem addShown_appears (b : Bool) (p : PosId) (q_ : PosId) (m_ : LineId) : (addShown b p s).appears q_ m_ = s.appears q_ m_ := by simp only [State.appears, State.map, addShown_lc]
@[simp] theorem addShown_group (b : Bool) (p : PosId) (g_ : GroupId) : (addShown b p s).group g_ = s.group g_ := by simp only [State.group, addShown_fc]
@[simp] theorem addShown_settings (b : Bool) (p : PosId) (q_ : PosId) : (addShown b p s).settings q_ = s.settings q_ := by simp only [State.settings, addShown_mp]
@[simp] theorem addShown_speakers (b : Bool) (p : PosId) (q_ : PosId) : (addShown b p s).speakers q_ = s.speakers q_ := by simp only [State.speakers, addShown_mp]
@[simp] theorem addShown_chan (b : Bool) (p : PosId) (c_ : ChanId) : (addShown b p s).chan c_ = s.chan c_ := by simp only [State.chan, addShown_ru]
@[simp] theorem addShown_now (b : Bool) (p : PosId) : (addShown b p s).now = s.now := by simp only [State.now, addShown_ft]
@[simp] theorem addShown_running (b : Bool) (p : PosId) : (addShown b p s).running = s.running := by simp only [State.running, addShown_ld]
@[simp] theorem addShown_due (b : Bool) (p : PosId) (d_ : Word) : (addShown b p s).due d_ = s.due d_ := by exact State.due_congr (by simp) _
/-! ### `dropShown` -/

@[simp] theorem dropShown_lc (b : Bool) (p : PosId) : (dropShown b p s).lc = s.lc := by unfold dropShown; dsimp only; split <;> simp
@[simp] theorem dropShown_fc (b : Bool) (p : PosId) : (dropShown b p s).fc = s.fc := by unfold dropShown; dsimp only; split <;> simp
@[simp] theorem dropShown_mp (b : Bool) (p : PosId) : (dropShown b p s).mp = s.mp := by unfold dropShown; dsimp only; split <;> simp
@[simp] theorem dropShown_me (b : Bool) (p : PosId) : (dropShown b p s).me = s.me := by unfold dropShown; dsimp only; split <;> simp
@[simp] theorem dropShown_ft (b : Bool) (p : PosId) : (dropShown b p s).ft = s.ft := by unfold dropShown; dsimp only; split <;> simp
@[simp] theorem dropShown_ru (b : Bool) (p : PosId) : (dropShown b p s).ru = s.ru := by unfold dropShown; dsimp only; split <;> simp
@[simp] theorem dropShown_ld (b : Bool) (p : PosId) : (dropShown b p s).ld = s.ld := by unfold dropShown; dsimp only; split <;> simp
@[simp] theorem dropShown_handed (b : Bool) (p : PosId) : (dropShown b p s).handed = s.handed := by unfold dropShown; dsimp only; split <;> simp
@[simp] theorem dropShown_draws (b : Bool) (p : PosId) : (dropShown b p s).draws = s.draws := by unfold dropShown; dsimp only; split <;> simp
@[simp] theorem dropShown_pending (b : Bool) (p : PosId) : (dropShown b p s).pending = s.pending := by unfold dropShown; dsimp only; split <;> simp
@[simp] theorem dropShown_line (b : Bool) (p : PosId) (m_ : LineId) : (dropShown b p s).line m_ = s.line m_ := by simp only [State.line, dropShown_lc]
@[simp] theorem dropShown_handset (b : Bool) (p : PosId) (h_ : Handset) : (dropShown b p s).handset h_ = s.handset h_ := by simp only [State.handset, dropShown_lc]
@[simp] theorem dropShown_map (b : Bool) (p : PosId) (q_ : PosId) : (dropShown b p s).map q_ = s.map q_ := by simp only [State.map, dropShown_lc]
@[simp] theorem dropShown_appears (b : Bool) (p : PosId) (q_ : PosId) (m_ : LineId) : (dropShown b p s).appears q_ m_ = s.appears q_ m_ := by simp only [State.appears, State.map, dropShown_lc]
@[simp] theorem dropShown_group (b : Bool) (p : PosId) (g_ : GroupId) : (dropShown b p s).group g_ = s.group g_ := by simp only [State.group, dropShown_fc]
@[simp] theorem dropShown_settings (b : Bool) (p : PosId) (q_ : PosId) : (dropShown b p s).settings q_ = s.settings q_ := by simp only [State.settings, dropShown_mp]
@[simp] theorem dropShown_speakers (b : Bool) (p : PosId) (q_ : PosId) : (dropShown b p s).speakers q_ = s.speakers q_ := by simp only [State.speakers, dropShown_mp]
@[simp] theorem dropShown_chan (b : Bool) (p : PosId) (c_ : ChanId) : (dropShown b p s).chan c_ = s.chan c_ := by simp only [State.chan, dropShown_ru]
@[simp] theorem dropShown_now (b : Bool) (p : PosId) : (dropShown b p s).now = s.now := by simp only [State.now, dropShown_ft]
@[simp] theorem dropShown_running (b : Bool) (p : PosId) : (dropShown b p s).running = s.running := by simp only [State.running, dropShown_ld]
@[simp] theorem dropShown_due (b : Bool) (p : PosId) (d_ : Word) : (dropShown b p s).due d_ = s.due d_ := by exact State.due_congr (by simp) _
/-- What `addShown` and `dropShown` leave alone, a move of a presentation set leaves alone. -/
theorem moveShown_keeps {α : Type} (get : State → α) (ha : ∀ b p s, get (addShown b p s) = get s)
    (hd : ∀ b p s, get (dropShown b p s) = get s) (b : Bool) (old new : PosSet) :
    get (moveShown b old new s) = get s := by
  refine foldl_keeps get _ (fun s p => ?_) _ s
  split
  · rfl
  · split <;> simp [ha, hd]

/-! ### `moveShown` -/

@[simp] theorem moveShown_lc (b : Bool) (old new : PosSet) : (moveShown b old new s).lc = s.lc := moveShown_keeps s (·.lc) (by simp) (by simp) ..
@[simp] theorem moveShown_fc (b : Bool) (old new : PosSet) : (moveShown b old new s).fc = s.fc := moveShown_keeps s (·.fc) (by simp) (by simp) ..
@[simp] theorem moveShown_mp (b : Bool) (old new : PosSet) : (moveShown b old new s).mp = s.mp := moveShown_keeps s (·.mp) (by simp) (by simp) ..
@[simp] theorem moveShown_me (b : Bool) (old new : PosSet) : (moveShown b old new s).me = s.me := moveShown_keeps s (·.me) (by simp) (by simp) ..
@[simp] theorem moveShown_ft (b : Bool) (old new : PosSet) : (moveShown b old new s).ft = s.ft := moveShown_keeps s (·.ft) (by simp) (by simp) ..
@[simp] theorem moveShown_ru (b : Bool) (old new : PosSet) : (moveShown b old new s).ru = s.ru := moveShown_keeps s (·.ru) (by simp) (by simp) ..
@[simp] theorem moveShown_ld (b : Bool) (old new : PosSet) : (moveShown b old new s).ld = s.ld := moveShown_keeps s (·.ld) (by simp) (by simp) ..
@[simp] theorem moveShown_handed (b : Bool) (old new : PosSet) : (moveShown b old new s).handed = s.handed := moveShown_keeps s (·.handed) (by simp) (by simp) ..
@[simp] theorem moveShown_draws (b : Bool) (old new : PosSet) : (moveShown b old new s).draws = s.draws := moveShown_keeps s (·.draws) (by simp) (by simp) ..
@[simp] theorem moveShown_pending (b : Bool) (old new : PosSet) : (moveShown b old new s).pending = s.pending := moveShown_keeps s (·.pending) (by simp) (by simp) ..
@[simp] theorem moveShown_line (b : Bool) (old new : PosSet) (m_ : LineId) : (moveShown b old new s).line m_ = s.line m_ := by simp only [State.line, moveShown_lc]
@[simp] theorem moveShown_handset (b : Bool) (old new : PosSet) (h_ : Handset) : (moveShown b old new s).handset h_ = s.handset h_ := by simp only [State.handset, moveShown_lc]
@[simp] theorem moveShown_map (b : Bool) (old new : PosSet) (q_ : PosId) : (moveShown b old new s).map q_ = s.map q_ := by simp only [State.map, moveShown_lc]
@[simp] theorem moveShown_appears (b : Bool) (old new : PosSet) (q_ : PosId) (m_ : LineId) : (moveShown b old new s).appears q_ m_ = s.appears q_ m_ := by simp only [State.appears, State.map, moveShown_lc]
@[simp] theorem moveShown_group (b : Bool) (old new : PosSet) (g_ : GroupId) : (moveShown b old new s).group g_ = s.group g_ := by simp only [State.group, moveShown_fc]
@[simp] theorem moveShown_settings (b : Bool) (old new : PosSet) (q_ : PosId) : (moveShown b old new s).settings q_ = s.settings q_ := by simp only [State.settings, moveShown_mp]
@[simp] theorem moveShown_speakers (b : Bool) (old new : PosSet) (q_ : PosId) : (moveShown b old new s).speakers q_ = s.speakers q_ := by simp only [State.speakers, moveShown_mp]
@[simp] theorem moveShown_chan (b : Bool) (old new : PosSet) (c_ : ChanId) : (moveShown b old new s).chan c_ = s.chan c_ := by simp only [State.chan, moveShown_ru]
@[simp] theorem moveShown_now (b : Bool) (old new : PosSet) : (moveShown b old new s).now = s.now := by simp only [State.now, moveShown_ft]
@[simp] theorem moveShown_running (b : Bool) (old new : PosSet) : (moveShown b old new s).running = s.running := by simp only [State.running, moveShown_ld]
@[simp] theorem moveShown_due (b : Bool) (old new : PosSet) (d_ : Word) : (moveShown b old new s).due d_ = s.due d_ := by exact State.due_congr (by simp) _
/-! ### `startRing` -/

@[simp] theorem startRing_lc (l : LineId) : (startRing l s).lc = s.lc := by simp [startRing]
@[simp] theorem startRing_fc (l : LineId) : (startRing l s).fc = s.fc := by simp [startRing]
@[simp] theorem startRing_mp (l : LineId) : (startRing l s).mp = s.mp := by simp [startRing]
@[simp] theorem startRing_me (l : LineId) : (startRing l s).me = s.me := by simp [startRing]
@[simp] theorem startRing_ft (l : LineId) : (startRing l s).ft = s.ft := by simp [startRing]
@[simp] theorem startRing_ru (l : LineId) : (startRing l s).ru = s.ru := by simp [startRing]
@[simp] theorem startRing_ld (l : LineId) : (startRing l s).ld = s.ld := by simp [startRing]
@[simp] theorem startRing_handed (l : LineId) : (startRing l s).handed = s.handed := by simp [startRing]
@[simp] theorem startRing_draws (l : LineId) : (startRing l s).draws = s.draws := by simp [startRing]
@[simp] theorem startRing_pending (l : LineId) : (startRing l s).pending = s.pending := by simp [startRing]
@[simp] theorem startRing_line (l : LineId) (m_ : LineId) : (startRing l s).line m_ = s.line m_ := by simp only [State.line, startRing_lc]
@[simp] theorem startRing_handset (l : LineId) (h_ : Handset) : (startRing l s).handset h_ = s.handset h_ := by simp only [State.handset, startRing_lc]
@[simp] theorem startRing_map (l : LineId) (q_ : PosId) : (startRing l s).map q_ = s.map q_ := by simp only [State.map, startRing_lc]
@[simp] theorem startRing_appears (l : LineId) (q_ : PosId) (m_ : LineId) : (startRing l s).appears q_ m_ = s.appears q_ m_ := by simp only [State.appears, State.map, startRing_lc]
@[simp] theorem startRing_group (l : LineId) (g_ : GroupId) : (startRing l s).group g_ = s.group g_ := by simp only [State.group, startRing_fc]
@[simp] theorem startRing_settings (l : LineId) (q_ : PosId) : (startRing l s).settings q_ = s.settings q_ := by simp only [State.settings, startRing_mp]
@[simp] theorem startRing_speakers (l : LineId) (q_ : PosId) : (startRing l s).speakers q_ = s.speakers q_ := by simp only [State.speakers, startRing_mp]
@[simp] theorem startRing_chan (l : LineId) (c_ : ChanId) : (startRing l s).chan c_ = s.chan c_ := by simp only [State.chan, startRing_ru]
@[simp] theorem startRing_now (l : LineId) : (startRing l s).now = s.now := by simp only [State.now, startRing_ft]
@[simp] theorem startRing_running (l : LineId) : (startRing l s).running = s.running := by simp only [State.running, startRing_ld]
@[simp] theorem startRing_due (l : LineId) (d_ : Word) : (startRing l s).due d_ = s.due d_ := by exact State.due_congr (by simp) _
/-! ### `startRecall` -/

@[simp] theorem startRecall_lc (l : LineId) (p : PosId) : (startRecall l p s).lc = s.lc := by simp [startRecall]
@[simp] theorem startRecall_fc (l : LineId) (p : PosId) : (startRecall l p s).fc = s.fc := by simp [startRecall]
@[simp] theorem startRecall_mp (l : LineId) (p : PosId) : (startRecall l p s).mp = s.mp := by simp [startRecall]
@[simp] theorem startRecall_me (l : LineId) (p : PosId) : (startRecall l p s).me = s.me := by simp [startRecall]
@[simp] theorem startRecall_ft (l : LineId) (p : PosId) : (startRecall l p s).ft = s.ft := by simp [startRecall]
@[simp] theorem startRecall_ru (l : LineId) (p : PosId) : (startRecall l p s).ru = s.ru := by simp [startRecall]
@[simp] theorem startRecall_ld (l : LineId) (p : PosId) : (startRecall l p s).ld = s.ld := by simp [startRecall]
@[simp] theorem startRecall_handed (l : LineId) (p : PosId) : (startRecall l p s).handed = s.handed := by simp [startRecall]
@[simp] theorem startRecall_draws (l : LineId) (p : PosId) : (startRecall l p s).draws = s.draws := by simp [startRecall]
@[simp] theorem startRecall_pending (l : LineId) (p : PosId) : (startRecall l p s).pending = s.pending := by simp [startRecall]
@[simp] theorem startRecall_line (l : LineId) (p : PosId) (m_ : LineId) : (startRecall l p s).line m_ = s.line m_ := by simp only [State.line, startRecall_lc]
@[simp] theorem startRecall_handset (l : LineId) (p : PosId) (h_ : Handset) : (startRecall l p s).handset h_ = s.handset h_ := by simp only [State.handset, startRecall_lc]
@[simp] theorem startRecall_map (l : LineId) (p : PosId) (q_ : PosId) : (startRecall l p s).map q_ = s.map q_ := by simp only [State.map, startRecall_lc]
@[simp] theorem startRecall_appears (l : LineId) (p : PosId) (q_ : PosId) (m_ : LineId) : (startRecall l p s).appears q_ m_ = s.appears q_ m_ := by simp only [State.appears, State.map, startRecall_lc]
@[simp] theorem startRecall_group (l : LineId) (p : PosId) (g_ : GroupId) : (startRecall l p s).group g_ = s.group g_ := by simp only [State.group, startRecall_fc]
@[simp] theorem startRecall_settings (l : LineId) (p : PosId) (q_ : PosId) : (startRecall l p s).settings q_ = s.settings q_ := by simp only [State.settings, startRecall_mp]
@[simp] theorem startRecall_speakers (l : LineId) (p : PosId) (q_ : PosId) : (startRecall l p s).speakers q_ = s.speakers q_ := by simp only [State.speakers, startRecall_mp]
@[simp] theorem startRecall_chan (l : LineId) (p : PosId) (c_ : ChanId) : (startRecall l p s).chan c_ = s.chan c_ := by simp only [State.chan, startRecall_ru]
@[simp] theorem startRecall_now (l : LineId) (p : PosId) : (startRecall l p s).now = s.now := by simp only [State.now, startRecall_ft]
@[simp] theorem startRecall_running (l : LineId) (p : PosId) : (startRecall l p s).running = s.running := by simp only [State.running, startRecall_ld]
@[simp] theorem startRecall_due (l : LineId) (p : PosId) (d_ : Word) : (startRecall l p s).due d_ = s.due d_ := by exact State.due_congr (by simp) _
/-! ### `endRing` -/

@[simp] theorem endRing_lc (l : LineId) (cause : RingCause) (pos : Option PosId) : (endRing l cause pos s).lc = s.lc := by unfold endRing; split <;> simp
@[simp] theorem endRing_fc (l : LineId) (cause : RingCause) (pos : Option PosId) : (endRing l cause pos s).fc = s.fc := by unfold endRing; split <;> simp
@[simp] theorem endRing_mp (l : LineId) (cause : RingCause) (pos : Option PosId) : (endRing l cause pos s).mp = s.mp := by unfold endRing; split <;> simp
@[simp] theorem endRing_me (l : LineId) (cause : RingCause) (pos : Option PosId) : (endRing l cause pos s).me = s.me := by unfold endRing; split <;> simp
@[simp] theorem endRing_ft (l : LineId) (cause : RingCause) (pos : Option PosId) : (endRing l cause pos s).ft = s.ft := by unfold endRing; split <;> simp
@[simp] theorem endRing_ru (l : LineId) (cause : RingCause) (pos : Option PosId) : (endRing l cause pos s).ru = s.ru := by unfold endRing; split <;> simp
@[simp] theorem endRing_ld (l : LineId) (cause : RingCause) (pos : Option PosId) : (endRing l cause pos s).ld = s.ld := by unfold endRing; split <;> simp
@[simp] theorem endRing_handed (l : LineId) (cause : RingCause) (pos : Option PosId) : (endRing l cause pos s).handed = s.handed := by unfold endRing; split <;> simp
@[simp] theorem endRing_draws (l : LineId) (cause : RingCause) (pos : Option PosId) : (endRing l cause pos s).draws = s.draws := by unfold endRing; split <;> simp
@[simp] theorem endRing_pending (l : LineId) (cause : RingCause) (pos : Option PosId) : (endRing l cause pos s).pending = s.pending := by unfold endRing; split <;> simp
@[simp] theorem endRing_line (l : LineId) (cause : RingCause) (pos : Option PosId) (m_ : LineId) : (endRing l cause pos s).line m_ = s.line m_ := by simp only [State.line, endRing_lc]
@[simp] theorem endRing_handset (l : LineId) (cause : RingCause) (pos : Option PosId) (h_ : Handset) : (endRing l cause pos s).handset h_ = s.handset h_ := by simp only [State.handset, endRing_lc]
@[simp] theorem endRing_map (l : LineId) (cause : RingCause) (pos : Option PosId) (q_ : PosId) : (endRing l cause pos s).map q_ = s.map q_ := by simp only [State.map, endRing_lc]
@[simp] theorem endRing_appears (l : LineId) (cause : RingCause) (pos : Option PosId) (q_ : PosId) (m_ : LineId) : (endRing l cause pos s).appears q_ m_ = s.appears q_ m_ := by simp only [State.appears, State.map, endRing_lc]
@[simp] theorem endRing_group (l : LineId) (cause : RingCause) (pos : Option PosId) (g_ : GroupId) : (endRing l cause pos s).group g_ = s.group g_ := by simp only [State.group, endRing_fc]
@[simp] theorem endRing_settings (l : LineId) (cause : RingCause) (pos : Option PosId) (q_ : PosId) : (endRing l cause pos s).settings q_ = s.settings q_ := by simp only [State.settings, endRing_mp]
@[simp] theorem endRing_speakers (l : LineId) (cause : RingCause) (pos : Option PosId) (q_ : PosId) : (endRing l cause pos s).speakers q_ = s.speakers q_ := by simp only [State.speakers, endRing_mp]
@[simp] theorem endRing_chan (l : LineId) (cause : RingCause) (pos : Option PosId) (c_ : ChanId) : (endRing l cause pos s).chan c_ = s.chan c_ := by simp only [State.chan, endRing_ru]
@[simp] theorem endRing_now (l : LineId) (cause : RingCause) (pos : Option PosId) : (endRing l cause pos s).now = s.now := by simp only [State.now, endRing_ft]
@[simp] theorem endRing_running (l : LineId) (cause : RingCause) (pos : Option PosId) : (endRing l cause pos s).running = s.running := by simp only [State.running, endRing_ld]
@[simp] theorem endRing_due (l : LineId) (cause : RingCause) (pos : Option PosId) (d_ : Word) : (endRing l cause pos s).due d_ = s.due d_ := by exact State.due_congr (by simp) _
/-! ### `widen` -/

@[simp] theorem widen_lc (l : LineId) (reason : PhaseReason) (r : RingRec) : (widen l reason r s).lc = s.lc := by simp [widen]
@[simp] theorem widen_fc (l : LineId) (reason : PhaseReason) (r : RingRec) : (widen l reason r s).fc = s.fc := by simp [widen]
@[simp] theorem widen_mp (l : LineId) (reason : PhaseReason) (r : RingRec) : (widen l reason r s).mp = s.mp := by simp [widen]
@[simp] theorem widen_me (l : LineId) (reason : PhaseReason) (r : RingRec) : (widen l reason r s).me = s.me := by simp [widen]
@[simp] theorem widen_ft (l : LineId) (reason : PhaseReason) (r : RingRec) : (widen l reason r s).ft = s.ft := by simp [widen]
@[simp] theorem widen_ru (l : LineId) (reason : PhaseReason) (r : RingRec) : (widen l reason r s).ru = s.ru := by simp [widen]
@[simp] theorem widen_ld (l : LineId) (reason : PhaseReason) (r : RingRec) : (widen l reason r s).ld = s.ld := by simp [widen]
@[simp] theorem widen_handed (l : LineId) (reason : PhaseReason) (r : RingRec) : (widen l reason r s).handed = s.handed := by simp [widen]
@[simp] theorem widen_draws (l : LineId) (reason : PhaseReason) (r : RingRec) : (widen l reason r s).draws = s.draws := by simp [widen]
@[simp] theorem widen_pending (l : LineId) (reason : PhaseReason) (r : RingRec) : (widen l reason r s).pending = s.pending := by simp [widen]
@[simp] theorem widen_line (l : LineId) (reason : PhaseReason) (r : RingRec) (m_ : LineId) : (widen l reason r s).line m_ = s.line m_ := by simp only [State.line, widen_lc]
@[simp] theorem widen_handset (l : LineId) (reason : PhaseReason) (r : RingRec) (h_ : Handset) : (widen l reason r s).handset h_ = s.handset h_ := by simp only [State.handset, widen_lc]
@[simp] theorem widen_map (l : LineId) (reason : PhaseReason) (r : RingRec) (q_ : PosId) : (widen l reason r s).map q_ = s.map q_ := by simp only [State.map, widen_lc]
@[simp] theorem widen_appears (l : LineId) (reason : PhaseReason) (r : RingRec) (q_ : PosId) (m_ : LineId) : (widen l reason r s).appears q_ m_ = s.appears q_ m_ := by simp only [State.appears, State.map, widen_lc]
@[simp] theorem widen_group (l : LineId) (reason : PhaseReason) (r : RingRec) (g_ : GroupId) : (widen l reason r s).group g_ = s.group g_ := by simp only [State.group, widen_fc]
@[simp] theorem widen_settings (l : LineId) (reason : PhaseReason) (r : RingRec) (q_ : PosId) : (widen l reason r s).settings q_ = s.settings q_ := by simp only [State.settings, widen_mp]
@[simp] theorem widen_speakers (l : LineId) (reason : PhaseReason) (r : RingRec) (q_ : PosId) : (widen l reason r s).speakers q_ = s.speakers q_ := by simp only [State.speakers, widen_mp]
@[simp] theorem widen_chan (l : LineId) (reason : PhaseReason) (r : RingRec) (c_ : ChanId) : (widen l reason r s).chan c_ = s.chan c_ := by simp only [State.chan, widen_ru]
@[simp] theorem widen_now (l : LineId) (reason : PhaseReason) (r : RingRec) : (widen l reason r s).now = s.now := by simp only [State.now, widen_ft]
@[simp] theorem widen_running (l : LineId) (reason : PhaseReason) (r : RingRec) : (widen l reason r s).running = s.running := by simp only [State.running, widen_ld]
@[simp] theorem widen_due (l : LineId) (reason : PhaseReason) (r : RingRec) (d_ : Word) : (widen l reason r s).due d_ = s.due d_ := by exact State.due_congr (by simp) _
/-! ### `lineRemoved` -/

@[simp] theorem lineRemoved_lc (p : PosId) (l : LineId) : (lineRemoved p l s).lc = s.lc := by unfold lineRemoved; split <;> [rfl; (split <;> [(split <;> simp); (split <;> simp); rfl])]
@[simp] theorem lineRemoved_fc (p : PosId) (l : LineId) : (lineRemoved p l s).fc = s.fc := by unfold lineRemoved; split <;> [rfl; (split <;> [(split <;> simp); (split <;> simp); rfl])]
@[simp] theorem lineRemoved_mp (p : PosId) (l : LineId) : (lineRemoved p l s).mp = s.mp := by unfold lineRemoved; split <;> [rfl; (split <;> [(split <;> simp); (split <;> simp); rfl])]
@[simp] theorem lineRemoved_me (p : PosId) (l : LineId) : (lineRemoved p l s).me = s.me := by unfold lineRemoved; split <;> [rfl; (split <;> [(split <;> simp); (split <;> simp); rfl])]
@[simp] theorem lineRemoved_ft (p : PosId) (l : LineId) : (lineRemoved p l s).ft = s.ft := by unfold lineRemoved; split <;> [rfl; (split <;> [(split <;> simp); (split <;> simp); rfl])]
@[simp] theorem lineRemoved_ru (p : PosId) (l : LineId) : (lineRemoved p l s).ru = s.ru := by unfold lineRemoved; split <;> [rfl; (split <;> [(split <;> simp); (split <;> simp); rfl])]
@[simp] theorem lineRemoved_ld (p : PosId) (l : LineId) : (lineRemoved p l s).ld = s.ld := by unfold lineRemoved; split <;> [rfl; (split <;> [(split <;> simp); (split <;> simp); rfl])]
@[simp] theorem lineRemoved_handed (p : PosId) (l : LineId) : (lineRemoved p l s).handed = s.handed := by unfold lineRemoved; split <;> [rfl; (split <;> [(split <;> simp); (split <;> simp); rfl])]
@[simp] theorem lineRemoved_draws (p : PosId) (l : LineId) : (lineRemoved p l s).draws = s.draws := by unfold lineRemoved; split <;> [rfl; (split <;> [(split <;> simp); (split <;> simp); rfl])]
@[simp] theorem lineRemoved_pending (p : PosId) (l : LineId) : (lineRemoved p l s).pending = s.pending := by unfold lineRemoved; split <;> [rfl; (split <;> [(split <;> simp); (split <;> simp); rfl])]
@[simp] theorem lineRemoved_line (p : PosId) (l : LineId) (m_ : LineId) : (lineRemoved p l s).line m_ = s.line m_ := by simp only [State.line, lineRemoved_lc]
@[simp] theorem lineRemoved_handset (p : PosId) (l : LineId) (h_ : Handset) : (lineRemoved p l s).handset h_ = s.handset h_ := by simp only [State.handset, lineRemoved_lc]
@[simp] theorem lineRemoved_map (p : PosId) (l : LineId) (q_ : PosId) : (lineRemoved p l s).map q_ = s.map q_ := by simp only [State.map, lineRemoved_lc]
@[simp] theorem lineRemoved_appears (p : PosId) (l : LineId) (q_ : PosId) (m_ : LineId) : (lineRemoved p l s).appears q_ m_ = s.appears q_ m_ := by simp only [State.appears, State.map, lineRemoved_lc]
@[simp] theorem lineRemoved_group (p : PosId) (l : LineId) (g_ : GroupId) : (lineRemoved p l s).group g_ = s.group g_ := by simp only [State.group, lineRemoved_fc]
@[simp] theorem lineRemoved_settings (p : PosId) (l : LineId) (q_ : PosId) : (lineRemoved p l s).settings q_ = s.settings q_ := by simp only [State.settings, lineRemoved_mp]
@[simp] theorem lineRemoved_speakers (p : PosId) (l : LineId) (q_ : PosId) : (lineRemoved p l s).speakers q_ = s.speakers q_ := by simp only [State.speakers, lineRemoved_mp]
@[simp] theorem lineRemoved_chan (p : PosId) (l : LineId) (c_ : ChanId) : (lineRemoved p l s).chan c_ = s.chan c_ := by simp only [State.chan, lineRemoved_ru]
@[simp] theorem lineRemoved_now (p : PosId) (l : LineId) : (lineRemoved p l s).now = s.now := by simp only [State.now, lineRemoved_ft]
@[simp] theorem lineRemoved_running (p : PosId) (l : LineId) : (lineRemoved p l s).running = s.running := by simp only [State.running, lineRemoved_ld]
@[simp] theorem lineRemoved_due (p : PosId) (l : LineId) (d_ : Word) : (lineRemoved p l s).due d_ = s.due d_ := by exact State.due_congr (by simp) _
/-! ### `lineAdded` -/

@[simp] theorem lineAdded_lc (p : PosId) (l : LineId) : (lineAdded p l s).lc = s.lc := by unfold lineAdded; split <;> [rfl; (split <;> [(split <;> simp); rfl; rfl])]
@[simp] theorem lineAdded_fc (p : PosId) (l : LineId) : (lineAdded p l s).fc = s.fc := by unfold lineAdded; split <;> [rfl; (split <;> [(split <;> simp); rfl; rfl])]
@[simp] theorem lineAdded_mp (p : PosId) (l : LineId) : (lineAdded p l s).mp = s.mp := by unfold lineAdded; split <;> [rfl; (split <;> [(split <;> simp); rfl; rfl])]
@[simp] theorem lineAdded_me (p : PosId) (l : LineId) : (lineAdded p l s).me = s.me := by unfold lineAdded; split <;> [rfl; (split <;> [(split <;> simp); rfl; rfl])]
@[simp] theorem lineAdded_ft (p : PosId) (l : LineId) : (lineAdded p l s).ft = s.ft := by unfold lineAdded; split <;> [rfl; (split <;> [(split <;> simp); rfl; rfl])]
@[simp] theorem lineAdded_ru (p : PosId) (l : LineId) : (lineAdded p l s).ru = s.ru := by unfold lineAdded; split <;> [rfl; (split <;> [(split <;> simp); rfl; rfl])]
@[simp] theorem lineAdded_ld (p : PosId) (l : LineId) : (lineAdded p l s).ld = s.ld := by unfold lineAdded; split <;> [rfl; (split <;> [(split <;> simp); rfl; rfl])]
@[simp] theorem lineAdded_handed (p : PosId) (l : LineId) : (lineAdded p l s).handed = s.handed := by unfold lineAdded; split <;> [rfl; (split <;> [(split <;> simp); rfl; rfl])]
@[simp] theorem lineAdded_draws (p : PosId) (l : LineId) : (lineAdded p l s).draws = s.draws := by unfold lineAdded; split <;> [rfl; (split <;> [(split <;> simp); rfl; rfl])]
@[simp] theorem lineAdded_pending (p : PosId) (l : LineId) : (lineAdded p l s).pending = s.pending := by unfold lineAdded; split <;> [rfl; (split <;> [(split <;> simp); rfl; rfl])]
@[simp] theorem lineAdded_line (p : PosId) (l : LineId) (m_ : LineId) : (lineAdded p l s).line m_ = s.line m_ := by simp only [State.line, lineAdded_lc]
@[simp] theorem lineAdded_handset (p : PosId) (l : LineId) (h_ : Handset) : (lineAdded p l s).handset h_ = s.handset h_ := by simp only [State.handset, lineAdded_lc]
@[simp] theorem lineAdded_map (p : PosId) (l : LineId) (q_ : PosId) : (lineAdded p l s).map q_ = s.map q_ := by simp only [State.map, lineAdded_lc]
@[simp] theorem lineAdded_appears (p : PosId) (l : LineId) (q_ : PosId) (m_ : LineId) : (lineAdded p l s).appears q_ m_ = s.appears q_ m_ := by simp only [State.appears, State.map, lineAdded_lc]
@[simp] theorem lineAdded_group (p : PosId) (l : LineId) (g_ : GroupId) : (lineAdded p l s).group g_ = s.group g_ := by simp only [State.group, lineAdded_fc]
@[simp] theorem lineAdded_settings (p : PosId) (l : LineId) (q_ : PosId) : (lineAdded p l s).settings q_ = s.settings q_ := by simp only [State.settings, lineAdded_mp]
@[simp] theorem lineAdded_speakers (p : PosId) (l : LineId) (q_ : PosId) : (lineAdded p l s).speakers q_ = s.speakers q_ := by simp only [State.speakers, lineAdded_mp]
@[simp] theorem lineAdded_chan (p : PosId) (l : LineId) (c_ : ChanId) : (lineAdded p l s).chan c_ = s.chan c_ := by simp only [State.chan, lineAdded_ru]
@[simp] theorem lineAdded_now (p : PosId) (l : LineId) : (lineAdded p l s).now = s.now := by simp only [State.now, lineAdded_ft]
@[simp] theorem lineAdded_running (p : PosId) (l : LineId) : (lineAdded p l s).running = s.running := by simp only [State.running, lineAdded_ld]
@[simp] theorem lineAdded_due (p : PosId) (l : LineId) (d_ : Word) : (lineAdded p l s).due d_ = s.due d_ := by exact State.due_congr (by simp) _

end Sys2Proof.Machine
end

