-- ==== Sys2Proof/Laws/Lines.lean ====
section
/-! SUPPORT. What the Line Controller's and the Talk Floor Controller's steps leave of the state. -/

namespace Sys2Proof.Machine

variable (s : State)

/-! ### `markControl` -/

@[simp] theorem markControl_rc (l : LineId) : (markControl l s).rc = s.rc := by unfold markControl; split <;> simp
@[simp] theorem markControl_fc (l : LineId) : (markControl l s).fc = s.fc := by unfold markControl; split <;> simp
@[simp] theorem markControl_mp (l : LineId) : (markControl l s).mp = s.mp := by unfold markControl; split <;> simp
@[simp] theorem markControl_me (l : LineId) : (markControl l s).me = s.me := by unfold markControl; split <;> simp
@[simp] theorem markControl_ft (l : LineId) : (markControl l s).ft = s.ft := by unfold markControl; split <;> simp
@[simp] theorem markControl_ru (l : LineId) : (markControl l s).ru = s.ru := by unfold markControl; split <;> simp
@[simp] theorem markControl_cu (l : LineId) : (markControl l s).cu = s.cu := by unfold markControl; split <;> simp
@[simp] theorem markControl_ld (l : LineId) : (markControl l s).ld = s.ld := by unfold markControl; split <;> simp
@[simp] theorem markControl_handed (l : LineId) : (markControl l s).handed = s.handed := by unfold markControl; split <;> simp
@[simp] theorem markControl_draws (l : LineId) : (markControl l s).draws = s.draws := by unfold markControl; split <;> simp
@[simp] theorem markControl_pending (l : LineId) : (markControl l s).pending = s.pending := by unfold markControl; split <;> simp
@[simp] theorem markControl_handset (l : LineId) (h_ : Handset) : (markControl l s).handset h_ = s.handset h_ := by unfold markControl; split <;> simp
@[simp] theorem markControl_map (l : LineId) (q_ : PosId) : (markControl l s).map q_ = s.map q_ := by unfold markControl; split <;> simp
@[simp] theorem markControl_appears (l : LineId) (q_ : PosId) (m_ : LineId) : (markControl l s).appears q_ m_ = s.appears q_ m_ := by unfold markControl; split <;> simp
@[simp] theorem markControl_ring (l : LineId) (m_ : LineId) : (markControl l s).ring m_ = s.ring m_ := by simp only [State.ring, markControl_rc]
@[simp] theorem markControl_posRing (l : LineId) (q_ : PosId) : (markControl l s).posRing q_ = s.posRing q_ := by simp only [State.posRing, markControl_rc]
@[simp] theorem markControl_group (l : LineId) (g_ : GroupId) : (markControl l s).group g_ = s.group g_ := by simp only [State.group, markControl_fc]
@[simp] theorem markControl_settings (l : LineId) (q_ : PosId) : (markControl l s).settings q_ = s.settings q_ := by simp only [State.settings, markControl_mp]
@[simp] theorem markControl_speakers (l : LineId) (q_ : PosId) : (markControl l s).speakers q_ = s.speakers q_ := by simp only [State.speakers, markControl_mp]
@[simp] theorem markControl_chan (l : LineId) (c_ : ChanId) : (markControl l s).chan c_ = s.chan c_ := by simp only [State.chan, markControl_ru]
@[simp] theorem markControl_now (l : LineId) : (markControl l s).now = s.now := by simp only [State.now, markControl_ft]
@[simp] theorem markControl_running (l : LineId) : (markControl l s).running = s.running := by simp only [State.running, markControl_ld]
@[simp] theorem markControl_due (l : LineId) (d_ : Word) : (markControl l s).due d_ = s.due d_ := by exact State.due_congr (by simp) _
/-! ### `setLineState` -/

@[simp] theorem setLineState_rc (l : LineId) (st : LineState) (cause : LineCause) : (setLineState l st cause s).rc = s.rc := by unfold setLineState; dsimp only; split <;> simp
@[simp] theorem setLineState_fc (l : LineId) (st : LineState) (cause : LineCause) : (setLineState l st cause s).fc = s.fc := by unfold setLineState; dsimp only; split <;> simp
@[simp] theorem setLineState_mp (l : LineId) (st : LineState) (cause : LineCause) : (setLineState l st cause s).mp = s.mp := by unfold setLineState; dsimp only; split <;> simp
@[simp] theorem setLineState_me (l : LineId) (st : LineState) (cause : LineCause) : (setLineState l st cause s).me = s.me := by unfold setLineState; dsimp only; split <;> simp
@[simp] theorem setLineState_ft (l : LineId) (st : LineState) (cause : LineCause) : (setLineState l st cause s).ft = s.ft := by unfold setLineState; dsimp only; split <;> simp
@[simp] theorem setLineState_ru (l : LineId) (st : LineState) (cause : LineCause) : (setLineState l st cause s).ru = s.ru := by unfold setLineState; dsimp only; split <;> simp
@[simp] theorem setLineState_ld (l : LineId) (st : LineState) (cause : LineCause) : (setLineState l st cause s).ld = s.ld := by unfold setLineState; dsimp only; split <;> simp
@[simp] theorem setLineState_handed (l : LineId) (st : LineState) (cause : LineCause) : (setLineState l st cause s).handed = s.handed := by unfold setLineState; dsimp only; split <;> simp
@[simp] theorem setLineState_draws (l : LineId) (st : LineState) (cause : LineCause) : (setLineState l st cause s).draws = s.draws := by unfold setLineState; dsimp only; split <;> simp
@[simp] theorem setLineState_pending (l : LineId) (st : LineState) (cause : LineCause) : (setLineState l st cause s).pending = s.pending := by unfold setLineState; dsimp only; split <;> simp
@[simp] theorem setLineState_handset (l : LineId) (st : LineState) (cause : LineCause) (h_ : Handset) : (setLineState l st cause s).handset h_ = s.handset h_ := by unfold setLineState; dsimp only; split <;> simp
@[simp] theorem setLineState_map (l : LineId) (st : LineState) (cause : LineCause) (q_ : PosId) : (setLineState l st cause s).map q_ = s.map q_ := by unfold setLineState; dsimp only; split <;> simp
@[simp] theorem setLineState_appears (l : LineId) (st : LineState) (cause : LineCause) (q_ : PosId) (m_ : LineId) : (setLineState l st cause s).appears q_ m_ = s.appears q_ m_ := by unfold setLineState; dsimp only; split <;> simp
@[simp] theorem setLineState_ring (l : LineId) (st : LineState) (cause : LineCause) (m_ : LineId) : (setLineState l st cause s).ring m_ = s.ring m_ := by simp only [State.ring, setLineState_rc]
@[simp] theorem setLineState_posRing (l : LineId) (st : LineState) (cause : LineCause) (q_ : PosId) : (setLineState l st cause s).posRing q_ = s.posRing q_ := by simp only [State.posRing, setLineState_rc]
@[simp] theorem setLineState_group (l : LineId) (st : LineState) (cause : LineCause) (g_ : GroupId) : (setLineState l st cause s).group g_ = s.group g_ := by simp only [State.group, setLineState_fc]
@[simp] theorem setLineState_settings (l : LineId) (st : LineState) (cause : LineCause) (q_ : PosId) : (setLineState l st cause s).settings q_ = s.settings q_ := by simp only [State.settings, setLineState_mp]
@[simp] theorem setLineState_speakers (l : LineId) (st : LineState) (cause : LineCause) (q_ : PosId) : (setLineState l st cause s).speakers q_ = s.speakers q_ := by simp only [State.speakers, setLineState_mp]
@[simp] theorem setLineState_chan (l : LineId) (st : LineState) (cause : LineCause) (c_ : ChanId) : (setLineState l st cause s).chan c_ = s.chan c_ := by simp only [State.chan, setLineState_ru]
@[simp] theorem setLineState_now (l : LineId) (st : LineState) (cause : LineCause) : (setLineState l st cause s).now = s.now := by simp only [State.now, setLineState_ft]
@[simp] theorem setLineState_running (l : LineId) (st : LineState) (cause : LineCause) : (setLineState l st cause s).running = s.running := by simp only [State.running, setLineState_ld]
@[simp] theorem setLineState_due (l : LineId) (st : LineState) (cause : LineCause) (d_ : Word) : (setLineState l st cause s).due d_ = s.due d_ := by exact State.due_congr (by simp) _
/-! ### `enterRinging` -/

@[simp] theorem enterRinging_fc (l : LineId) : (enterRinging l s).fc = s.fc := by simp [enterRinging]
@[simp] theorem enterRinging_mp (l : LineId) : (enterRinging l s).mp = s.mp := by simp [enterRinging]
@[simp] theorem enterRinging_me (l : LineId) : (enterRinging l s).me = s.me := by simp [enterRinging]
@[simp] theorem enterRinging_ft (l : LineId) : (enterRinging l s).ft = s.ft := by simp [enterRinging]
@[simp] theorem enterRinging_ru (l : LineId) : (enterRinging l s).ru = s.ru := by simp [enterRinging]
@[simp] theorem enterRinging_ld (l : LineId) : (enterRinging l s).ld = s.ld := by simp [enterRinging]
@[simp] theorem enterRinging_handed (l : LineId) : (enterRinging l s).handed = s.handed := by simp [enterRinging]
@[simp] theorem enterRinging_draws (l : LineId) : (enterRinging l s).draws = s.draws := by simp [enterRinging]
@[simp] theorem enterRinging_pending (l : LineId) : (enterRinging l s).pending = s.pending := by simp [enterRinging]
@[simp] theorem enterRinging_handset (l : LineId) (h_ : Handset) : (enterRinging l s).handset h_ = s.handset h_ := by simp [enterRinging]
@[simp] theorem enterRinging_map (l : LineId) (q_ : PosId) : (enterRinging l s).map q_ = s.map q_ := by simp [enterRinging]
@[simp] theorem enterRinging_appears (l : LineId) (q_ : PosId) (m_ : LineId) : (enterRinging l s).appears q_ m_ = s.appears q_ m_ := by simp [enterRinging]
@[simp] theorem enterRinging_group (l : LineId) (g_ : GroupId) : (enterRinging l s).group g_ = s.group g_ := by simp only [State.group, enterRinging_fc]
@[simp] theorem enterRinging_settings (l : LineId) (q_ : PosId) : (enterRinging l s).settings q_ = s.settings q_ := by simp only [State.settings, enterRinging_mp]
@[simp] theorem enterRinging_speakers (l : LineId) (q_ : PosId) : (enterRinging l s).speakers q_ = s.speakers q_ := by simp only [State.speakers, enterRinging_mp]
@[simp] theorem enterRinging_chan (l : LineId) (c_ : ChanId) : (enterRinging l s).chan c_ = s.chan c_ := by simp only [State.chan, enterRinging_ru]
@[simp] theorem enterRinging_now (l : LineId) : (enterRinging l s).now = s.now := by simp only [State.now, enterRinging_ft]
@[simp] theorem enterRinging_running (l : LineId) : (enterRinging l s).running = s.running := by simp only [State.running, enterRinging_ld]
@[simp] theorem enterRinging_due (l : LineId) (d_ : Word) : (enterRinging l s).due d_ = s.due d_ := by exact State.due_congr (by simp) _
/-! ### `levelRule` -/

@[simp] theorem levelRule_fc (l : LineId) : (levelRule l s).fc = s.fc := by unfold levelRule; dsimp only; split <;> simp
@[simp] theorem levelRule_mp (l : LineId) : (levelRule l s).mp = s.mp := by unfold levelRule; dsimp only; split <;> simp
@[simp] theorem levelRule_me (l : LineId) : (levelRule l s).me = s.me := by unfold levelRule; dsimp only; split <;> simp
@[simp] theorem levelRule_ft (l : LineId) : (levelRule l s).ft = s.ft := by unfold levelRule; dsimp only; split <;> simp
@[simp] theorem levelRule_ru (l : LineId) : (levelRule l s).ru = s.ru := by unfold levelRule; dsimp only; split <;> simp
@[simp] theorem levelRule_ld (l : LineId) : (levelRule l s).ld = s.ld := by unfold levelRule; dsimp only; split <;> simp
@[simp] theorem levelRule_handed (l : LineId) : (levelRule l s).handed = s.handed := by unfold levelRule; dsimp only; split <;> simp
@[simp] theorem levelRule_draws (l : LineId) : (levelRule l s).draws = s.draws := by unfold levelRule; dsimp only; split <;> simp
@[simp] theorem levelRule_pending (l : LineId) : (levelRule l s).pending = s.pending := by unfold levelRule; dsimp only; split <;> simp
@[simp] theorem levelRule_handset (l : LineId) (h_ : Handset) : (levelRule l s).handset h_ = s.handset h_ := by unfold levelRule; dsimp only; split <;> simp
@[simp] theorem levelRule_map (l : LineId) (q_ : PosId) : (levelRule l s).map q_ = s.map q_ := by unfold levelRule; dsimp only; split <;> simp
@[simp] theorem levelRule_appears (l : LineId) (q_ : PosId) (m_ : LineId) : (levelRule l s).appears q_ m_ = s.appears q_ m_ := by unfold levelRule; dsimp only; split <;> simp
@[simp] theorem levelRule_group (l : LineId) (g_ : GroupId) : (levelRule l s).group g_ = s.group g_ := by simp only [State.group, levelRule_fc]
@[simp] theorem levelRule_settings (l : LineId) (q_ : PosId) : (levelRule l s).settings q_ = s.settings q_ := by simp only [State.settings, levelRule_mp]
@[simp] theorem levelRule_speakers (l : LineId) (q_ : PosId) : (levelRule l s).speakers q_ = s.speakers q_ := by simp only [State.speakers, levelRule_mp]
@[simp] theorem levelRule_chan (l : LineId) (c_ : ChanId) : (levelRule l s).chan c_ = s.chan c_ := by simp only [State.chan, levelRule_ru]
@[simp] theorem levelRule_now (l : LineId) : (levelRule l s).now = s.now := by simp only [State.now, levelRule_ft]
@[simp] theorem levelRule_running (l : LineId) : (levelRule l s).running = s.running := by simp only [State.running, levelRule_ld]
@[simp] theorem levelRule_due (l : LineId) (d_ : Word) : (levelRule l s).due d_ = s.due d_ := by exact State.due_congr (by simp) _
/-! ### `endLineSession` -/

@[simp] theorem endLineSession_rc (l : LineId) (cause : SessionCause) : (endLineSession l cause s).rc = s.rc := by unfold endLineSession; split <;> simp
@[simp] theorem endLineSession_fc (l : LineId) (cause : SessionCause) : (endLineSession l cause s).fc = s.fc := by unfold endLineSession; split <;> simp
@[simp] theorem endLineSession_mp (l : LineId) (cause : SessionCause) : (endLineSession l cause s).mp = s.mp := by unfold endLineSession; split <;> simp
@[simp] theorem endLineSession_me (l : LineId) (cause : SessionCause) : (endLineSession l cause s).me = s.me := by unfold endLineSession; split <;> simp
@[simp] theorem endLineSession_pu (l : LineId) (cause : SessionCause) : (endLineSession l cause s).pu = s.pu := by unfold endLineSession; split <;> simp
@[simp] theorem endLineSession_ft (l : LineId) (cause : SessionCause) : (endLineSession l cause s).ft = s.ft := by unfold endLineSession; split <;> simp
@[simp] theorem endLineSession_cu (l : LineId) (cause : SessionCause) : (endLineSession l cause s).cu = s.cu := by unfold endLineSession; split <;> simp
@[simp] theorem endLineSession_ld (l : LineId) (cause : SessionCause) : (endLineSession l cause s).ld = s.ld := by unfold endLineSession; split <;> simp
@[simp] theorem endLineSession_handed (l : LineId) (cause : SessionCause) : (endLineSession l cause s).handed = s.handed := by unfold endLineSession; split <;> simp
@[simp] theorem endLineSession_draws (l : LineId) (cause : SessionCause) : (endLineSession l cause s).draws = s.draws := by unfold endLineSession; split <;> simp
@[simp] theorem endLineSession_pending (l : LineId) (cause : SessionCause) : (endLineSession l cause s).pending = s.pending := by unfold endLineSession; split <;> simp
@[simp] theorem endLineSession_handset (l : LineId) (cause : SessionCause) (h_ : Handset) : (endLineSession l cause s).handset h_ = s.handset h_ := by unfold endLineSession; split <;> simp
@[simp] theorem endLineSession_map (l : LineId) (cause : SessionCause) (q_ : PosId) : (endLineSession l cause s).map q_ = s.map q_ := by unfold endLineSession; split <;> simp
@[simp] theorem endLineSession_appears (l : LineId) (cause : SessionCause) (q_ : PosId) (m_ : LineId) : (endLineSession l cause s).appears q_ m_ = s.appears q_ m_ := by unfold endLineSession; split <;> simp
@[simp] theorem endLineSession_ring (l : LineId) (cause : SessionCause) (m_ : LineId) : (endLineSession l cause s).ring m_ = s.ring m_ := by simp only [State.ring, endLineSession_rc]
@[simp] theorem endLineSession_posRing (l : LineId) (cause : SessionCause) (q_ : PosId) : (endLineSession l cause s).posRing q_ = s.posRing q_ := by simp only [State.posRing, endLineSession_rc]
@[simp] theorem endLineSession_group (l : LineId) (cause : SessionCause) (g_ : GroupId) : (endLineSession l cause s).group g_ = s.group g_ := by simp only [State.group, endLineSession_fc]
@[simp] theorem endLineSession_settings (l : LineId) (cause : SessionCause) (q_ : PosId) : (endLineSession l cause s).settings q_ = s.settings q_ := by simp only [State.settings, endLineSession_mp]
@[simp] theorem endLineSession_speakers (l : LineId) (cause : SessionCause) (q_ : PosId) : (endLineSession l cause s).speakers q_ = s.speakers q_ := by simp only [State.speakers, endLineSession_mp]
@[simp] theorem endLineSession_now (l : LineId) (cause : SessionCause) : (endLineSession l cause s).now = s.now := by simp only [State.now, endLineSession_ft]
@[simp] theorem endLineSession_running (l : LineId) (cause : SessionCause) : (endLineSession l cause s).running = s.running := by simp only [State.running, endLineSession_ld]
@[simp] theorem endLineSession_due (l : LineId) (cause : SessionCause) (d_ : Word) : (endLineSession l cause s).due d_ = s.due d_ := by exact State.due_congr (by simp) _
/-- Freeing the owners of a line touches their bindings alone. -/
theorem freeOwners_keeps {α : Type} (get : State → α) (h : ∀ k s, get (freeHandset k s) = get s) (ks : List Handset) :
    get (ks.foldl (fun s k => freeHandset k s) s) = get s := foldl_keeps get _ (fun s k => h k s) ks s

/-! ### `clearLine` -/

@[simp] theorem clearLine_fc (l : LineId) (cause : LineCause) (st : LineState) : (clearLine l cause st s).fc = s.fc := by
  unfold clearLine; dsimp only; split <;> simp [freeOwners_keeps _ (·.fc) (fun _ _ => rfl)]
@[simp] theorem clearLine_mp (l : LineId) (cause : LineCause) (st : LineState) : (clearLine l cause st s).mp = s.mp := by
  unfold clearLine; dsimp only; split <;> simp [freeOwners_keeps _ (·.mp) (fun _ _ => rfl)]
@[simp] theorem clearLine_me (l : LineId) (cause : LineCause) (st : LineState) : (clearLine l cause st s).me = s.me := by
  unfold clearLine; dsimp only; split <;> simp [freeOwners_keeps _ (·.me) (fun _ _ => rfl)]
@[simp] theorem clearLine_ft (l : LineId) (cause : LineCause) (st : LineState) : (clearLine l cause st s).ft = s.ft := by
  unfold clearLine; dsimp only; split <;> simp [freeOwners_keeps _ (·.ft) (fun _ _ => rfl)]
@[simp] theorem clearLine_ld (l : LineId) (cause : LineCause) (st : LineState) : (clearLine l cause st s).ld = s.ld := by
  unfold clearLine; dsimp only; split <;> simp [freeOwners_keeps _ (·.ld) (fun _ _ => rfl)]
@[simp] theorem clearLine_handed (l : LineId) (cause : LineCause) (st : LineState) : (clearLine l cause st s).handed = s.handed := by
  unfold clearLine; dsimp only; split <;> simp [freeOwners_keeps _ (·.handed) (fun _ _ => rfl)]
@[simp] theorem clearLine_draws (l : LineId) (cause : LineCause) (st : LineState) : (clearLine l cause st s).draws = s.draws := by
  unfold clearLine; dsimp only; split <;> simp [freeOwners_keeps _ (·.draws) (fun _ _ => rfl)]
@[simp] theorem clearLine_pending (l : LineId) (cause : LineCause) (st : LineState) : (clearLine l cause st s).pending = s.pending := by
  unfold clearLine; dsimp only; split <;> simp [freeOwners_keeps _ (·.pending) (fun _ _ => rfl)]
@[simp] theorem clearLine_group (l : LineId) (cause : LineCause) (st : LineState) (g_ : GroupId) : (clearLine l cause st s).group g_ = s.group g_ := by simp only [State.group, clearLine_fc]
@[simp] theorem clearLine_settings (l : LineId) (cause : LineCause) (st : LineState) (q_ : PosId) : (clearLine l cause st s).settings q_ = s.settings q_ := by simp only [State.settings, clearLine_mp]
@[simp] theorem clearLine_speakers (l : LineId) (cause : LineCause) (st : LineState) (q_ : PosId) : (clearLine l cause st s).speakers q_ = s.speakers q_ := by simp only [State.speakers, clearLine_mp]
@[simp] theorem clearLine_now (l : LineId) (cause : LineCause) (st : LineState) : (clearLine l cause st s).now = s.now := by simp only [State.now, clearLine_ft]
@[simp] theorem clearLine_running (l : LineId) (cause : LineCause) (st : LineState) : (clearLine l cause st s).running = s.running := by simp only [State.running, clearLine_ld]
@[simp] theorem clearLine_due (l : LineId) (cause : LineCause) (st : LineState) (d_ : Word) : (clearLine l cause st s).due d_ = s.due d_ := by exact State.due_congr (by simp) _
/-! ### `endGroupSession` -/

@[simp] theorem endGroupSession_lc (g : GroupId) (cause : SessionCause) : (endGroupSession g cause s).lc = s.lc := by unfold endGroupSession; split <;> simp
@[simp] theorem endGroupSession_rc (g : GroupId) (cause : SessionCause) : (endGroupSession g cause s).rc = s.rc := by unfold endGroupSession; split <;> simp
@[simp] theorem endGroupSession_mp (g : GroupId) (cause : SessionCause) : (endGroupSession g cause s).mp = s.mp := by unfold endGroupSession; split <;> simp
@[simp] theorem endGroupSession_me (g : GroupId) (cause : SessionCause) : (endGroupSession g cause s).me = s.me := by unfold endGroupSession; split <;> simp
@[simp] theorem endGroupSession_pu (g : GroupId) (cause : SessionCause) : (endGroupSession g cause s).pu = s.pu := by unfold endGroupSession; split <;> simp
@[simp] theorem endGroupSession_ft (g : GroupId) (cause : SessionCause) : (endGroupSession g cause s).ft = s.ft := by unfold endGroupSession; split <;> simp
@[simp] theorem endGroupSession_cu (g : GroupId) (cause : SessionCause) : (endGroupSession g cause s).cu = s.cu := by unfold endGroupSession; split <;> simp
@[simp] theorem endGroupSession_ld (g : GroupId) (cause : SessionCause) : (endGroupSession g cause s).ld = s.ld := by unfold endGroupSession; split <;> simp
@[simp] theorem endGroupSession_handed (g : GroupId) (cause : SessionCause) : (endGroupSession g cause s).handed = s.handed := by unfold endGroupSession; split <;> simp
@[simp] theorem endGroupSession_draws (g : GroupId) (cause : SessionCause) : (endGroupSession g cause s).draws = s.draws := by unfold endGroupSession; split <;> simp
@[simp] theorem endGroupSession_pending (g : GroupId) (cause : SessionCause) : (endGroupSession g cause s).pending = s.pending := by unfold endGroupSession; split <;> simp
@[simp] theorem endGroupSession_line (g : GroupId) (cause : SessionCause) (m_ : LineId) : (endGroupSession g cause s).line m_ = s.line m_ := by simp only [State.line, endGroupSession_lc]
@[simp] theorem endGroupSession_handset (g : GroupId) (cause : SessionCause) (h_ : Handset) : (endGroupSession g cause s).handset h_ = s.handset h_ := by simp only [State.handset, endGroupSession_lc]
@[simp] theorem endGroupSession_map (g : GroupId) (cause : SessionCause) (q_ : PosId) : (endGroupSession g cause s).map q_ = s.map q_ := by simp only [State.map, endGroupSession_lc]
@[simp] theorem endGroupSession_appears (g : GroupId) (cause : SessionCause) (q_ : PosId) (m_ : LineId) : (endGroupSession g cause s).appears q_ m_ = s.appears q_ m_ := by simp only [State.appears, State.map, endGroupSession_lc]
@[simp] theorem endGroupSession_ring (g : GroupId) (cause : SessionCause) (m_ : LineId) : (endGroupSession g cause s).ring m_ = s.ring m_ := by simp only [State.ring, endGroupSession_rc]
@[simp] theorem endGroupSession_posRing (g : GroupId) (cause : SessionCause) (q_ : PosId) : (endGroupSession g cause s).posRing q_ = s.posRing q_ := by simp only [State.posRing, endGroupSession_rc]
@[simp] theorem endGroupSession_settings (g : GroupId) (cause : SessionCause) (q_ : PosId) : (endGroupSession g cause s).settings q_ = s.settings q_ := by simp only [State.settings, endGroupSession_mp]
@[simp] theorem endGroupSession_speakers (g : GroupId) (cause : SessionCause) (q_ : PosId) : (endGroupSession g cause s).speakers q_ = s.speakers q_ := by simp only [State.speakers, endGroupSession_mp]
@[simp] theorem endGroupSession_now (g : GroupId) (cause : SessionCause) : (endGroupSession g cause s).now = s.now := by simp only [State.now, endGroupSession_ft]
@[simp] theorem endGroupSession_running (g : GroupId) (cause : SessionCause) : (endGroupSession g cause s).running = s.running := by simp only [State.running, endGroupSession_ld]
@[simp] theorem endGroupSession_due (g : GroupId) (cause : SessionCause) (d_ : Word) : (endGroupSession g cause s).due d_ = s.due d_ := by exact State.due_congr (by simp) _
/-! ### `startHang` -/

@[simp] theorem startHang_lc (g : GroupId) : (startHang g s).lc = s.lc := by unfold startHang; dsimp only; split <;> [rfl; (split <;> simp)]
@[simp] theorem startHang_rc (g : GroupId) : (startHang g s).rc = s.rc := by unfold startHang; dsimp only; split <;> [rfl; (split <;> simp)]
@[simp] theorem startHang_mp (g : GroupId) : (startHang g s).mp = s.mp := by unfold startHang; dsimp only; split <;> [rfl; (split <;> simp)]
@[simp] theorem startHang_me (g : GroupId) : (startHang g s).me = s.me := by unfold startHang; dsimp only; split <;> [rfl; (split <;> simp)]
@[simp] theorem startHang_pu (g : GroupId) : (startHang g s).pu = s.pu := by unfold startHang; dsimp only; split <;> [rfl; (split <;> simp)]
@[simp] theorem startHang_ft (g : GroupId) : (startHang g s).ft = s.ft := by unfold startHang; dsimp only; split <;> [rfl; (split <;> simp)]
@[simp] theorem startHang_cu (g : GroupId) : (startHang g s).cu = s.cu := by unfold startHang; dsimp only; split <;> [rfl; (split <;> simp)]
@[simp] theorem startHang_ld (g : GroupId) : (startHang g s).ld = s.ld := by unfold startHang; dsimp only; split <;> [rfl; (split <;> simp)]
@[simp] theorem startHang_handed (g : GroupId) : (startHang g s).handed = s.handed := by unfold startHang; dsimp only; split <;> [rfl; (split <;> simp)]
@[simp] theorem startHang_draws (g : GroupId) : (startHang g s).draws = s.draws := by unfold startHang; dsimp only; split <;> [rfl; (split <;> simp)]
@[simp] theorem startHang_pending (g : GroupId) : (startHang g s).pending = s.pending := by unfold startHang; dsimp only; split <;> [rfl; (split <;> simp)]
@[simp] theorem startHang_line (g : GroupId) (m_ : LineId) : (startHang g s).line m_ = s.line m_ := by simp only [State.line, startHang_lc]
@[simp] theorem startHang_handset (g : GroupId) (h_ : Handset) : (startHang g s).handset h_ = s.handset h_ := by simp only [State.handset, startHang_lc]
@[simp] theorem startHang_map (g : GroupId) (q_ : PosId) : (startHang g s).map q_ = s.map q_ := by simp only [State.map, startHang_lc]
@[simp] theorem startHang_appears (g : GroupId) (q_ : PosId) (m_ : LineId) : (startHang g s).appears q_ m_ = s.appears q_ m_ := by simp only [State.appears, State.map, startHang_lc]
@[simp] theorem startHang_ring (g : GroupId) (m_ : LineId) : (startHang g s).ring m_ = s.ring m_ := by simp only [State.ring, startHang_rc]
@[simp] theorem startHang_posRing (g : GroupId) (q_ : PosId) : (startHang g s).posRing q_ = s.posRing q_ := by simp only [State.posRing, startHang_rc]
@[simp] theorem startHang_settings (g : GroupId) (q_ : PosId) : (startHang g s).settings q_ = s.settings q_ := by simp only [State.settings, startHang_mp]
@[simp] theorem startHang_speakers (g : GroupId) (q_ : PosId) : (startHang g s).speakers q_ = s.speakers q_ := by simp only [State.speakers, startHang_mp]
@[simp] theorem startHang_now (g : GroupId) : (startHang g s).now = s.now := by simp only [State.now, startHang_ft]
@[simp] theorem startHang_running (g : GroupId) : (startHang g s).running = s.running := by simp only [State.running, startHang_ld]
@[simp] theorem startHang_due (g : GroupId) (d_ : Word) : (startHang g s).due d_ = s.due d_ := by exact State.due_congr (by simp) _
/-! ### `grantPlace` -/

@[simp] theorem grantPlace_lc (g : GroupId) (p : PosId) (b : Bool) : (grantPlace g p b s).lc = s.lc := by unfold grantPlace; dsimp only; split <;> simp
@[simp] theorem grantPlace_rc (g : GroupId) (p : PosId) (b : Bool) : (grantPlace g p b s).rc = s.rc := by unfold grantPlace; dsimp only; split <;> simp
@[simp] theorem grantPlace_mp (g : GroupId) (p : PosId) (b : Bool) : (grantPlace g p b s).mp = s.mp := by unfold grantPlace; dsimp only; split <;> simp
@[simp] theorem grantPlace_me (g : GroupId) (p : PosId) (b : Bool) : (grantPlace g p b s).me = s.me := by unfold grantPlace; dsimp only; split <;> simp
@[simp] theorem grantPlace_ft (g : GroupId) (p : PosId) (b : Bool) : (grantPlace g p b s).ft = s.ft := by unfold grantPlace; dsimp only; split <;> simp
@[simp] theorem grantPlace_ld (g : GroupId) (p : PosId) (b : Bool) : (grantPlace g p b s).ld = s.ld := by unfold grantPlace; dsimp only; split <;> simp
@[simp] theorem grantPlace_handed (g : GroupId) (p : PosId) (b : Bool) : (grantPlace g p b s).handed = s.handed := by unfold grantPlace; dsimp only; split <;> simp
@[simp] theorem grantPlace_draws (g : GroupId) (p : PosId) (b : Bool) : (grantPlace g p b s).draws = s.draws := by unfold grantPlace; dsimp only; split <;> simp
@[simp] theorem grantPlace_pending (g : GroupId) (p : PosId) (b : Bool) : (grantPlace g p b s).pending = s.pending := by unfold grantPlace; dsimp only; split <;> simp
@[simp] theorem grantPlace_line (g : GroupId) (p : PosId) (b : Bool) (m_ : LineId) : (grantPlace g p b s).line m_ = s.line m_ := by simp only [State.line, grantPlace_lc]
@[simp] theorem grantPlace_handset (g : GroupId) (p : PosId) (b : Bool) (h_ : Handset) : (grantPlace g p b s).handset h_ = s.handset h_ := by simp only [State.handset, grantPlace_lc]
@[simp] theorem grantPlace_map (g : GroupId) (p : PosId) (b : Bool) (q_ : PosId) : (grantPlace g p b s).map q_ = s.map q_ := by simp only [State.map, grantPlace_lc]
@[simp] theorem grantPlace_appears (g : GroupId) (p : PosId) (b : Bool) (q_ : PosId) (m_ : LineId) : (grantPlace g p b s).appears q_ m_ = s.appears q_ m_ := by simp only [State.appears, State.map, grantPlace_lc]
@[simp] theorem grantPlace_ring (g : GroupId) (p : PosId) (b : Bool) (m_ : LineId) : (grantPlace g p b s).ring m_ = s.ring m_ := by simp only [State.ring, grantPlace_rc]
@[simp] theorem grantPlace_posRing (g : GroupId) (p : PosId) (b : Bool) (q_ : PosId) : (grantPlace g p b s).posRing q_ = s.posRing q_ := by simp only [State.posRing, grantPlace_rc]
@[simp] theorem grantPlace_settings (g : GroupId) (p : PosId) (b : Bool) (q_ : PosId) : (grantPlace g p b s).settings q_ = s.settings q_ := by simp only [State.settings, grantPlace_mp]
@[simp] theorem grantPlace_speakers (g : GroupId) (p : PosId) (b : Bool) (q_ : PosId) : (grantPlace g p b s).speakers q_ = s.speakers q_ := by simp only [State.speakers, grantPlace_mp]
@[simp] theorem grantPlace_now (g : GroupId) (p : PosId) (b : Bool) : (grantPlace g p b s).now = s.now := by simp only [State.now, grantPlace_ft]
@[simp] theorem grantPlace_running (g : GroupId) (p : PosId) (b : Bool) : (grantPlace g p b s).running = s.running := by simp only [State.running, grantPlace_ld]
@[simp] theorem grantPlace_due (g : GroupId) (p : PosId) (b : Bool) (d_ : Word) : (grantPlace g p b s).due d_ = s.due d_ := by exact State.due_congr (by simp) _
/-! ### `grantPassN` -/

@[simp] theorem grantPassN_lc (n : Nat) (g : GroupId) : (grantPassN n g s).lc = s.lc := by induction n generalizing s with
  | zero => rfl
  | succ n ih => unfold grantPassN; split <;> [rfl; (split <;> [(rw [ih]; simp); rfl])]
@[simp] theorem grantPassN_rc (n : Nat) (g : GroupId) : (grantPassN n g s).rc = s.rc := by induction n generalizing s with
  | zero => rfl
  | succ n ih => unfold grantPassN; split <;> [rfl; (split <;> [(rw [ih]; simp); rfl])]
@[simp] theorem grantPassN_mp (n : Nat) (g : GroupId) : (grantPassN n g s).mp = s.mp := by induction n generalizing s with
  | zero => rfl
  | succ n ih => unfold grantPassN; split <;> [rfl; (split <;> [(rw [ih]; simp); rfl])]
@[simp] theorem grantPassN_me (n : Nat) (g : GroupId) : (grantPassN n g s).me = s.me := by induction n generalizing s with
  | zero => rfl
  | succ n ih => unfold grantPassN; split <;> [rfl; (split <;> [(rw [ih]; simp); rfl])]
@[simp] theorem grantPassN_ft (n : Nat) (g : GroupId) : (grantPassN n g s).ft = s.ft := by induction n generalizing s with
  | zero => rfl
  | succ n ih => unfold grantPassN; split <;> [rfl; (split <;> [(rw [ih]; simp); rfl])]
@[simp] theorem grantPassN_ld (n : Nat) (g : GroupId) : (grantPassN n g s).ld = s.ld := by induction n generalizing s with
  | zero => rfl
  | succ n ih => unfold grantPassN; split <;> [rfl; (split <;> [(rw [ih]; simp); rfl])]
@[simp] theorem grantPassN_handed (n : Nat) (g : GroupId) : (grantPassN n g s).handed = s.handed := by induction n generalizing s with
  | zero => rfl
  | succ n ih => unfold grantPassN; split <;> [rfl; (split <;> [(rw [ih]; simp); rfl])]
@[simp] theorem grantPassN_draws (n : Nat) (g : GroupId) : (grantPassN n g s).draws = s.draws := by induction n generalizing s with
  | zero => rfl
  | succ n ih => unfold grantPassN; split <;> [rfl; (split <;> [(rw [ih]; simp); rfl])]
@[simp] theorem grantPassN_pending (n : Nat) (g : GroupId) : (grantPassN n g s).pending = s.pending := by induction n generalizing s with
  | zero => rfl
  | succ n ih => unfold grantPassN; split <;> [rfl; (split <;> [(rw [ih]; simp); rfl])]
@[simp] theorem grantPassN_line (n : Nat) (g : GroupId) (m_ : LineId) : (grantPassN n g s).line m_ = s.line m_ := by simp only [State.line, grantPassN_lc]
@[simp] theorem grantPassN_handset (n : Nat) (g : GroupId) (h_ : Handset) : (grantPassN n g s).handset h_ = s.handset h_ := by simp only [State.handset, grantPassN_lc]
@[simp] theorem grantPassN_map (n : Nat) (g : GroupId) (q_ : PosId) : (grantPassN n g s).map q_ = s.map q_ := by simp only [State.map, grantPassN_lc]
@[simp] theorem grantPassN_appears (n : Nat) (g : GroupId) (q_ : PosId) (m_ : LineId) : (grantPassN n g s).appears q_ m_ = s.appears q_ m_ := by simp only [State.appears, State.map, grantPassN_lc]
@[simp] theorem grantPassN_ring (n : Nat) (g : GroupId) (m_ : LineId) : (grantPassN n g s).ring m_ = s.ring m_ := by simp only [State.ring, grantPassN_rc]
@[simp] theorem grantPassN_posRing (n : Nat) (g : GroupId) (q_ : PosId) : (grantPassN n g s).posRing q_ = s.posRing q_ := by simp only [State.posRing, grantPassN_rc]
@[simp] theorem grantPassN_settings (n : Nat) (g : GroupId) (q_ : PosId) : (grantPassN n g s).settings q_ = s.settings q_ := by simp only [State.settings, grantPassN_mp]
@[simp] theorem grantPassN_speakers (n : Nat) (g : GroupId) (q_ : PosId) : (grantPassN n g s).speakers q_ = s.speakers q_ := by simp only [State.speakers, grantPassN_mp]
@[simp] theorem grantPassN_now (n : Nat) (g : GroupId) : (grantPassN n g s).now = s.now := by simp only [State.now, grantPassN_ft]
@[simp] theorem grantPassN_running (n : Nat) (g : GroupId) : (grantPassN n g s).running = s.running := by simp only [State.running, grantPassN_ld]
@[simp] theorem grantPassN_due (n : Nat) (g : GroupId) (d_ : Word) : (grantPassN n g s).due d_ = s.due d_ := by exact State.due_congr (by simp) _
/-! ### `grantPass` -/

@[simp] theorem grantPass_lc (g : GroupId) : (grantPass g s).lc = s.lc := by simp [grantPass]
@[simp] theorem grantPass_rc (g : GroupId) : (grantPass g s).rc = s.rc := by simp [grantPass]
@[simp] theorem grantPass_mp (g : GroupId) : (grantPass g s).mp = s.mp := by simp [grantPass]
@[simp] theorem grantPass_me (g : GroupId) : (grantPass g s).me = s.me := by simp [grantPass]
@[simp] theorem grantPass_ft (g : GroupId) : (grantPass g s).ft = s.ft := by simp [grantPass]
@[simp] theorem grantPass_ld (g : GroupId) : (grantPass g s).ld = s.ld := by simp [grantPass]
@[simp] theorem grantPass_handed (g : GroupId) : (grantPass g s).handed = s.handed := by simp [grantPass]
@[simp] theorem grantPass_draws (g : GroupId) : (grantPass g s).draws = s.draws := by simp [grantPass]
@[simp] theorem grantPass_pending (g : GroupId) : (grantPass g s).pending = s.pending := by simp [grantPass]
@[simp] theorem grantPass_line (g : GroupId) (m_ : LineId) : (grantPass g s).line m_ = s.line m_ := by simp only [State.line, grantPass_lc]
@[simp] theorem grantPass_handset (g : GroupId) (h_ : Handset) : (grantPass g s).handset h_ = s.handset h_ := by simp only [State.handset, grantPass_lc]
@[simp] theorem grantPass_map (g : GroupId) (q_ : PosId) : (grantPass g s).map q_ = s.map q_ := by simp only [State.map, grantPass_lc]
@[simp] theorem grantPass_appears (g : GroupId) (q_ : PosId) (m_ : LineId) : (grantPass g s).appears q_ m_ = s.appears q_ m_ := by simp only [State.appears, State.map, grantPass_lc]
@[simp] theorem grantPass_ring (g : GroupId) (m_ : LineId) : (grantPass g s).ring m_ = s.ring m_ := by simp only [State.ring, grantPass_rc]
@[simp] theorem grantPass_posRing (g : GroupId) (q_ : PosId) : (grantPass g s).posRing q_ = s.posRing q_ := by simp only [State.posRing, grantPass_rc]
@[simp] theorem grantPass_settings (g : GroupId) (q_ : PosId) : (grantPass g s).settings q_ = s.settings q_ := by simp only [State.settings, grantPass_mp]
@[simp] theorem grantPass_speakers (g : GroupId) (q_ : PosId) : (grantPass g s).speakers q_ = s.speakers q_ := by simp only [State.speakers, grantPass_mp]
@[simp] theorem grantPass_now (g : GroupId) : (grantPass g s).now = s.now := by simp only [State.now, grantPass_ft]
@[simp] theorem grantPass_running (g : GroupId) : (grantPass g s).running = s.running := by simp only [State.running, grantPass_ld]
@[simp] theorem grantPass_due (g : GroupId) (d_ : Word) : (grantPass g s).due d_ = s.due d_ := by exact State.due_congr (by simp) _
/-! ### `membershipStep` -/

@[simp] theorem membershipStep_lc (g : GroupId) (ms : PosSet) : (membershipStep g ms s).lc = s.lc := by simp [membershipStep]
@[simp] theorem membershipStep_rc (g : GroupId) (ms : PosSet) : (membershipStep g ms s).rc = s.rc := by simp [membershipStep]
@[simp] theorem membershipStep_mp (g : GroupId) (ms : PosSet) : (membershipStep g ms s).mp = s.mp := by simp [membershipStep]
@[simp] theorem membershipStep_me (g : GroupId) (ms : PosSet) : (membershipStep g ms s).me = s.me := by simp [membershipStep]
@[simp] theorem membershipStep_ft (g : GroupId) (ms : PosSet) : (membershipStep g ms s).ft = s.ft := by simp [membershipStep]
@[simp] theorem membershipStep_ru (g : GroupId) (ms : PosSet) : (membershipStep g ms s).ru = s.ru := by simp [membershipStep]
@[simp] theorem membershipStep_ld (g : GroupId) (ms : PosSet) : (membershipStep g ms s).ld = s.ld := by simp [membershipStep]
@[simp] theorem membershipStep_handed (g : GroupId) (ms : PosSet) : (membershipStep g ms s).handed = s.handed := by simp [membershipStep]
@[simp] theorem membershipStep_draws (g : GroupId) (ms : PosSet) : (membershipStep g ms s).draws = s.draws := by simp [membershipStep]
@[simp] theorem membershipStep_pending (g : GroupId) (ms : PosSet) : (membershipStep g ms s).pending = s.pending := by simp [membershipStep]
@[simp] theorem membershipStep_line (g : GroupId) (ms : PosSet) (m_ : LineId) : (membershipStep g ms s).line m_ = s.line m_ := by simp only [State.line, membershipStep_lc]
@[simp] theorem membershipStep_handset (g : GroupId) (ms : PosSet) (h_ : Handset) : (membershipStep g ms s).handset h_ = s.handset h_ := by simp only [State.handset, membershipStep_lc]
@[simp] theorem membershipStep_map (g : GroupId) (ms : PosSet) (q_ : PosId) : (membershipStep g ms s).map q_ = s.map q_ := by simp only [State.map, membershipStep_lc]
@[simp] theorem membershipStep_appears (g : GroupId) (ms : PosSet) (q_ : PosId) (m_ : LineId) : (membershipStep g ms s).appears q_ m_ = s.appears q_ m_ := by simp only [State.appears, State.map, membershipStep_lc]
@[simp] theorem membershipStep_ring (g : GroupId) (ms : PosSet) (m_ : LineId) : (membershipStep g ms s).ring m_ = s.ring m_ := by simp only [State.ring, membershipStep_rc]
@[simp] theorem membershipStep_posRing (g : GroupId) (ms : PosSet) (q_ : PosId) : (membershipStep g ms s).posRing q_ = s.posRing q_ := by simp only [State.posRing, membershipStep_rc]
@[simp] theorem membershipStep_settings (g : GroupId) (ms : PosSet) (q_ : PosId) : (membershipStep g ms s).settings q_ = s.settings q_ := by simp only [State.settings, membershipStep_mp]
@[simp] theorem membershipStep_speakers (g : GroupId) (ms : PosSet) (q_ : PosId) : (membershipStep g ms s).speakers q_ = s.speakers q_ := by simp only [State.speakers, membershipStep_mp]
@[simp] theorem membershipStep_chan (g : GroupId) (ms : PosSet) (c_ : ChanId) : (membershipStep g ms s).chan c_ = s.chan c_ := by simp only [State.chan, membershipStep_ru]
@[simp] theorem membershipStep_now (g : GroupId) (ms : PosSet) : (membershipStep g ms s).now = s.now := by simp only [State.now, membershipStep_ft]
@[simp] theorem membershipStep_running (g : GroupId) (ms : PosSet) : (membershipStep g ms s).running = s.running := by simp only [State.running, membershipStep_ld]
@[simp] theorem membershipStep_due (g : GroupId) (ms : PosSet) (d_ : Word) : (membershipStep g ms s).due d_ = s.due d_ := by exact State.due_congr (by simp) _
/-! ### `limitStep` -/

@[simp] theorem limitStep_lc (g : GroupId) (n : Nat) : (limitStep g n s).lc = s.lc := by simp [limitStep]
@[simp] theorem limitStep_rc (g : GroupId) (n : Nat) : (limitStep g n s).rc = s.rc := by simp [limitStep]
@[simp] theorem limitStep_mp (g : GroupId) (n : Nat) : (limitStep g n s).mp = s.mp := by simp [limitStep]
@[simp] theorem limitStep_me (g : GroupId) (n : Nat) : (limitStep g n s).me = s.me := by simp [limitStep]
@[simp] theorem limitStep_ft (g : GroupId) (n : Nat) : (limitStep g n s).ft = s.ft := by simp [limitStep]
@[simp] theorem limitStep_ru (g : GroupId) (n : Nat) : (limitStep g n s).ru = s.ru := by simp [limitStep]
@[simp] theorem limitStep_ld (g : GroupId) (n : Nat) : (limitStep g n s).ld = s.ld := by simp [limitStep]
@[simp] theorem limitStep_handed (g : GroupId) (n : Nat) : (limitStep g n s).handed = s.handed := by simp [limitStep]
@[simp] theorem limitStep_draws (g : GroupId) (n : Nat) : (limitStep g n s).draws = s.draws := by simp [limitStep]
@[simp] theorem limitStep_pending (g : GroupId) (n : Nat) : (limitStep g n s).pending = s.pending := by simp [limitStep]
@[simp] theorem limitStep_line (g : GroupId) (n : Nat) (m_ : LineId) : (limitStep g n s).line m_ = s.line m_ := by simp only [State.line, limitStep_lc]
@[simp] theorem limitStep_handset (g : GroupId) (n : Nat) (h_ : Handset) : (limitStep g n s).handset h_ = s.handset h_ := by simp only [State.handset, limitStep_lc]
@[simp] theorem limitStep_map (g : GroupId) (n : Nat) (q_ : PosId) : (limitStep g n s).map q_ = s.map q_ := by simp only [State.map, limitStep_lc]
@[simp] theorem limitStep_appears (g : GroupId) (n : Nat) (q_ : PosId) (m_ : LineId) : (limitStep g n s).appears q_ m_ = s.appears q_ m_ := by simp only [State.appears, State.map, limitStep_lc]
@[simp] theorem limitStep_ring (g : GroupId) (n : Nat) (m_ : LineId) : (limitStep g n s).ring m_ = s.ring m_ := by simp only [State.ring, limitStep_rc]
@[simp] theorem limitStep_posRing (g : GroupId) (n : Nat) (q_ : PosId) : (limitStep g n s).posRing q_ = s.posRing q_ := by simp only [State.posRing, limitStep_rc]
@[simp] theorem limitStep_settings (g : GroupId) (n : Nat) (q_ : PosId) : (limitStep g n s).settings q_ = s.settings q_ := by simp only [State.settings, limitStep_mp]
@[simp] theorem limitStep_speakers (g : GroupId) (n : Nat) (q_ : PosId) : (limitStep g n s).speakers q_ = s.speakers q_ := by simp only [State.speakers, limitStep_mp]
@[simp] theorem limitStep_chan (g : GroupId) (n : Nat) (c_ : ChanId) : (limitStep g n s).chan c_ = s.chan c_ := by simp only [State.chan, limitStep_ru]
@[simp] theorem limitStep_now (g : GroupId) (n : Nat) : (limitStep g n s).now = s.now := by simp only [State.now, limitStep_ft]
@[simp] theorem limitStep_running (g : GroupId) (n : Nat) : (limitStep g n s).running = s.running := by simp only [State.running, limitStep_ld]
@[simp] theorem limitStep_due (g : GroupId) (n : Nat) (d_ : Word) : (limitStep g n s).due d_ = s.due d_ := by exact State.due_congr (by simp) _
/-! ### `hangStep` -/

@[simp] theorem hangStep_lc (g : GroupId) (b : Bool) : (hangStep g b s).lc = s.lc := by unfold hangStep; dsimp only; split <;> [simp; (split <;> simp)]
@[simp] theorem hangStep_rc (g : GroupId) (b : Bool) : (hangStep g b s).rc = s.rc := by unfold hangStep; dsimp only; split <;> [simp; (split <;> simp)]
@[simp] theorem hangStep_mp (g : GroupId) (b : Bool) : (hangStep g b s).mp = s.mp := by unfold hangStep; dsimp only; split <;> [simp; (split <;> simp)]
@[simp] theorem hangStep_me (g : GroupId) (b : Bool) : (hangStep g b s).me = s.me := by unfold hangStep; dsimp only; split <;> [simp; (split <;> simp)]
@[simp] theorem hangStep_pu (g : GroupId) (b : Bool) : (hangStep g b s).pu = s.pu := by unfold hangStep; dsimp only; split <;> [simp; (split <;> simp)]
@[simp] theorem hangStep_ft (g : GroupId) (b : Bool) : (hangStep g b s).ft = s.ft := by unfold hangStep; dsimp only; split <;> [simp; (split <;> simp)]
@[simp] theorem hangStep_cu (g : GroupId) (b : Bool) : (hangStep g b s).cu = s.cu := by unfold hangStep; dsimp only; split <;> [simp; (split <;> simp)]
@[simp] theorem hangStep_ld (g : GroupId) (b : Bool) : (hangStep g b s).ld = s.ld := by unfold hangStep; dsimp only; split <;> [simp; (split <;> simp)]
@[simp] theorem hangStep_handed (g : GroupId) (b : Bool) : (hangStep g b s).handed = s.handed := by unfold hangStep; dsimp only; split <;> [simp; (split <;> simp)]
@[simp] theorem hangStep_draws (g : GroupId) (b : Bool) : (hangStep g b s).draws = s.draws := by unfold hangStep; dsimp only; split <;> [simp; (split <;> simp)]
@[simp] theorem hangStep_pending (g : GroupId) (b : Bool) : (hangStep g b s).pending = s.pending := by unfold hangStep; dsimp only; split <;> [simp; (split <;> simp)]
@[simp] theorem hangStep_line (g : GroupId) (b : Bool) (m_ : LineId) : (hangStep g b s).line m_ = s.line m_ := by simp only [State.line, hangStep_lc]
@[simp] theorem hangStep_handset (g : GroupId) (b : Bool) (h_ : Handset) : (hangStep g b s).handset h_ = s.handset h_ := by simp only [State.handset, hangStep_lc]
@[simp] theorem hangStep_map (g : GroupId) (b : Bool) (q_ : PosId) : (hangStep g b s).map q_ = s.map q_ := by simp only [State.map, hangStep_lc]
@[simp] theorem hangStep_appears (g : GroupId) (b : Bool) (q_ : PosId) (m_ : LineId) : (hangStep g b s).appears q_ m_ = s.appears q_ m_ := by simp only [State.appears, State.map, hangStep_lc]
@[simp] theorem hangStep_ring (g : GroupId) (b : Bool) (m_ : LineId) : (hangStep g b s).ring m_ = s.ring m_ := by simp only [State.ring, hangStep_rc]
@[simp] theorem hangStep_posRing (g : GroupId) (b : Bool) (q_ : PosId) : (hangStep g b s).posRing q_ = s.posRing q_ := by simp only [State.posRing, hangStep_rc]
@[simp] theorem hangStep_settings (g : GroupId) (b : Bool) (q_ : PosId) : (hangStep g b s).settings q_ = s.settings q_ := by simp only [State.settings, hangStep_mp]
@[simp] theorem hangStep_speakers (g : GroupId) (b : Bool) (q_ : PosId) : (hangStep g b s).speakers q_ = s.speakers q_ := by simp only [State.speakers, hangStep_mp]
@[simp] theorem hangStep_now (g : GroupId) (b : Bool) : (hangStep g b s).now = s.now := by simp only [State.now, hangStep_ft]
@[simp] theorem hangStep_running (g : GroupId) (b : Bool) : (hangStep g b s).running = s.running := by simp only [State.running, hangStep_ld]
@[simp] theorem hangStep_due (g : GroupId) (b : Bool) (d_ : Word) : (hangStep g b s).due d_ = s.due d_ := by exact State.due_congr (by simp) _
/-! ### `bridge` -/

@[simp] theorem bridge_rc (g : GroupId) (l : LineId) : (bridge g l s).rc = s.rc := by unfold bridge; split <;> simp
@[simp] theorem bridge_fc (g : GroupId) (l : LineId) : (bridge g l s).fc = s.fc := by unfold bridge; split <;> simp
@[simp] theorem bridge_mp (g : GroupId) (l : LineId) : (bridge g l s).mp = s.mp := by unfold bridge; split <;> simp
@[simp] theorem bridge_me (g : GroupId) (l : LineId) : (bridge g l s).me = s.me := by unfold bridge; split <;> simp
@[simp] theorem bridge_ft (g : GroupId) (l : LineId) : (bridge g l s).ft = s.ft := by unfold bridge; split <;> simp
@[simp] theorem bridge_ru (g : GroupId) (l : LineId) : (bridge g l s).ru = s.ru := by unfold bridge; split <;> simp
@[simp] theorem bridge_ld (g : GroupId) (l : LineId) : (bridge g l s).ld = s.ld := by unfold bridge; split <;> simp
@[simp] theorem bridge_handed (g : GroupId) (l : LineId) : (bridge g l s).handed = s.handed := by unfold bridge; split <;> simp
@[simp] theorem bridge_draws (g : GroupId) (l : LineId) : (bridge g l s).draws = s.draws := by unfold bridge; split <;> simp
@[simp] theorem bridge_pending (g : GroupId) (l : LineId) : (bridge g l s).pending = s.pending := by unfold bridge; split <;> simp
@[simp] theorem bridge_handset (g : GroupId) (l : LineId) (h_ : Handset) : (bridge g l s).handset h_ = s.handset h_ := by unfold bridge; split <;> simp
@[simp] theorem bridge_map (g : GroupId) (l : LineId) (q_ : PosId) : (bridge g l s).map q_ = s.map q_ := by unfold bridge; split <;> simp
@[simp] theorem bridge_appears (g : GroupId) (l : LineId) (q_ : PosId) (m_ : LineId) : (bridge g l s).appears q_ m_ = s.appears q_ m_ := by unfold bridge; split <;> simp
@[simp] theorem bridge_ring (g : GroupId) (l : LineId) (m_ : LineId) : (bridge g l s).ring m_ = s.ring m_ := by simp only [State.ring, bridge_rc]
@[simp] theorem bridge_posRing (g : GroupId) (l : LineId) (q_ : PosId) : (bridge g l s).posRing q_ = s.posRing q_ := by simp only [State.posRing, bridge_rc]
@[simp] theorem bridge_group (g : GroupId) (l : LineId) (g_ : GroupId) : (bridge g l s).group g_ = s.group g_ := by simp only [State.group, bridge_fc]
@[simp] theorem bridge_settings (g : GroupId) (l : LineId) (q_ : PosId) : (bridge g l s).settings q_ = s.settings q_ := by simp only [State.settings, bridge_mp]
@[simp] theorem bridge_speakers (g : GroupId) (l : LineId) (q_ : PosId) : (bridge g l s).speakers q_ = s.speakers q_ := by simp only [State.speakers, bridge_mp]
@[simp] theorem bridge_chan (g : GroupId) (l : LineId) (c_ : ChanId) : (bridge g l s).chan c_ = s.chan c_ := by simp only [State.chan, bridge_ru]
@[simp] theorem bridge_now (g : GroupId) (l : LineId) : (bridge g l s).now = s.now := by simp only [State.now, bridge_ft]
@[simp] theorem bridge_running (g : GroupId) (l : LineId) : (bridge g l s).running = s.running := by simp only [State.running, bridge_ld]
@[simp] theorem bridge_due (g : GroupId) (l : LineId) (d_ : Word) : (bridge g l s).due d_ = s.due d_ := by exact State.due_congr (by simp) _
/-! ### `unbridge` -/

@[simp] theorem unbridge_fc (l : LineId) : (unbridge l s).fc = s.fc := by unfold unbridge; split <;> simp
@[simp] theorem unbridge_mp (l : LineId) : (unbridge l s).mp = s.mp := by unfold unbridge; split <;> simp
@[simp] theorem unbridge_me (l : LineId) : (unbridge l s).me = s.me := by unfold unbridge; split <;> simp
@[simp] theorem unbridge_ft (l : LineId) : (unbridge l s).ft = s.ft := by unfold unbridge; split <;> simp
@[simp] theorem unbridge_ru (l : LineId) : (unbridge l s).ru = s.ru := by unfold unbridge; split <;> simp
@[simp] theorem unbridge_ld (l : LineId) : (unbridge l s).ld = s.ld := by unfold unbridge; split <;> simp
@[simp] theorem unbridge_handed (l : LineId) : (unbridge l s).handed = s.handed := by unfold unbridge; split <;> simp
@[simp] theorem unbridge_draws (l : LineId) : (unbridge l s).draws = s.draws := by unfold unbridge; split <;> simp
@[simp] theorem unbridge_pending (l : LineId) : (unbridge l s).pending = s.pending := by unfold unbridge; split <;> simp
@[simp] theorem unbridge_handset (l : LineId) (h_ : Handset) : (unbridge l s).handset h_ = s.handset h_ := by unfold unbridge; split <;> simp
@[simp] theorem unbridge_map (l : LineId) (q_ : PosId) : (unbridge l s).map q_ = s.map q_ := by unfold unbridge; split <;> simp
@[simp] theorem unbridge_appears (l : LineId) (q_ : PosId) (m_ : LineId) : (unbridge l s).appears q_ m_ = s.appears q_ m_ := by unfold unbridge; split <;> simp
@[simp] theorem unbridge_group (l : LineId) (g_ : GroupId) : (unbridge l s).group g_ = s.group g_ := by simp only [State.group, unbridge_fc]
@[simp] theorem unbridge_settings (l : LineId) (q_ : PosId) : (unbridge l s).settings q_ = s.settings q_ := by simp only [State.settings, unbridge_mp]
@[simp] theorem unbridge_speakers (l : LineId) (q_ : PosId) : (unbridge l s).speakers q_ = s.speakers q_ := by simp only [State.speakers, unbridge_mp]
@[simp] theorem unbridge_chan (l : LineId) (c_ : ChanId) : (unbridge l s).chan c_ = s.chan c_ := by simp only [State.chan, unbridge_ru]
@[simp] theorem unbridge_now (l : LineId) : (unbridge l s).now = s.now := by simp only [State.now, unbridge_ft]
@[simp] theorem unbridge_running (l : LineId) : (unbridge l s).running = s.running := by simp only [State.running, unbridge_ld]
@[simp] theorem unbridge_due (l : LineId) (d_ : Word) : (unbridge l s).due d_ = s.due d_ := by exact State.due_congr (by simp) _

/-! ### What a change of a line's state posts and asks for -/

/-- LINE_STATE alone, and the line's control word where the change of near_end marks it (R2, R8). -/
theorem posts_setLineState (l : LineId) (st : LineState) (cause : LineCause) :
    Posts [.lineState l st cause] s (setLineState l st cause s) := by
  have start : Posts [] s (s.modLine l fun r => { r with state := st }) :=
    .of_eq rfl rfl fun m => by by_cases e : l = m <;> simp [e]
  have mark (v : State) (b : Prop) [Decidable b] : Posts [] v (if b then markControl l v else v) := by
    split
    · exact posts_markControl v l
    · exact .refl v
  exact (start.trans (mark _ _)).trans (posts_post _ _)

end Sys2Proof.Machine
end

