-- ==== Sys2Proof/Laws/Operands.lean ====
section
/-! SUPPORT. Reading an operand back from the byte that stands for it; position sets; what a held command answers; the lowest FREE
channel; a position joining or leaving a presentation set. -/

namespace Sys2Proof.Machine

/-! ### Operands -/

@[simp] theorem idArg_finByte_line (i : LineId) : idArg 96 (finByte i) = some i := by revert i; decide
@[simp] theorem idArg_finByte_pos (i : PosId) : idArg 8 (finByte i) = some i := by revert i; decide
@[simp] theorem idArg_finByte_key (i : KeyId) : idArg 48 (finByte i) = some i := by revert i; decide
@[simp] theorem idArg_finByte_spk (i : SpkId) : idArg 12 (finByte i) = some i := by revert i; decide
@[simp] theorem idArg_finByte_group (i : GroupId) : idArg 16 (finByte i) = some i := by revert i; decide
@[simp] theorem idArg_finByte_chan (i : ChanId) : idArg 32 (finByte i) = some i := by revert i; decide

@[simp] theorem optIdArg_idByte_line (x : Option LineId) : optIdArg 96 (idByte x) = some x := by
  cases x with
  | none => rfl
  | some i => revert i; decide

@[simp] theorem optIdArg_idByte_pos (x : Option PosId) : optIdArg 8 (idByte x) = some x := by
  cases x with
  | none => rfl
  | some i => revert i; decide

@[simp] theorem sideArg_code (x : Side) : sideArg x.code = some x := by cases x <;> decide
@[simp] theorem flagArg_flagCode (x : Bool) : flagArg (flagCode x) = some x := by cases x <;> decide
@[simp] theorem typeArg_code (x : LineType) : typeArg x.code = some x := by cases x <;> decide
@[simp] theorem policyArg_code (x : Policy) : policyArg x.code = some x := by cases x <;> decide
@[simp] theorem bufArg_code (x : Buf) : bufArg x.code = some x := by cases x <;> decide

@[simp] theorem handsetArg_finByte (h : Handset) : handsetArg (finByte h.pos) h.side.code = some h := by
  simp [handsetArg]

/-- A byte names none of `n` things exactly from `n` on. -/
theorem idArg_eq_none {n : Nat} {b : Byte} : idArg n b = none ↔ n ≤ b.toNat := by
  unfold idArg; split <;> simp <;> omega

/-! ### Held commands -/

/-- A command in hand acts and completes with its status. -/
theorem runCommand_of_holds {c : Instr} {act : State → State × Status} {s : State} (h : s.holds c = true) :
    runCommand c act s = .next (complete (act s).2 (act s).1) := by simp [runCommand, h]

/-- A host command that is not in hand does nothing (log 2). -/
theorem runCommand_of_not_holds {c : Instr} {act : State → State × Status} {s : State} (h : s.holds c = false) :
    runCommand c act s = .next s := by simp [runCommand, h]

theorem holds_iff {c : Instr} {s : State} :
    s.holds c = true ↔ s.running = true ∧ s.cu.execution = .executing ∧ s.cu.inHand = some c := by
  simp [State.holds, and_assoc]

/-! ### Position sets -/

theorem inSet_onlyPos (p q : PosId) : inSet (onlyPos q) p = decide (p = q) := by revert p q; decide

theorem inSet_or (a b : PosSet) (p : PosId) : inSet (a ||| b) p = (inSet a p || inSet b p) := by simp [inSet]

theorem inSet_zero (p : PosId) : inSet 0 p = false := by simp [inSet]

/-- The positions of a ring in phase GENERAL are those whose maps hold the line (R29). -/
theorem inSet_appearing (s : State) (l : LineId) (p : PosId) : inSet (appearing s l) p = s.appears p l := by
  have key : ∀ (ps : List PosId) (b : PosSet),
      inSet (ps.foldl (fun set p => if s.appears p l then set ||| onlyPos p else set) b) p =
        (inSet b p || (decide (p ∈ ps) && s.appears p l)) := by
    intro ps
    induction ps with
    | nil => simp
    | cons q qs ih =>
      intro b
      rw [List.foldl_cons, ih]
      by_cases e : p = q
      · subst e; by_cases hq : s.appears p l <;> simp [hq, inSet_or, inSet_onlyPos]
      · by_cases hq : s.appears q l <;> simp [hq, inSet_or, inSet_onlyPos, e]
  rw [appearing, key, inSet_zero]; simp

/-! ### Counts of a position -/

theorem addShown_posRing (b : Bool) (p q : PosId) (s : State) :
    (addShown b p s).posRing q =
      if p = q then ⟨(s.posRing p).ringCount + 1,
        if b then (s.posRing p).recallCount + 1 else (s.posRing p).recallCount, true⟩
      else s.posRing q := by
  by_cases h : p = q <;> unfold addShown <;> dsimp only <;> split <;> simp [setPosRing_posRing, h]

theorem dropShown_posRing (b : Bool) (p q : PosId) (s : State) :
    (dropShown b p s).posRing q =
      if p = q then ⟨(s.posRing p).ringCount - 1,
        if b then (s.posRing p).recallCount - 1 else (s.posRing p).recallCount, decide (1 < (s.posRing p).ringCount)⟩
      else s.posRing q := by
  by_cases h : p = q <;> unfold dropShown <;> dsimp only <;> split <;> simp [setPosRing_posRing, h]

/-! ### Recorder channels -/

theorem freeChannel_of_lowest {s : State} {c : ChanId} (h : LowestFree s c) : freeChannel s = some c := by
  unfold freeChannel
  rw [List.find?_eq_some_iff_getElem]
  refine ⟨by simp [h.1], c.val, by simp, by simp, ?_⟩
  intro j hj
  have := h.2 ⟨j, by omega⟩ hj
  simpa using this

theorem freeChannel_of_none {s : State} (h : NoneFree s) : freeChannel s = none := by
  unfold freeChannel
  rw [List.find?_eq_none]; intro x _; simpa using h x

end Sys2Proof.Machine
end

