-- ==== Sys2Proof/Laws/PerInstr.lean ====
section
/-! SUPPORT. Statements for all commands, one lemma for each constructor of `Instr`. -/

namespace Sys2Proof.Laws

open Sys2Proof.Machine

set_option Elab.async false

/-- A slot written for the command is 32 bytes long (00_scope.md section 4, R187). -/
def SlotLength.Statement (c : Instr) : Prop :=
  ∀ (tag : Word) (bs : List Byte), slotBytes tag c = some bs → bs.length = 32

/-- A padded list is as long as it is made, where it fits. -/
theorem padTo_length (n : Nat) (bs : List Byte) (h : bs.length ≤ n) : (padTo n bs).length = n := by
  simp [padTo]; omega

/-- The slot of a command with at most 24 argument bytes. -/
theorem slotBytes_length (tag : Word) (c : Instr) (f : Byte × List Byte) (bs : List Byte)
    (hf : slotFields c = some f) (h : f.2.length ≤ 24) (hb : slotBytes tag c = some bs) : bs.length = 32 := by
  simp only [slotBytes, hf, Option.map_some, Option.some.injEq] at hb
  subst hb
  have : (padTo 8 (wordBytes tag ++ [f.1])).length = 8 := padTo_length _ _ (by simp [wordBytes, leBytes])
  exact padTo_length _ _ (by simp [this]; omega)

theorem SlotLength.lineSet (line type pad preferred ringDelay policy : Byte) (recallTime : Half) :
    SlotLength.Statement (.lineSet line type pad preferred ringDelay policy recallTime) :=
  fun tag bs h => slotBytes_length tag _ _ bs rfl (by simp [leBytes]) h
theorem SlotLength.lineService (line dir : Byte) : SlotLength.Statement (.lineService line dir) :=
  fun tag bs h => slotBytes_length tag _ _ bs rfl (by simp) h
theorem SlotLength.appearSet (pos key line : Byte) : SlotLength.Statement (.appearSet pos key line) :=
  fun tag bs h => slotBytes_length tag _ _ bs rfl (by simp) h
theorem SlotLength.seize (pos side line : Byte) : SlotLength.Statement (.seize pos side line) :=
  fun tag bs h => slotBytes_length tag _ _ bs rfl (by simp) h
theorem SlotLength.release (pos side : Byte) : SlotLength.Statement (.release pos side) :=
  fun tag bs h => slotBytes_length tag _ _ bs rfl (by simp) h
theorem SlotLength.hold (pos side : Byte) : SlotLength.Statement (.hold pos side) :=
  fun tag bs h => slotBytes_length tag _ _ bs rfl (by simp) h
theorem SlotLength.privacy (pos side value : Byte) : SlotLength.Statement (.privacy pos side value) :=
  fun tag bs h => slotBytes_length tag _ _ bs rfl (by simp) h
theorem SlotLength.forceClear (line : Byte) : SlotLength.Statement (.forceClear line) :=
  fun tag bs h => slotBytes_length tag _ _ bs rfl (by simp) h
theorem SlotLength.handsetSet (pos side volume micPad : Byte) :
    SlotLength.Statement (.handsetSet pos side volume micPad) :=
  fun tag bs h => slotBytes_length tag _ _ bs rfl (by simp) h
theorem SlotLength.positionSet (pos micPad duck ringLevel recallLevel supervisor : Byte) :
    SlotLength.Statement (.positionSet pos micPad duck ringLevel recallLevel supervisor) :=
  fun tag bs h => slotBytes_length tag _ _ bs rfl (by simp) h
theorem SlotLength.speakerSet (pos chan kind subject flags volume : Byte) :
    SlotLength.Statement (.speakerSet pos chan kind subject flags volume) :=
  fun tag bs h => slotBytes_length tag _ _ bs rfl (by simp) h
theorem SlotLength.groupSet (group : Byte) (cfg : GroupArgs) : SlotLength.Statement (.groupSet group cfg) :=
  fun tag bs h => slotBytes_length tag _ _ bs rfl (by simp [groupArgBytes]) h
theorem SlotLength.talk (pos group : Byte) : SlotLength.Statement (.talk pos group) :=
  fun tag bs h => slotBytes_length tag _ _ bs rfl (by simp) h
theorem SlotLength.talkEnd (pos group : Byte) : SlotLength.Statement (.talkEnd pos group) :=
  fun tag bs h => slotBytes_length tag _ _ bs rfl (by simp) h
theorem SlotLength.recorderSet (chan : Byte) (baseA ceilA baseB ceilB : Addr) :
    SlotLength.Statement (.recorderSet chan baseA ceilA baseB ceilB) :=
  fun tag bs h => slotBytes_length tag _ _ bs rfl (by simp [leBytes, addrBytes]) h
theorem SlotLength.recordReturn (chan buffer : Byte) : SlotLength.Statement (.recordReturn chan buffer) :=
  fun tag bs h => slotBytes_length tag _ _ bs rfl (by simp) h
theorem SlotLength.query (kind index clear : Byte) (target : Addr) :
    SlotLength.Statement (.query kind index clear target) :=
  fun tag bs h => slotBytes_length tag _ _ bs rfl (by simp [leBytes, addrBytes]) h
theorem SlotLength.restart : SlotLength.Statement .restart :=
  fun tag bs h => slotBytes_length tag _ _ bs rfl (by simp) h
theorem SlotLength.commandPost (v : Word) : SlotLength.Statement (.commandPost v) :=
  fun _ _ h => by simp [slotBytes, slotFields] at h
theorem SlotLength.commandFetch : SlotLength.Statement .commandFetch :=
  fun _ _ h => by simp [slotBytes, slotFields] at h
theorem SlotLength.commandFetchResponse (error : Bool) (slot : Table 32 Byte) :
    SlotLength.Statement (.commandFetchResponse error slot) :=
  fun _ _ h => by simp [slotBytes, slotFields] at h
theorem SlotLength.eventConsumed (v : Word) : SlotLength.Statement (.eventConsumed v) :=
  fun _ _ h => by simp [slotBytes, slotFields] at h
theorem SlotLength.eventWriteResponse (k : Nat) (error : Bool) : SlotLength.Statement (.eventWriteResponse k error) :=
  fun _ _ h => by simp [slotBytes, slotFields] at h
theorem SlotLength.logConsumed (v : Word) : SlotLength.Statement (.logConsumed v) :=
  fun _ _ h => by simp [slotBytes, slotFields] at h
theorem SlotLength.signalWord (line : LineId) (w : Word) : SlotLength.Statement (.signalWord line w) :=
  fun _ _ h => by simp [slotBytes, slotFields] at h
theorem SlotLength.holdRecallExpiry (line : LineId) : SlotLength.Statement (.holdRecallExpiry line) :=
  fun _ _ h => by simp [slotBytes, slotFields] at h
theorem SlotLength.ringDelayExpiry (line : LineId) : SlotLength.Statement (.ringDelayExpiry line) :=
  fun _ _ h => by simp [slotBytes, slotFields] at h
theorem SlotLength.queueTimeoutExpiry (group : GroupId) : SlotLength.Statement (.queueTimeoutExpiry group) :=
  fun _ _ h => by simp [slotBytes, slotFields] at h
theorem SlotLength.talkLimitExpiry (group : GroupId) : SlotLength.Statement (.talkLimitExpiry group) :=
  fun _ _ h => by simp [slotBytes, slotFields] at h
theorem SlotLength.hangExpiry (group : GroupId) : SlotLength.Statement (.hangExpiry group) :=
  fun _ _ h => by simp [slotBytes, slotFields] at h
theorem SlotLength.frameInPulse (at_ : Nat) : SlotLength.Statement (.frameInPulse at_) :=
  fun _ _ h => by simp [slotBytes, slotFields] at h
theorem SlotLength.pulseWatchExpiry : SlotLength.Statement .pulseWatchExpiry :=
  fun _ _ h => by simp [slotBytes, slotFields] at h
theorem SlotLength.freewheelTimerExpiry : SlotLength.Statement .freewheelTimerExpiry :=
  fun _ _ h => by simp [slotBytes, slotFields] at h
theorem SlotLength.frameEventMix : SlotLength.Statement .frameEventMix :=
  fun _ _ h => by simp [slotBytes, slotFields] at h
theorem SlotLength.recorderFrames : SlotLength.Statement .recorderFrames :=
  fun _ _ h => by simp [slotBytes, slotFields] at h
theorem SlotLength.sessionSegment (chan : ChanId) : SlotLength.Statement (.sessionSegment chan) :=
  fun _ _ h => by simp [slotBytes, slotFields] at h
theorem SlotLength.frameWriteResponse (k : Nat) (error : Bool) : SlotLength.Statement (.frameWriteResponse k error) :=
  fun _ _ h => by simp [slotBytes, slotFields] at h
theorem SlotLength.logWriteResponse (k : Nat) (error : Bool) : SlotLength.Statement (.logWriteResponse k error) :=
  fun _ _ h => by simp [slotBytes, slotFields] at h
theorem SlotLength.controlWordWriteResponse (k : Nat) (error : Bool) :
    SlotLength.Statement (.controlWordWriteResponse k error) :=
  fun _ _ h => by simp [slotBytes, slotFields] at h
theorem SlotLength.snapshotWriteResponse (k : Nat) (error : Bool) :
    SlotLength.Statement (.snapshotWriteResponse k error) :=
  fun _ _ h => by simp [slotBytes, slotFields] at h
theorem SlotLength.statusWordWriteResponse (k : Nat) (error : Bool) :
    SlotLength.Statement (.statusWordWriteResponse k error) :=
  fun _ _ h => by simp [slotBytes, slotFields] at h
theorem SlotLength.configReadResponse (error : Bool) (data : List Byte) :
    SlotLength.Statement (.configReadResponse error data) :=
  fun _ _ h => by simp [slotBytes, slotFields] at h
theorem SlotLength.anchorWrite (v : Word) : SlotLength.Statement (.anchorWrite v) :=
  fun _ _ h => by simp [slotBytes, slotFields] at h
theorem SlotLength.timeSyncWord (w : BitVec 128) : SlotLength.Statement (.timeSyncWord w) :=
  fun _ _ h => by simp [slotBytes, slotFields] at h
theorem SlotLength.upstreamWrite (t : WriteTxn) : SlotLength.Statement (.upstreamWrite t) :=
  fun _ _ h => by simp [slotBytes, slotFields] at h
theorem SlotLength.upstreamRead (b : Burst) : SlotLength.Statement (.upstreamRead b) :=
  fun _ _ h => by simp [slotBytes, slotFields] at h
theorem SlotLength.outboundRead (b : Burst) : SlotLength.Statement (.outboundRead b) :=
  fun _ _ h => by simp [slotBytes, slotFields] at h
theorem SlotLength.passThroughResponse (k : Nat) (resp : Resp) (data : List (BitVec 64)) :
    SlotLength.Statement (.passThroughResponse k resp data) :=
  fun _ _ h => by simp [slotBytes, slotFields] at h
theorem SlotLength.downstreamGrant : SlotLength.Statement .downstreamGrant :=
  fun _ _ h => by simp [slotBytes, slotFields] at h
theorem SlotLength.powerOn (straps : BitVec 2) : SlotLength.Statement (.powerOn straps) :=
  fun _ _ h => by simp [slotBytes, slotFields] at h
theorem SlotLength.resetN (straps : BitVec 2) : SlotLength.Statement (.resetN straps) :=
  fun _ _ h => by simp [slotBytes, slotFields] at h
theorem SlotLength.indexWordWriteResponse (k : Nat) (error : Bool) :
    SlotLength.Statement (.indexWordWriteResponse k error) :=
  fun _ _ h => by simp [slotBytes, slotFields] at h

end Sys2Proof.Laws
end

