-- ==== Sys2Proof/Tests/Slice0.lean ====
section
/-! SUPPORT. Tests: ill-formed commands, one step of each command against values worked out in the spec, and for every statement with
hypotheses a state and operands that meet them. -/

namespace Sys2Proof.Tests

open Sys2Proof Sys2Proof.Machine

set_option Elab.async false

/-! ### Helpers -/

/-- The state a command leads to; the state itself where the command stops. -/
def after (c : Instr) (s : State) : State :=
  match exec c s with
  | .next t => t
  | .fault _ | .refused _ => s

/-- A part in RUNNING: the regions of 06 section 6.9 and 6.10, rings of 64 slots, a log of 16 records, clk_per_ms 100,000. -/
def base : State :=
  { State.reset with
    ld := { State.reset.ld with op := .running, expected := 9 }
    pu := { State.reset.pu with regions := ⟨some 0x200008000, some 0x300010000, some 0x200020000, some 0x200020800⟩ }
    cu := { State.reset.cu with cmdBase := 0x200030000, cmdSize := 64, evBase := 0x200040000, evSize := 64 }
    ru := { State.reset.ru with logBase := 0x200050000, logSize := 16 }
    ft := { State.reset.ft with clkPerMs := 100000, freeTimer := some 100000, watchTimer := some 300000 } }

/-- The command has been fetched and is in hand, under tag 7. -/
def inHand (c : Instr) (s : State) : State :=
  { s with cu := { s.cu with execution := .executing, inHand := some c, curTag := 7 } }

/-- A held command and the state after it. -/
def done (c : Instr) (s : State) : State := after c (inHand c s)

/-- The frame events have reached this number. -/
def atFrame (n : Word) (s : State) : State := { s with ft := { s.ft with counter := n } }

/-- A line's ring record with its counts: `shown` is presented. -/
def ringing (l : LineId) (r : RingRec) (s : State) : State :=
  (moveShown (r.phase == .recall) 0 r.shown ((s.setRing l (some r)).modLine l fun x => { x with state := .ringing }))

/-- The bytes 0 to 3 of the event slots asked for, in order. -/
def heads (s : State) : List (List Byte) :=
  s.pu.own.filterMap fun a => match a.purpose with
    | .eventSlot _ => some (a.data.take 4)
    | _ => none

/-- The status codes of the COMMAND_DONE events asked for. -/
def statuses (s : State) : List Byte := ((heads s).filter fun h => h.head? == some 1).map fun h => byteAt h 2

/-- A channel recording a subject since frame 100 as session 12. -/
def recording (x : Subject) (c : ChanId) (s : State) : State :=
  s.modChan c fun ch => { ch with
    state := .active, subject := some x,
    session := some ⟨12, none, x, c, 100, none, 5, none, [3], 0, 0, none, false⟩,
    bufA := ⟨0x1000, 0x1040, .part, 0x1000, none, none⟩, bufB := ⟨0x2000, 0x2040, .part, 0x2000, none, none⟩ }

/-- An access in flight. -/
def flying (a : OwnAccess) (s : State) : State := { s with pu := { s.pu with flight := [a] } }

/-! ### Ill-formed commands -/

def burst (addr : Addr) (beats : Nat) (kind : BurstType) : Burst := ⟨addr, beats, 3, kind, 0, 0, 0, false, 0⟩
def beat : Beat := ⟨0x0807060504030201, 255⟩

theorem test_burst_ends_at_4K : (Instr.upstreamRead (burst 0xFC0 8 .incr)).wellFormed = true := by decide
theorem test_burst_crosses_4K : (Instr.upstreamRead (burst 0xFC8 8 .incr)).wellFormed = false := by decide
theorem test_burst_without_beats : (Instr.outboundRead (burst 0 0 .incr)).wellFormed = false := by decide
theorem test_fixed_of_17_beats : (Instr.outboundRead (burst 0 17 .fixed)).wellFormed = false := by decide
theorem test_wrap_of_3_beats : (Instr.upstreamRead (burst 0 3 .wrap)).wellFormed = false := by decide
theorem test_wrap_misaligned : (Instr.upstreamRead (burst 4 4 .wrap)).wellFormed = false := by decide
theorem test_write_lacks_a_beat : (Instr.upstreamWrite ⟨burst 0 2 .incr, [beat]⟩).wellFormed = false := by decide
theorem test_strobe_outside_lanes : (Instr.upstreamWrite ⟨burst 4 1 .incr, [beat]⟩).wellFormed = false := by decide
theorem test_image_read_of_nothing : (Instr.configReadResponse false []).wellFormed = false := by decide
theorem test_image_read_too_long :
    (Instr.configReadResponse false (.replicate 2049 0)).wellFormed = false := by decide +kernel
theorem test_read_data_too_long :
    (Instr.passThroughResponse 0 .okay (.replicate 257 0)).wellFormed = false := by decide +kernel

/-! ### Lines: the worked sequence of 01 section 1.9 -/

/-- Line 14 IDLE on keys of positions 1, 3 and 5, REQUIRED, recall_time 30 s; of the recorder channels 2 alone is FREE. -/
def line14 : State :=
  let s := (((base.setKey 1 5 (some 14)).setKey 3 0 (some 14)).setKey 5 12 (some 14)).modLine 14 fun r =>
    { r with state := .idle, recallTime := 30000, policy := .required }
  { s with ru := { s.ru with channels := (Table.replicate 32 { Channel.reset with state := .draining }).set 2 .reset } }

/-- Line 14 rings in GENERAL at positions 1, 3 and 5. -/
def ring14 : State := ringing 14 ⟨.general, 0x2A, none, none⟩ line14

/-- Line 14 is CONNECTED to the handsets, recorded on channel 2. -/
def talk14 (owners : List Handset) : State :=
  let s := line14.modLine 14 fun r => { r with state := .connected, owners := owners, recorder := some 2 }
  recording (.line 14) 2 (owners.foldl (fun s h => bindHandset h 14 s) s)

theorem test_signal_word :
    let t := after (.signalWord 14 2) line14
    (t.line 14).state = .ringing ∧ (t.ring 14) = some ⟨.general, 0x2A, none, none⟩ ∧
      (heads t).take 2 = [[2, 14, 2, 0], [4, 14, 1, 255]] := by decide +kernel
theorem test_seize_answers :
    let t := done (.seize 3 0 14) ring14
    (t.line 14).state = .connected ∧ (t.line 14).owners = [⟨3, .left⟩] ∧ (t.line 14).recorder = some 2 ∧
      (t.chan 2).session.map (·.parties) = some [3] ∧ (t.handset ⟨3, .left⟩).binding = some 14 ∧
      (t.line 14).ctlPending = true ∧ (t.posRing 5).ringCount = 0 := by decide +kernel
theorem test_seize_joins :
    let t := done (.seize 5 1 14) (talk14 [⟨3, .left⟩])
    (t.line 14).owners = [⟨3, .left⟩, ⟨5, .right⟩] ∧ (t.chan 2).session.map (·.parties) = some [3, 5] ∧
      heads t = [[1, 0, 0, 0]] := by decide +kernel
theorem test_privacy :
    let t := done (.privacy 3 0 1) (talk14 [⟨3, .left⟩, ⟨5, .right⟩])
    (t.line 14).privacy = true ∧ statuses (done (.seize 1 0 14) { t with pu := base.pu }) = [9] := by decide +kernel
theorem test_release :
    let t := done (.release 3 0) (talk14 [⟨3, .left⟩, ⟨5, .right⟩])
    (t.line 14).owners = [⟨5, .right⟩] ∧ (t.line 14).state = .connected ∧
      (t.handset ⟨3, .left⟩).binding = none := by decide +kernel
theorem test_release_of_last_owner :
    let t := done (.release 5 1) (talk14 [⟨5, .right⟩])
    (t.line 14).state = .idle ∧ (t.line 14).recorder = none ∧ (t.chan 2).state = .draining ∧
      (t.chan 2).closeRecord.map (·.cause) = some (some .released) := by decide +kernel
theorem test_hold_at_81200 :
    let t := done (.hold 5 1) (atFrame 81200 (talk14 [⟨5, .right⟩]))
    (t.line 14).state = .held ∧ (t.line 14).owners = [] ∧ (t.line 14).heldBy = some 5 ∧
      (t.line 14).recallDeadline = some 111200 := by decide +kernel

/-- Line 14 is HELD by position 5 with its recall due at frame 111,200. -/
def hold14 : State :=
  line14.modLine 14 fun r => { r with state := .held, heldBy := some 5, recallDeadline := some 111200 }

theorem test_hold_recall :
    let t := after (.holdRecallExpiry 14) (atFrame 111200 hold14)
    (t.ring 14) = some ⟨.recall, 0x20, none, some 5⟩ ∧ (t.line 14).heldBy = none ∧
      heads t = [[8, 14, 5, 0], [2, 14, 2, 5], [4, 14, 2, 5], [7, 5, 1, 0]] := by decide +kernel
theorem test_hold_recall_not_due :
    ((after (.holdRecallExpiry 14) (atFrame 111199 hold14)).line 14).state = .held := by decide +kernel
theorem test_force_clear :
    let t := done (.forceClear 14) (talk14 [⟨5, .right⟩])
    (t.line 14).state = .idle ∧ (t.handset ⟨5, .right⟩).binding = none ∧
      heads t = [[2, 14, 1, 9], [1, 0, 0, 0]] := by decide +kernel
theorem test_line_service :
    let t := done (.lineService 9 1) (base.modLine 9 fun r => { r with ringInd := .ringing })
    heads t = [[2, 9, 1, 11], [2, 9, 2, 0], [4, 9, 1, 255], [1, 0, 0, 0]] := by decide +kernel
theorem test_line_set_clamps :
    let t := done (.lineSet 95 1 25 7 101 2 9) base
    (t.line 95).type = .dial ∧ (t.line 95).pad = 24 ∧ (t.line 95).preferred = some 7 ∧
      (t.line 95).ringDelay = 10000 ∧ (t.line 95).recallTime = 10000 ∧ (t.line 95).policy = .required := by decide +kernel
theorem test_line_set_index : statuses (done (.lineSet 96 0 0 255 0 0 0) base) = [19] := by decide +kernel
theorem test_handset_set :
    let t := done (.handsetSet 7 1 73 25) base
    t.handset ⟨7, .right⟩ = ⟨none, 72, 24⟩ ∧ t.handset ⟨7, .left⟩ = ⟨none, 0, 0⟩ := by decide +kernel

/-! ### Rings: the worked sequence of 02 section 2.11 -/

/-- Line 30 on the maps of positions 2, 4 and 6, rings in PREFERRED at position 2 until frame 52,000; line 31 at 4 and 6. -/
def ring30 : State :=
  let s := ((base.setKey 2 0 (some 30)).setKey 4 0 (some 30)).setKey 6 1 (some 30)
  ringing 30 ⟨.preferred, 0x04, some 52000, none⟩ (ringing 31 ⟨.general, 0x50, none, none⟩ s)

theorem test_appear_set :
    let t := done (.appearSet 7 3 30) ring30
    (t.map 7).get 3 = some 30 ∧ t.ring 30 = some ⟨.preferred, 0x04, some 52000, none⟩ := by decide +kernel
theorem test_appear_set_removes :
    let t := done (.appearSet 2 0 255) ring30
    (t.map 2).get 0 = none ∧ t.ring 30 = some ⟨.general, 0x50, none, none⟩ ∧ t.posRing 2 = ⟨0, 0, false⟩ := by decide +kernel
theorem test_ring_delay :
    let t := after (.ringDelayExpiry 30) { atFrame 52000 (ring30.setKey 7 3 (some 30)) with pu := base.pu }
    t.ring 30 = some ⟨.general, 0xD4, none, none⟩ ∧ (t.posRing 2).ringCount = 1 ∧ (t.posRing 4).ringCount = 2 ∧
      (t.posRing 7).alert = true ∧ heads t = [[5, 30, 1, 0], [7, 7, 1, 0]] := by decide +kernel

/-! ### Groups: the worked sequence of 03 section 3.10 -/

/-- Group 6 with members 0 to 4, two places, REQUIRED; position 4 is a supervisor; session on channel 5. -/
def group6 (holders queue : List FloorEntry) : State :=
  let s := base.modGroup 6 fun r => { r with
    members := 0x1F, maxTalkers := 2, queueTimeout := 5000, talkLimit := 60000, policy := .required, hangTime := 5000,
    holders := holders, queue := queue, recorder := some 5 }
  recording (.group 6) 5 { s with mp := { s.mp with settings := s.mp.settings.set 4 ⟨0, 0, 0, 0, true⟩ } }

def waiting6 : List FloorEntry := [⟨3, false, some 205200⟩, ⟨0, false, some 205300⟩]

theorem test_talk_queues :
    let t := done (.talk 3 6)
      (atFrame 200200 (group6 [⟨1, false, some 260000⟩, ⟨2, false, some 260100⟩] []))
    (t.group 6).queue = [⟨3, false, some 205200⟩] ∧ statuses t = [2] := by decide +kernel
theorem test_talk_preempts :
    let t := done (.talk 4 6)
      (atFrame 201000 (group6 [⟨1, false, some 260000⟩, ⟨2, false, some 260100⟩] waiting6))
    (t.group 6).holders = [⟨2, false, some 260100⟩, ⟨4, true, some 261000⟩] ∧ (t.group 6).queue = waiting6 ∧
      heads t = [[11, 6, 1, 0], [9, 6, 4, 0], [1, 0, 0, 0]] := by decide +kernel
theorem test_queue_timeout :
    let t := after (.queueTimeoutExpiry 6) (atFrame 205200 (group6 [] waiting6))
    (t.group 6).queue = [⟨0, false, some 205300⟩] ∧ heads t = [[10, 6, 3, 0]] := by decide +kernel
theorem test_talk_end :
    let t := done (.talkEnd 2 6) (atFrame 205250
      (group6 [⟨2, false, some 260100⟩, ⟨4, true, some 261000⟩] [⟨0, false, some 205300⟩]))
    (t.group 6).holders = [⟨4, true, some 261000⟩, ⟨0, false, some 265250⟩] ∧ (t.group 6).queue = [] ∧
      (t.chan 5).session.map (·.parties) = some [3, 0] := by decide +kernel
theorem test_talk_end_of_last : ((done (.talkEnd 4 6) (atFrame 210000 (group6 [⟨4, true, none⟩] []))).group 6).hangDeadline =
    some 215000 := by decide +kernel
theorem test_talk_limit :
    let t := after (.talkLimitExpiry 6) (atFrame 260000 (group6 [⟨1, false, some 260000⟩] []))
    (t.group 6).holders = [] ∧ (t.group 6).hangDeadline = some 265000 ∧ heads t = [[11, 6, 1, 1]] := by decide +kernel
theorem test_hang :
    let t := after (.hangExpiry 6)
      (atFrame 219000 ((group6 [] []).modGroup 6 fun r => { r with hangDeadline := some 219000 }))
    (t.group 6).recorder = none ∧ (t.chan 5).state = .draining := by decide +kernel

/-- max_talkers lowered from 3 to 2 while the oldest of three holders loses membership revokes that one alone (03 section 3.6). -/
def args6 : GroupArgs := ⟨0x1E, 0, 0, 0, 2, 50, 60, 2, 5⟩

theorem test_group_set :
    let t := done (.groupSet 6 args6)
      ((group6 [⟨0, false, none⟩, ⟨1, false, none⟩, ⟨2, false, none⟩] []).modGroup 6 fun r => { r with maxTalkers := 3 })
    (t.group 6).holders = [⟨1, false, none⟩, ⟨2, false, none⟩] ∧ (t.group 6).queueTimeout = 5000 ∧
      heads t = [[11, 6, 0, 2], [1, 0, 0, 0]] := by decide +kernel

/-! ### Speaker channels, settings, the recorder, QUERY, RESTART -/

theorem test_position_set : (done (.positionSet 7 25 24 73 72 1) base).settings 7 = ⟨24, 24, 72, 72, true⟩ := by decide +kernel
theorem test_speaker_set : ((done (.speakerSet 1 11 1 14 3 73) line14).speakers 1).get 11 =
    ⟨some (.line 14), .right, 72, true⟩ := by decide +kernel
theorem test_recorder_set :
    let t := done (.recorderSet 31 0x1000 0x1020 0x2000 0x2040) base
    (t.chan 31).bufA = ⟨0x1000, 0x1020, .part, 0x1000, none, none⟩ ∧
      (t.chan 31).bufB = ⟨0x2000, 0x2040, .part, 0x2000, none, none⟩ := by decide +kernel
theorem test_record_return :
    let t := done (.recordReturn 4 1) (base.modChan 4 fun c => { c with
      bufA := ⟨0x1000, 0x1040, .host, 0x1040, some 3, some 9⟩, bufB := ⟨0x2000, 0x2040, .host, 0x2020, some 5, some 9⟩,
      overflowing := true })
    (t.chan 4).bufB = ⟨0x2000, 0x2040, .part, 0x2000, none, none⟩ ∧ (t.chan 4).current = .bufB ∧
      (t.chan 4).overflowing = false := by decide +kernel
theorem test_query_clears :
    let t := done (.query 0 9 1 0x1000) (base.modLine 9 fun r => { r with missed := 3 })
    (t.line 9).missed = 0 ∧ t.pu.own.map (fun a => (a.addr, a.data.length)) = [(0x1000, 64)] ∧
      t.cu.execution = .executing := by decide +kernel
/-- R189: the block of a channel without a record, and the end fields of an open session. -/
theorem test_recorder_snapshot :
    (recorderSnapshot base 0).drop 128 =
      .replicate 4 255 ++ .replicate 4 0 ++ .replicate 6 255 ++ [0, 0] ++ .replicate 36 255 ++ .replicate 12 0 ∧
    ((recorderSnapshot (recording (.line 14) 2 base) 2).drop 156).take 4 = .replicate 4 255 := by decide +kernel
theorem test_restart :
    let t := done .restart (talk14 [⟨5, .right⟩])
    (t.line 14).state = .idle ∧ (t.handset ⟨5, .right⟩).binding = none ∧ (t.chan 2).state = .draining := by decide +kernel

/-! ### The rings: the worked sequence of 09 section 9.7 -/

/-- Event ring full at 1,000 over 936, so many events waiting, 499 commands taken. -/
def full (waiting : Nat) (lost : Word) : State :=
  { base with cu := { base.cu with
    posted := 499, taken := 499, evProduced := 1000, evConsumed := 936, lost := lost,
    backlog := .replicate waiting (.clockLost 1) } }

theorem test_event_consumed :
    let t := after (.eventConsumed 940) (full 32 2)
    t.cu.evProduced = 1004 ∧ t.cu.backlog.length = 28 ∧ t.cu.lost = 2 ∧
      t.pu.own.map (·.addr) = [0x200040280, 0x200040290, 0x2000402A0, 0x2000402B0] := by decide +kernel
theorem test_lost_marker :
    let t := post (.clockLost 9) { full 28 2 with cu := { (full 28 2).cu with evConsumed := 940, evProduced := 1004 } }
    t.cu.backlog.drop 28 = [.eventsLost 2, .clockLost 9] ∧ t.cu.lost = 0 := by decide +kernel
theorem test_command_post : (after (.commandPost 500) (full 29 0)).cu.posted = 500 := by decide +kernel
theorem test_command_post_fault :
    let t := after (.commandPost 564) { base with cu := { base.cu with taken := 499, posted := 499 } }
    t.cu.posted = 499 ∧ heads t = [[20, 0, 0, 0]] := by decide +kernel
theorem test_command_fetch :
    let t := after (.commandFetch) { base with cu := { base.cu with taken := 499, posted := 500 } }
    t.cu.execution = .fetching ∧ t.pu.own.map (·.addr) = [0x200030660] := by decide +kernel
theorem test_command_fetch_waits :
    (after .commandFetch { full 29 0 with cu := { (full 29 0).cu with posted := 500 } }).cu.execution = .idle := by decide +kernel

/-- The slot of SEIZE(3, LEFT, 14) with tag 7 (R187). -/
def seizeSlot : Table 32 Byte := ⟨[7, 0, 0, 0, 4, 0, 0, 0, 3, 0, 14] ++ .replicate 21 0, by decide⟩

/-- A fetch is in flight. -/
def fetching : State :=
  flying ⟨.commandFetch, 0x200030660, [], 0⟩ { base with cu := { base.cu with execution := .fetching, posted := 1 } }

theorem test_command_fetch_response :
    let t := after (.commandFetchResponse false seizeSlot) fetching
    t.cu.inHand = some (.seize 3 0 14) ∧ t.cu.curTag = 7 ∧ t.cu.execution = .executing := by decide +kernel
theorem test_command_fetch_error :
    let t := after (.commandFetchResponse true seizeSlot) fetching
    statuses t = [21] ∧ t.cu.taken = 1 ∧ t.cu.fault.first.map (·.kind) = some .commandFetch := by decide +kernel
theorem test_event_write_response :
    let t := after (.eventWriteResponse 0 false)
      (flying ⟨.eventSlot 4, 0x200040040, [], 0⟩ { base with cu := { base.cu with evProduced := 5 } })
    t.pu.own = [⟨.eventProduced 5, 0x200020808, [5, 0, 0, 0], 0⟩] := by decide +kernel
theorem test_index_word_response :
    let t := after (.indexWordWriteResponse 0 true)
      (flying ⟨.commandTaken 1, 0x200020804, [], 0⟩ base)
    t.cu.fault.count = 1 ∧ heads t = [[19, 1, 2, 0]] := by decide +kernel

/-! ### The recorder: 08 sections 8.3 to 8.9 -/

/-- Channels 4 and 9 hold close records that wait for room; the log holds 40 − 24 of 16 records. -/
def fullLog : State :=
  let held (ch : Channel) : Channel := { ch with
    state := .draining, subject := some (.line 1), closeDone := true,
    closeRecord := some ⟨298, none, .line 1, 4, 0, some 13, 0, some 0, [6], 10, 3, some .released, false⟩ }
  let s := (base.modChan 4 held).modChan 9 held
  { s with ru := { s.ru with produced := 40, consumed := 24 } }

theorem test_log_consumed :
    let t := after (.logConsumed 25) fullLog
    t.ru.produced = 41 ∧ (t.chan 4).placed = some 40 ∧ (t.chan 9).placed = none ∧
      t.pu.own.map (·.addr) = [0x200050200] := by decide +kernel
theorem test_log_write_response :
    let t := after (.logWriteResponse 0 false)
      (flying ⟨.logProduced 41, 0x200020810, [], 0⟩ (fullLog.modChan 4 fun c => { c with placed := some 40 }))
    (t.chan 4).state = .free ∧ (t.chan 9).state = .draining := by decide +kernel

/-- Channel 3 records line 14 and the frames of event 101 have been handed over. -/
def framed : State :=
  let s := recording (.line 14) 3 base
  { s with ru := { s.ru with inbox := [⟨101, .replicate 32 silence⟩] } }

theorem test_recorder_frames :
    let t := after .recorderFrames framed
    (t.chan 3).bufA = ⟨0x1000, 0x1040, .part, 0x1020, some 101, some 12⟩ ∧
      (t.chan 3).session.map (·.written) = some 1 ∧ t.pu.own.map (·.addr) = [0x1000] := by decide +kernel
theorem test_recorder_frames_lost :
    let t := after .recorderFrames
      (framed.modChan 3 fun c => { c with bufA := { c.bufA with owner := .host } })
    (t.chan 3).session.map (·.lost) = some 1 ∧ (t.chan 3).overflowing = true ∧ heads t = [[14, 3, 0, 0]] := by decide +kernel
/-- Channel 3's segment of 1 minute is due at the recorder frames that wait, those of event 60,100. -/
def segmented : State :=
  { framed with ru := { framed.ru with
    segLen := 60000, frameNo := 60099, nextSession := 13, inbox := [⟨60100, .replicate 32 silence⟩] } }

theorem test_session_segment :
    let t := after (.sessionSegment 3) segmented
    (t.chan 3).session.map (·.number) = some 13 ∧ (t.chan 3).session.map (·.previous) = some (some 12) ∧
      t.ru.produced = 1 ∧ t.ru.frameNo = 60100 := by decide +kernel
/-- R141: room that appears between two frame events does not cut a pending segment. -/
theorem test_pending_segment_waits :
    let t := after (.sessionSegment 3)
      ({ segmented with ru := { segmented.ru with frameNo := 60100, inbox := [] } }.modChan 3 fun c =>
        { c with segPending := true })
    (t.chan 3).session.map (·.number) = some 12 ∧ t.ru.produced = 0 := by decide +kernel
theorem test_frame_write_error :
    let t := after (.frameWriteResponse 0 true)
      (flying ⟨.frameWrite 3 .bufA 101 12, 0x1000, [], 0⟩ (framed.modChan 3 fun c => { c with
        outstanding := 1, session := c.session.map fun x => { x with written := 1 } }))
    (t.chan 3).outstanding = 0 ∧ (t.chan 3).session.map (fun x => (x.written, x.lost)) = some (0, 1) ∧
      heads t = [[19, 1, 0, 0]] := by decide +kernel

/-! ### Frame clock and floor time: 07 section 7.9 and R177 -/

/-- Pulses are followed (LOCKED) at frame 5,000. -/
def locked : State :=
  { base with ft := { base.ft with
    watch := .locked, freeTimer := none, counter := 5000, clock := 900000, watchTimer := some 1200000 } }

theorem test_pulse :
    let t := after (.frameInPulse 1000000) locked
    t.ft.counter = 5001 ∧ t.me.waiting = [5001] ∧ t.ft.watchTimer = some 1300000 := by decide +kernel
theorem test_eighth_good_pulse :
    let t := after (.frameInPulse 195000)
      { base with ft := { base.ft with refPulse := some 100000, good := 7 } }
    t.ft.watch = .locked ∧ t.ft.counter = 1 ∧ t.ft.freeTimer = none ∧ heads t = [[16, 0, 0, 0]] := by decide +kernel
theorem test_pulse_watch :
    let t := after .pulseWatchExpiry locked
    t.ft.watch = .freewheel ∧ t.ft.counter = 5001 ∧ t.ft.clockLosses = 1 ∧ t.ft.freeTimer = some 1300000 ∧
      heads t = [[15, 0, 0, 0]] := by decide +kernel
theorem test_freewheel :
    let t := after .freewheelTimerExpiry base
    t.ft.counter = 1 ∧ t.ft.floor = 0 ∧ t.ft.freeTimer = some 200000 := by decide +kernel
theorem test_time_sync_third_mismatch :
    let t := after (.timeSyncWord 50)
      { base with ft := { base.ft with timeSet := .set, floor := 40, mismatches := 2 } }
    t.ft.floor = 50 ∧ t.ft.mismatches = 0 ∧ t.ft.syncMismatch = 1 ∧ heads t = [[17, 2, 0, 0]] := by decide +kernel
theorem test_time_sync_first_mismatch : (after (.timeSyncWord 42)
    { base with ft := { base.ft with timeSet := .set, floor := 40 } }).ft.floor = 40 := by decide +kernel

/-! ### Audio: 05 sections 5.9 to 5.12 -/

theorem test_enter_bus : enterBus 12000 6 = 6014 ∧ enterBus (-9000) 0 = -9000 ∧ roundGain (6014 * gain 3) = 4258 := by decide
theorem test_loud_bus : saturate 110000 = 32767 ∧ clips 110000 = true ∧ roundGain (80000 * gain 12) = 20093 := by decide
theorem test_concealment : halve (-7) = -4 := by decide
theorem test_tone_phase : nextPhase ⟨.replicate 32 0, 3, 2⟩ 2 = 3 ∧ nextPhase ⟨.replicate 32 0, 3, 2⟩ 4 = 0 := by decide

/-- Line 7 CONNECTED to (2, LEFT), its source late at frame event 502. -/
def late : State :=
  let s := bindHandset ⟨2, .left⟩ 7 (base.modLine 7 fun r => { r with state := .connected, owners := [⟨2, .left⟩], pad := 6 })
  { s with me := { s.me with
    waiting := [502], last := s.me.last.set 7 ⟨.captured, .replicate 16 (-7)⟩, underrun := s.me.underrun.set 7 40 } }

theorem test_frame_event :
    let t := after .frameEventMix late
    (t.me.last.get 7).kind = .concealed ∧ t.me.underrun.get 7 = 41 ∧ t.me.waiting = [] := by decide +kernel

/-! ### The memory path: 06 sections 6.9 and 6.10 -/

theorem test_upstream_write :
    let t := after (.upstreamWrite ⟨burst 0x20000E6A0 4 .incr, .replicate 4 beat⟩) base
    (t.pu.queues.get 102).length = 1 ∧ (t.pu.totals.get 102).captured = 1 ∧
      t.pu.assembly.get 102 = Assembly.empty ∧ t.pu.passWaiting.length = 1 := by decide +kernel
/-- The word is handed on whole; then its byte 1 alone is written, and the other bytes stay. -/
theorem test_upstream_write_hands_post :
    let t := after (.upstreamWrite ⟨burst 0x200020800 1 .incr, [⟨500, 15⟩]⟩) base
    t.handed = [.commandPost 500] ∧
      (after (.upstreamWrite ⟨burst 0x200020800 1 .incr, [⟨0xFFFFAAFF, 2⟩]⟩) t).handed =
        [.commandPost 500, .commandPost 0xAAF4] := by decide +kernel

/-- Listener 104 holds frame 1,003. -/
def stored : State :=
  { base with pu := { base.pu with store := base.pu.store.set 104 [⟨1003, .replicate 16 0x0201⟩] } }

theorem test_outbound_read : (after (.outboundRead (burst 0x300016868 1 .incr)) stored).pu.answer =
    some (.outbound (burst 0x300016868 1 .incr) [1, 2, 1, 2, 1, 2, 1, 2]) := by decide +kernel
theorem test_outbound_read_unheld :
    let t := after (.outboundRead (burst 0x300016880 4 .incr)) stored
    t.pu.unheld.get 104 = 1 ∧ t.pu.answer = some (.outbound (burst 0x300016880 4 .incr) (.replicate 32 0)) := by decide +kernel
theorem test_upstream_read_is_forwarded : (after (.upstreamRead (burst 0x1000 4 .incr)) stored).pu.passWaiting =
    [.read (burst 0x1000 4 .incr)] := by decide +kernel
theorem test_pass_through_response :
    let t := after (.passThroughResponse 0 .slverr []) { base with pu := { base.pu with passFlight := [.read (burst 0 1 .incr)] } }
    t.pu.answer = some (.forwarded (.read (burst 0 1 .incr)) .slverr []) ∧ t.pu.passFlight = [] ∧
      t.cu.fault.count = 0 := by decide +kernel
theorem test_grant_takes_line_control :
    let t := after .downstreamGrant { line14 with
      lc := { line14.lc with lines := line14.lc.lines.modify 14 fun r => { r with state := .held, ctlPending := true } }
      pu := { line14.pu with own := [⟨.commandTaken 1, 0x200020804, [1, 0, 0, 0], 0⟩, ⟨.lineControl 14, 0x200020438, [], 0⟩] } }
    t.pu.flight.map (·.purpose) = [.commandTaken 1] ∧
      (after .downstreamGrant t).pu.flight.map (·.data) = [[1, 0, 0, 0], [1, 0, 0, 0]] ∧
      ((after .downstreamGrant t).line 14).ctlPending = false := by decide +kernel
theorem test_control_word_response :
    let t := after (.controlWordWriteResponse 0 true)
      (flying ⟨.lineControl 14, 0x200020438, [1, 0, 0, 0], 0⟩ base)
    t.pu.flight = [] ∧ heads t = [[19, 1, 3, 0]] := by decide +kernel
theorem test_snapshot_response :
    let t := after (.snapshotWriteResponse 0 false)
      (flying ⟨.snapshot, 0x1000, [], 0⟩ (inHand (.query 0 9 0 0x1000) base))
    statuses t = [0] ∧ t.cu.execution = .idle := by decide +kernel

/-! ### Start-up: 10 sections 10.1 to 10.5 -/

theorem test_anchor_write :
    let t := after (.anchorWrite 0x1000) State.reset
    t.ld.op = .loading ∧ t.ld.image = 0x10000 ∧
      t.pu.own = [⟨.statusWord .loading, 0x104, [1, 0, 0, 0, 0, 0, 0, 0], 0⟩, ⟨.imageRead, 0x10000, [], 0⟩] := by decide +kernel

/-- The loader waits for the image's bytes, expecting section `n`. -/
def loading (n : Nat) (s : State) : State :=
  flying ⟨.imageRead, 0x10000, [], 0⟩ { s with ld := { s.ld with op := .loading, image := 0x10000, expected := n } }

theorem test_wrong_section :
    let t := after (.configReadResponse false [2, 0, 0, 0, 56, 0, 0, 0]) (loading 1 State.reset)
    t.ld.op = .configFault ∧ t.cu.fault.first.map (·.code) = some .badSection := by decide +kernel
theorem test_end_section :
    let t := after (.configReadResponse false [9, 0, 0, 0, 8, 0, 0, 0]) (loading 9 State.reset)
    t.running = true ∧ (t.line 0).ctlPending = true ∧ t.ft.freeTimer = some 0 := by decide +kernel
theorem test_status_word_error :
    let t := after (.statusWordWriteResponse 0 true)
      (flying ⟨.statusWord .loading, 0x104, [], 0⟩ State.reset)
    t.ld.op = .transparent ∧ t.cu.fault.asserted = true ∧ heads t = [] := by decide +kernel

/-- A part with a recorded fault. -/
def faulted : State :=
  { base with cu := { base.cu with fault := ⟨some ⟨.memoryError, .frameWrite, 0x1000⟩, 3, true, .memoryError⟩ } }

theorem test_power_on :
    let t := after (.powerOn 2) faulted
    t.ld.op = .transparent ∧ t.ld.sel = 2 ∧ t.cu.fault.first = none := by decide +kernel
theorem test_reset_pin :
    let t := after (.resetN 1) faulted
    t.running = false ∧ t.cu.fault.count = 3 ∧ t.cu.fault.asserted = true ∧ t.ru.nextSession = 1 := by decide +kernel

/-! ### A part in the middle of its work, in which every law holds -/

/-- Every handset. -/
def handsets : List Handset := (List.finRange 8).flatMap fun p => [⟨p, .left⟩, ⟨p, .right⟩]

theorem mem_handsets (h : Handset) : h ∈ handsets := by
  obtain ⟨p, x⟩ := h
  cases x <;> simp [handsets]

/-- The line laws, evaluated. -/
def linesOk (s : State) : Bool :=
  (List.finRange 96).all fun l =>
    let r := s.line l
    handsets.all (fun h => decide ((s.handset h).binding = some l ↔ h ∈ r.owners)) &&
      decide (r.owners.Nodup ∧ (r.owners ≠ [] ↔ r.state = .connected) ∧ r.owners.length ≤ Config.ownerPlaces ∧
        (r.heldBy.isSome = true ↔ r.state = .held) ∧ (r.recallDeadline.isSome = true → r.state = .held) ∧
        (r.group.isSome = true ↔ r.state = .bridged) ∧ ((s.ring l).isSome = true ↔ r.state = .ringing) ∧
        r.missed ≤ Config.missedMax ∧ (s.running = false → r.state = .idle ∨ r.state = .outOfService))

theorem lineLaw_of {s : State} (h : linesOk s = true) : LineLaw s := by
  simp only [linesOk, List.all_eq_true, List.mem_finRange, true_implies, Bool.and_eq_true, decide_eq_true_eq] at h
  exact {
    bound := fun k l => (h l).1 k (mem_handsets k)
    once := fun l => (h l).2.1
    owned := fun l => (h l).2.2.1
    places := fun l => (h l).2.2.2.1
    held := fun l => (h l).2.2.2.2.1
    timed := fun l => (h l).2.2.2.2.2.1
    bridged := fun l => (h l).2.2.2.2.2.2.1
    rings := fun l => (h l).2.2.2.2.2.2.2.1
    missed := fun l => (h l).2.2.2.2.2.2.2.2.1
    outside := fun hr l => (h l).2.2.2.2.2.2.2.2.2 hr }

/-- Line 14 is CONNECTED to (3, LEFT) and recorded on channel 2, line 30 rings in GENERAL at positions 4 and 6, line 20 is HELD by
position 1, line 80 is BRIDGED in group 3, where position 0 holds the only place and position 1 waits; source 7 has a frame queued;
two events wait behind a full ring; a signal word waits in the queue. -/
def live : State :=
  let s := bindHandset ⟨3, .left⟩ 14 (base.modLine 14 fun r =>
    { r with state := .connected, owners := [⟨3, .left⟩], recorder := some 2 })
  let s := ringing 30 ⟨.general, 0x50, none, none⟩ (recording (.line 14) 2 s)
  let s := s.modLine 20 fun r => { r with state := .held, heldBy := some 1, recallDeadline := some 900 }
  let s := s.modLine 80 fun r => { r with state := .bridged, type := .hoot, group := some 3 }
  let s := s.modGroup 3 fun r => { r with
    members := 0x03, hootLines := [80], holders := [⟨0, false, none⟩], queue := [⟨1, false, none⟩] }
  { s with
    cu := { s.cu with evProduced := 70, evConsumed := 6, backlog := [.clockLost 5, .clockRestored 9] }
    pu := { s.pu with
      queues := s.pu.queues.set 7 [silence], totals := s.pu.totals.set 7 ⟨1, 0, 0, 0, 0, 0, 0, 0, 0⟩,
      store := s.pu.store.set 7 [⟨1, silence⟩, ⟨2, silence⟩, ⟨3, silence⟩, ⟨4, silence⟩] }
    pending := [.signalWord 14 1] }

theorem live_lines : LineLaw live := lineLaw_of (by decide +kernel)
theorem live_events : EventLaw live :=
  ⟨by decide +kernel, by decide +kernel, by decide +kernel, by decide +kernel, by decide +kernel⟩
theorem live_audio : AudioLaw live := ⟨by decide +kernel, by decide +kernel, by decide +kernel, by decide +kernel⟩
theorem live_alerts : AlertLaw live := ⟨by decide +kernel, by decide +kernel, by decide +kernel⟩
theorem live_floor : FloorLaw live :=
  ⟨by decide +kernel, by decide +kernel, by decide +kernel, by decide +kernel,
    by unfold State.onFloor; decide +kernel, by decide +kernel, by unfold State.onFloor; decide +kernel, by decide +kernel⟩
theorem live_hoots : HootLaw live :=
  ⟨by decide +kernel, by decide +kernel, by decide +kernel, by decide +kernel, by decide +kernel, by decide +kernel,
    by decide +kernel⟩
theorem live_recorder : RecorderLaw live := fun c =>
  ⟨by revert c; decide +kernel, by revert c; decide +kernel, by revert c; decide +kernel, by revert c; decide +kernel⟩
theorem live_steps : ∃ t, step live = .next t := ⟨_, rfl⟩

/-! ### States and operands that meet the hypotheses of the statements (Certificates/Slice0/Obligations.lean) -/

theorem witness_StepTakesFrontCommand : live.pending = .signalWord 14 1 :: [] := rfl
theorem witness_EveryCommandGoesOn : (Instr.upstreamRead (burst 0xFC0 8 .incr)).wellFormed = true ∧
    exec (.upstreamRead (burst 0xFC8 8 .incr)) live = .fault .malformedBurst := ⟨by decide, rfl⟩
theorem witness_StepKeepsEventLaw : EventLaw live ∧ ∃ t, step live = .next t := ⟨live_events, live_steps⟩
theorem witness_StepKeepsAudioLaw : AudioLaw live ∧ ∃ t, step live = .next t := ⟨live_audio, live_steps⟩
theorem witness_StepKeepsLineLaw : LineLaw live ∧ ∃ t, step live = .next t := ⟨live_lines, live_steps⟩
theorem witness_StepKeepsAlertLaw : LineLaw live ∧ AlertLaw live ∧ ∃ t, step live = .next t :=
  ⟨live_lines, live_alerts, live_steps⟩
theorem witness_StepKeepsFloorLaw : FloorLaw live ∧ ∃ t, step live = .next t := ⟨live_floor, live_steps⟩
theorem witness_StepKeepsHootLaw : LineLaw live ∧ HootLaw live ∧ ∃ t, step live = .next t :=
  ⟨live_lines, live_hoots, live_steps⟩
theorem witness_StepKeepsRecorderLaw : RecorderLaw live ∧ ∃ t, step live = .next t := ⟨live_recorder, live_steps⟩
theorem witness_OnlyPowerOnForgetsFaults : (∃ t, exec (.resetN 1) faulted = .next t) ∧
    (∀ straps, Instr.resetN 1 ≠ .powerOn straps) ∧
    faulted.cu.fault.first = some ⟨.memoryError, .frameWrite, 0x1000⟩ := ⟨⟨_, rfl⟩, nofun, rfl⟩
theorem witness_OnlyResetsLeaveRunning : (∃ t, exec .commandFetch live = .next t) ∧
    (∀ straps, Instr.commandFetch ≠ .powerOn straps ∧ Instr.commandFetch ≠ .resetN straps) ∧ live.running = true :=
  ⟨⟨_, rfl⟩, fun _ => ⟨nofun, nofun⟩, by decide +kernel⟩

/-- One place left in the ring; the last place of the backlog; the ring full and 31 places to keep; no place for two. -/
theorem witness_EventIsAdmittedOrCounted :
    (let s := { base with cu := { base.cu with evProduced := 63 } }
     s.cu.backlog = [] ∧ s.cu.lost = 0 ∧ (s.cu.evProduced - s.cu.evConsumed).toNat < s.cu.evSize) ∧
    (let s := full 31 0
     s.cu.backlog ≠ [] ∧ s.cu.lost = 0 ∧ 0 + 1 + 0 ≤ 32 - s.cu.backlog.length) ∧
    (let s := full 0 0
     s.cu.backlog = [] ∧ ¬(s.cu.evProduced - s.cu.evConsumed).toNat < s.cu.evSize ∧ 0 + 1 + 31 ≤ 32 - s.cu.backlog.length) ∧
    (let s := full 31 2
     s.cu.backlog ≠ [] ∧ s.cu.lost ≠ 0 ∧ ¬1 + 1 + 0 ≤ 32 - s.cu.backlog.length) := by decide +kernel
/-- The ring is full and 30 events wait. -/
theorem witness_CompletionIsNeverLost : EventLaw (inHand .restart (full 30 0)) ∧
    (inHand .restart (full 30 0)).cu.execution ≠ .idle :=
  ⟨⟨by decide +kernel, by decide +kernel, by decide +kernel, by decide +kernel, by decide +kernel⟩, by decide +kernel⟩
/-- Each argument at the first value out of range. -/
theorem witness_BadArgumentsAreAnswered :
    (inHand (.seize 8 0 0) live).holds (.seize 8 0 0) = true ∧
    (BadArgs (.lineSet 96 0 0 0 0 0 0) ∧ BadArgs (.lineSet 0 3 0 0 0 0 0) ∧ BadArgs (.lineSet 0 0 0 8 0 0 0) ∧
      BadArgs (.lineSet 0 0 0 254 0 0 0) ∧ BadArgs (.lineSet 0 0 0 0 0 3 0)) ∧
    (BadArgs (.lineService 96 0) ∧ BadArgs (.lineService 0 2) ∧ BadArgs (.appearSet 8 0 0) ∧ BadArgs (.appearSet 0 48 0) ∧
      BadArgs (.appearSet 0 0 96) ∧ BadArgs (.appearSet 0 0 254) ∧ BadArgs (.seize 8 0 0) ∧ BadArgs (.seize 0 2 0) ∧
      BadArgs (.seize 0 0 96) ∧ BadArgs (.release 8 0) ∧ BadArgs (.hold 0 2) ∧ BadArgs (.handsetSet 8 0 0 0) ∧
      BadArgs (.privacy 0 0 2) ∧ BadArgs (.forceClear 96) ∧ BadArgs (.positionSet 8 0 0 0 0 0) ∧
      BadArgs (.positionSet 0 0 0 0 0 2)) ∧
    (BadArgs (.speakerSet 8 0 0 0 0 0) ∧ BadArgs (.speakerSet 0 12 0 0 0 0) ∧ BadArgs (.speakerSet 0 0 3 0 0 0) ∧
      BadArgs (.speakerSet 0 0 1 96 0 0) ∧ BadArgs (.speakerSet 0 0 2 16 0 0) ∧
      BadArgs (.groupSet 16 ⟨0, 0, 0, 0, 0, 0, 0, 0, 0⟩) ∧ BadArgs (.groupSet 0 ⟨0, 3, 0, 0, 0, 0, 0, 0, 0⟩) ∧
      BadArgs (.groupSet 0 ⟨0, 1, 96, 0, 0, 0, 0, 0, 0⟩) ∧ BadArgs (.groupSet 0 ⟨0, 2, 1, 96, 0, 0, 0, 0, 0⟩) ∧
      BadArgs (.groupSet 0 ⟨0, 2, 1, 1, 0, 0, 0, 0, 0⟩) ∧ BadArgs (.groupSet 0 ⟨0, 0, 0, 0, 0, 0, 0, 3, 0⟩)) ∧
    (BadArgs (.talk 8 0) ∧ BadArgs (.talkEnd 0 16) ∧ BadArgs (.recorderSet 32 0 32 0 32) ∧
      BadArgs (.recorderSet 0 1 32 0 32) ∧ BadArgs (.recorderSet 0 32 32 0 32) ∧ BadArgs (.recorderSet 0 0 32 0 33) ∧
      BadArgs (.recordReturn 32 0) ∧ BadArgs (.recordReturn 0 2)) ∧
    (BadArgs (.query 5 0 0 0) ∧ BadArgs (.query 0 96 0 0) ∧ BadArgs (.query 1 16 0 0) ∧ BadArgs (.query 2 8 0 0) ∧
      BadArgs (.query 3 32 0 0) ∧ BadArgs (.query 4 0 2 0) ∧ BadArgs (.query 4 0 0 63)) ∧
    live.snapshotOut = false := by
  refine ⟨by decide +kernel, ?_, ?_, ?_, ?_, ?_, by decide +kernel⟩ <;> simp [BadArgs]
theorem witness_SlotDecodesToItsCommand : slotBytes 7 (.seize 3 0 14) = some seizeSlot.rows := by decide

theorem witness_PresentationMovesCounts :
    (ring14.ring 14 = some ⟨.general, 0x2A, none, none⟩ ∧ inSet 0x2A 1 = true ∧ inSet 0x2A 0 = false) ∧
    (ring30.ring 30 = some ⟨.preferred, 0x04, some 52000, none⟩ ∧ inSet 0x04 2 = true ∧ inSet 0x04 7 = false) := by
  decide +kernel

/-- Line 30 IDLE with preferred position 2 and a ring delay. -/
def quiet30 (delay : Nat) : State :=
  (base.setKey 2 0 (some 30)).modLine 30 fun r => { r with state := .idle, preferred := some 2, ringDelay := delay }

/-- The least ring_delay above 0, ring_delay 0, and a preferred position without the line. -/
theorem witness_NewRingIsPresented :
    (((quiet30 1).line 30).state = .idle ∧ ((quiet30 1).line 30).preferred = some 2 ∧ (quiet30 1).appears 2 30 = true ∧
      0 < ((quiet30 1).line 30).ringDelay) ∧
    (∀ p, ((quiet30 0).line 30).preferred = some p → (quiet30 0).appears p 30 = true → ((quiet30 0).line 30).ringDelay = 0) ∧
    (let s := (quiet30 1).setKey 2 0 none
     (s.line 30).state = .idle ∧
       ∀ p, (s.line 30).preferred = some p → s.appears p 30 = true → (s.line 30).ringDelay = 0) := by decide +kernel
theorem witness_ClearingLeavesLineEmpty :
    (((talk14 [⟨5, .right⟩]).line 14).recorder = some 2 ∧ ((talk14 [⟨5, .right⟩]).line 14).state ≠ .ringing) ∧
    ((hold14.line 14).recorder = none ∧ (hold14.line 14).state ≠ .ringing) ∧
    ((ring14.line 14).state = .ringing ∧ ring14.ring 14 = some ⟨.general, 0x2A, none, none⟩) := by decide +kernel

/-- No recorder channel is FREE. -/
def allBusy (s : State) : State :=
  { s with ru := { s.ru with channels := .replicate 32 { Channel.reset with state := .draining } } }

theorem allBusy_none (s : State) : NoneFree (allBusy s) := fun c => by simp [State.chan, allBusy]
theorem line14_lowest : LowestFree line14 2 := by unfold LowestFree; decide +kernel

theorem witness_SessionsOpenAndEnd : LowestFree line14 2 ∧ NoneFree (allBusy line14) ∧
    ∃ x, ((talk14 [⟨3, .left⟩]).chan 2).session = some x := ⟨line14_lowest, allBusy_none _, _, rfl⟩
theorem witness_LineSetStoresSettings :
    let c : Instr := .lineSet (finByte (95 : LineId)) LineType.dial.code 24 (idByte (some (7 : PosId))) 100 Policy.required.code 9
    (inHand c live).holds c = true ∧ ((inHand c live).line 95).state = .outOfService ∧
      ((inHand c (live.modLine 95 fun r => { r with state := .idle })).line 95).state = .idle ∧
      ((inHand c (live.modLine 95 fun r => { r with state := .held })).line 95).state ≠ .idle ∧
      ((inHand c (live.modLine 95 fun r => { r with state := .held })).line 95).state ≠ .outOfService := by decide +kernel
theorem witness_LineServiceAndForceClear :
    (inHand (.lineService (finByte (80 : LineId)) 0) live).holds (.lineService (finByte (80 : LineId)) 0) = true ∧
    (inHand (.lineService (finByte (95 : LineId)) 1) live).holds (.lineService (finByte (95 : LineId)) 1) = true ∧
    (inHand (.forceClear (finByte (95 : LineId))) live).holds (.forceClear (finByte (95 : LineId))) = true ∧
    (live.line 95).state = .outOfService ∧ (line14.line 14).state = .idle ∧ (live.line 30).state = .ringing ∧
    (live.line 14).state = .connected ∧ (live.line 20).state = .held ∧
    (live.line 80).state = .bridged ∧ (live.line 80).group = some 3 := by decide +kernel
theorem witness_AppearSetMapsLine :
    let p : PosId := 7
    let k : KeyId := 47
    let c (x : Option LineId) : Instr := .appearSet (finByte p) (finByte k) (idByte x)
    let s := ring14.setKey 7 47 (some 30)
    ((inHand (c (some 95)) s).holds (c (some 95)) = true ∧ (inHand (c none) s).holds (c none) = true) ∧
    ((s.map p).get k = some 30) ∧
    ((base.map p).get k ≠ some 95 ∧ (∀ l : LineId, some 95 = some l → base.appears p l = false)) ∧
    ((s.setKey 7 0 (some 95)).appears p 95 = true ∧ ((s.setKey 7 0 (some 95)).map p).get k ≠ some 95) ∧
    ((bindHandset ⟨7, .left⟩ 30 s).handset ⟨p, .left⟩).binding = some 30 ∧
    ((s.modLine 30 fun r => { r with state := .held, heldBy := some 7 }).line 30).heldBy = some p ∧
    (∃ r, (ringing 30 ⟨.recall, 0x80, none, some 7⟩ s).ring 30 = some r ∧ r.phase = .recall ∧ r.recallPos = some p) := by
  refine ⟨?_, ?_, ?_, ?_, ?_, ?_, _, rfl, rfl, rfl⟩ <;> decide +kernel
/-- A seize of line 14 by (5, RIGHT), or of line 30 by (4, LEFT), in states that stop it. -/
theorem witness_SeizeIsRefused :
    let h : Handset := ⟨5, .right⟩
    let c : Instr := .seize (finByte h.pos) h.side.code (finByte (14 : LineId))
    (inHand c live).holds c = true ∧ live.appears h.pos 14 = false ∧
    (let s := bindHandset h 20 line14
     s.appears h.pos 14 = true ∧ (s.handset h).binding ≠ none) ∧
    (let s := line14.modLine 14 fun r => { r with state := .outOfService }
     s.appears h.pos 14 = true ∧ (s.handset h).binding = none ∧ (s.line 14).state = .outOfService) ∧
    (let s := line14.modLine 14 fun r => { r with type := .hoot }
     s.appears h.pos 14 = true ∧ (s.handset h).binding = none ∧ (s.line 14).state ≠ .outOfService ∧
       (s.line 14).type = .hoot) ∧
    (MaySeize h 14 (allBusy line14) ∧ ((allBusy line14).line 14).state = .idle ∧
      ((allBusy line14).line 14).policy = .required) ∧
    (MaySeize ⟨4, .left⟩ 30 ring30 ∧ (ring30.line 30).state = .ringing ∧
      ring30.ring 30 = some ⟨.preferred, 0x04, some 52000, none⟩ ∧ inSet 0x04 4 = false) ∧
    (MaySeize h 14 (allBusy ring14) ∧ ((allBusy ring14).line 14).state = .ringing ∧
      ring14.ring 14 = some ⟨.general, 0x2A, none, none⟩ ∧ inSet 0x2A 5 = true ∧
      ((allBusy ring14).line 14).policy = .required) ∧
    (let s := (talk14 [⟨3, .left⟩]).modLine 14 fun r => { r with privacy := true }
     MaySeize h 14 s ∧ (s.line 14).state = .connected ∧ (s.line 14).privacy = true) ∧
    (let s := talk14 [⟨3, .left⟩, ⟨3, .right⟩, ⟨1, .left⟩, ⟨1, .right⟩]
     MaySeize h 14 s ∧ (s.line 14).privacy = false ∧ 4 ≤ (s.line 14).owners.length) ∧
    (let s := hold14.modLine 14 fun r => { r with privacy := true }
     MaySeize ⟨3, .left⟩ 14 s ∧ (s.line 14).state = .held ∧ (s.line 14).privacy = true ∧ (s.line 14).heldBy ≠ some 3) := by
  unfold MaySeize
  refine ⟨?_, ?_, ?_, ?_, ?_, ?_, ?_, ?_, ?_, ?_, ?_⟩ <;> decide +kernel

/-- The recorder check passes: policy NONE, a channel allocated, OPTIONAL without one. -/
theorem line14_checked (p : PosId) :
    LineChecked 14 p line14 (openSession 2 (.line 14) [p] line14).ru (some 2) .ok :=
  .inr (.inl ⟨by decide +kernel, rfl, 2, _, line14_lowest,
    by rw [allocate, show freeChannel line14 = some 2 by decide +kernel]; rfl, rfl, rfl⟩)
theorem witness_SeizeTakesLine :
    let h : Handset := ⟨5, .right⟩
    let c : Instr := .seize (finByte h.pos) h.side.code (finByte (14 : LineId))
    (inHand c line14).holds c = true ∧
    (MaySeize h 14 line14 ∧ (line14.line 14).state = .idle) ∧
    (∃ ru rec_ st, LineChecked 14 h.pos line14 ru rec_ st ∧ rec_ = some 2) ∧
    (let s := line14.modLine 14 fun r => { r with policy := .none }
     LineChecked 14 h.pos s s.ru none .ok) ∧
    (let s := allBusy (line14.modLine 14 fun r => { r with policy := .optional })
     LineChecked 14 h.pos s s.ru none .okUnrecorded) ∧
    (MaySeize h 14 ring14 ∧ (ring14.line 14).state = .ringing ∧ ring14.ring 14 = some ⟨.general, 0x2A, none, none⟩ ∧
      inSet 0x2A 5 = true) ∧
    (let s := ringing 14 ⟨.recall, 0x20, none, some 5⟩ line14
     MaySeize h 14 s ∧ s.ring 14 = some ⟨.recall, 0x20, none, some 5⟩ ∧ inSet 0x20 5 = true) ∧
    (let s := talk14 [⟨3, .left⟩, ⟨3, .right⟩, ⟨1, .left⟩]
     MaySeize h 14 s ∧ (s.line 14).privacy = false ∧ (s.line 14).owners.length < 4) ∧
    (let s := hold14.modLine 14 fun r => { r with privacy := true }
     MaySeize h 14 s ∧ (s.line 14).state = .held ∧ (s.line 14).heldBy = some 5) ∧
    PartyTold (hold14.line 14).recorder 5 hold14 hold14.ru := by
  refine ⟨by decide +kernel, by unfold MaySeize; decide +kernel, ⟨_, _, _, line14_checked 5, rfl⟩, ?_, ?_,
    by unfold MaySeize; decide +kernel, by unfold MaySeize; decide +kernel, by unfold MaySeize; decide +kernel,
    by unfold MaySeize; decide +kernel, rfl⟩
  · exact .inl ⟨by decide +kernel, rfl, by decide +kernel, rfl⟩
  · exact .inr (.inr ⟨by decide +kernel, allBusy_none _, rfl, by decide +kernel, rfl⟩)
theorem witness_ReleaseAndHoldLeaveLine :
    let h : Handset := ⟨3, .left⟩
    let c : Instr := .release (finByte h.pos) h.side.code
    let d : Instr := .hold (finByte h.pos) h.side.code
    let one := talk14 [h]
    let two := talk14 [h, ⟨5, .right⟩]
    (inHand c one).holds c = true ∧ (inHand d one).holds d = true ∧ (line14.handset h).binding = none ∧
    ((two.handset h).binding = some 14 ∧ ⟨5, .right⟩ ∈ (two.line 14).owners ∧ 2 ≤ (two.line 14).owners.length) ∧
    ((one.handset h).binding = some 14 ∧ (one.line 14).owners = [h] ∧ (one.line 14).state = .connected) := by decide +kernel
theorem witness_SettingsAreStored :
    let h : Handset := ⟨7, .right⟩
    let c : Instr := .privacy (finByte h.pos) h.side.code (flagCode true)
    let d : Instr := .handsetSet (finByte h.pos) h.side.code 72 24
    let e : Instr := .positionSet (finByte (7 : PosId)) 24 24 72 72 (flagCode true)
    (inHand c live).holds c = true ∧ (inHand d live).holds d = true ∧ (inHand e live).holds e = true ∧
    (live.handset h).binding = none ∧ ((talk14 [h]).handset h).binding = some 14 := by decide +kernel
theorem witness_SpeakerSetStoresChannel :
    let p : PosId := 7
    let c : Instr := .speakerSet (finByte p) (finByte (11 : SpkId)) 1 (finByte (95 : LineId)) 3 72
    let d : Instr := .speakerSet (finByte p) (finByte (0 : SpkId)) 2 (finByte (15 : GroupId)) 3 72
    let e : Instr := .speakerSet (finByte p) (finByte (0 : SpkId)) 0 255 3 72
    let s := (live.setKey 7 47 (some 95)).modGroup 15 fun r => { r with members := 0x80 }
    let t := { s with mp := { s.mp with
      speakers := s.mp.speakers.modify 7 fun x => x.set 0 ⟨some (.line 95), .left, 0, false⟩ } }
    (inHand c live).holds c = true ∧ (inHand d live).holds d = true ∧ (inHand e live).holds e = true ∧
    live.appears p 95 = false ∧ s.appears p 95 = true ∧ inSet (live.group 15).members p = false ∧
    inSet (s.group 15).members p = true ∧ ((t.speakers p).get 0).subject = some (.line 95) ∧
    ((t.speakers p).get 11).subject = none := by decide +kernel
theorem witness_PlacesAreGranted :
    let s := group6 [] waiting6
    (∃ x, (s.group 6).recorder = some 5 ∧ (s.chan 5).session = some x) ∧
    (s.group 6).holders = [] ∧ (s.group 6).hootLines = [] ∧ 0 < (s.group 6).hangTime ∧
    ((s.modGroup 6 fun r => { r with hangTime := 0 }).group 6).hangTime = 0 ∧
    ((s.modGroup 6 fun r => { r with recorder := none }).group 6).recorder = none := by
  refine ⟨⟨_, rfl, rfl⟩, ?_⟩; decide +kernel

/-- GROUP_SET of group 3 with hoot line 80 and position 0 alone; a request for lines 80 and 81. -/
def args3 : GroupArgs := ⟨0x01, 1, 80, 0, 3, 255, 255, 2, 61⟩
def argsTwo : GroupArgs := ⟨0x01, 2, 80, 81, 0, 0, 0, 2, 0⟩

theorem witness_GroupSetIsRefused :
    let c : Instr := .groupSet (finByte (3 : GroupId)) argsTwo
    (inHand c live).holds c = true ∧ hootArg argsTwo = some [80, 81] ∧ [80, 81].Nodup ∧
    argsTwo.policy = Policy.required.code ∧
    (live.line 81).type ≠ .hoot ∧
    (let s := live.modLine 81 fun r => { r with type := .hoot, state := .bridged, group := some 15 }
     (∀ l ∈ [(80 : LineId), 81], (s.line l).type = .hoot) ∧ (s.line 81).state = .bridged ∧ (s.line 81).group ≠ some 3) ∧
    (let s := live.modLine 81 fun r => { r with type := .hoot }
     (∀ l ∈ [(80 : LineId), 81], (s.line l).type = .hoot) ∧ (s.line 80).group = some 3 ∧ (s.line 81).state = .outOfService) ∧
    (let s := allBusy (live.modLine 81 fun r => { r with type := .hoot, state := .idle })
     NoneFree s ∧ (s.group 3).recorder = none ∧ (s.line 81).state = .idle) := by
  refine ⟨?_, ?_, ?_, ?_, ?_, ?_, ?_, allBusy_none _, ?_, ?_⟩ <;> decide +kernel
theorem witness_GroupSetApplies :
    let c : Instr := .groupSet (finByte (3 : GroupId)) args3
    let s := inHand c live
    LineLaw s ∧ HootLaw s ∧ s.holds c = true ∧ hootArg args3 = some [80] ∧ ([80] : List LineId).Nodup ∧
    args3.policy = Policy.required.code ∧
    (∀ l ∈ [(80 : LineId)], (s.line l).type = .hoot ∧ (s.line l).state ≠ .outOfService ∧
      ((s.line l).state = .bridged → (s.line l).group = some 3)) ∧ ¬NoneFree s :=
  ⟨lineLaw_of (by decide +kernel), ⟨by decide +kernel, by decide +kernel, by decide +kernel, by decide +kernel,
    by decide +kernel, by decide +kernel, by decide +kernel⟩, by decide +kernel, by decide, by decide, by decide,
    by decide +kernel, by unfold NoneFree; decide +kernel⟩

/-- GROUP_SET leaves group 6, recorded on channel 5, without talkers: with a hang running, with none, and with hang_time 0. -/
theorem witness_GroupSetApplies_hang :
    let args (hang : Byte) : GroupArgs := ⟨0, 0, 0, 0, 2, 50, 60, 2, hang⟩
    let c (hang : Byte) : Instr := .groupSet (finByte (6 : GroupId)) (args hang)
    let s (hang : Byte) : State := inHand (c hang) (group6 [] waiting6)
    LineLaw (s 5) ∧ HootLaw (s 5) ∧ (s 5).holds (c 5) = true ∧ (s 0).holds (c 0) = true ∧ hootArg (args 0) = some [] ∧
    (∀ e ∈ waiting6, inSet (args 5).members e.pos = false) ∧ ((s 5).group 6).recorder = some 5 ∧
    ((s 5).group 6).hangDeadline = none ∧
    (((s 5).modGroup 6 fun r => { r with hangDeadline := some 9 }).group 6).hangDeadline ≠ none :=
  ⟨lineLaw_of (by decide +kernel), ⟨by decide +kernel, by decide +kernel, by decide +kernel, by decide +kernel,
    by decide +kernel, by decide +kernel, by decide +kernel⟩, by decide +kernel, by decide +kernel, by decide +kernel,
    by decide +kernel, by decide +kernel, by decide +kernel, by decide +kernel⟩

/-- Group 6 with empty floor and no recorder, every channel but 5 FREE. -/
def fresh6 (pol : Policy) : State := (group6 [] []).modGroup 6 fun r => { r with recorder := none, policy := pol }

theorem fresh6_free : freeChannel (fresh6 .optional) = some 0 := by decide +kernel

/-- TALK(4, 6) by a member that stands on no floor, in the states that its clauses name. -/
theorem witness_TalkAndTalkEnd :
    let c : Instr := .talk (finByte (4 : PosId)) (finByte (6 : GroupId))
    let d : Instr := .talkEnd (finByte (4 : PosId)) (finByte (6 : GroupId))
    let two : List FloorEntry := [⟨1, false, none⟩, ⟨2, false, none⟩]
    (inHand c live).holds c = true ∧ (inHand d live).holds d = true ∧ inSet (live.group 6).members 4 = false ∧
    (let s := group6 [⟨4, true, none⟩] []
     inSet (s.group 6).members 4 = true ∧ entryOf 4 (s.group 6).holders = true) ∧
    (let s := group6 two [⟨4, true, none⟩]
     entryOf 4 (s.group 6).holders = false ∧ entryOf 4 (s.group 6).queue = true) ∧
    (let s := (group6 two []).modGroup 15 fun r => { r with queue := [⟨4, true, none⟩] }
     s.onFloor 15 4 ∧ ¬s.onFloor 6 4) ∧
    ((∀ h, ¬(allBusy (fresh6 .required)).onFloor h 4) ∧ NoneFree (allBusy (fresh6 .required)) ∧
      ((fresh6 .required).group 6).holders.length < ((fresh6 .required).group 6).maxTalkers) ∧
    ((∀ h, ¬(fresh6 .none).onFloor h 4) ∧ ((fresh6 .none).group 6).policy = .none) ∧
    (LowestFree (fresh6 .optional) 0 ∧ ((fresh6 .optional).group 6).policy ≠ .none ∧
      ∃ u, allocate (.group 6) [] (fresh6 .optional) = some (0, u)) ∧
    (let s := group6 two waiting6
     (∀ h, ¬s.onFloor h 4) ∧ ¬(s.group 6).holders.length < (s.group 6).maxTalkers ∧ (s.settings 4).supervisor = true ∧
       (s.group 6).holders = [] ++ ⟨1, false, none⟩ :: [⟨2, false, none⟩]) ∧
    (let s := group6 [⟨1, true, none⟩, ⟨2, true, none⟩] (.replicate 7 ⟨3, false, none⟩)
     (∀ e ∈ (s.group 6).holders, e.standing = true) ∧ (s.group 6).queue.length < 8) ∧
    8 ≤ ((group6 [⟨1, true, none⟩, ⟨2, true, none⟩] (.replicate 8 ⟨3, false, none⟩)).group 6).queue.length := by
  unfold State.onFloor LowestFree
  refine ⟨?_, ?_, ?_, ?_, ?_, ?_, ⟨?_, allBusy_none _, ?_⟩, ?_, ⟨?_, ?_, ?_⟩, ?_, ?_, ?_⟩
  case _ => decide +kernel
  case _ => decide +kernel
  case _ => decide +kernel
  case _ => decide +kernel
  case _ => decide +kernel
  case _ => decide +kernel
  case _ => decide +kernel
  case _ => decide +kernel
  case _ => decide +kernel
  case _ => decide +kernel
  case _ => decide +kernel
  case _ =>
    exact ⟨_, by rw [allocate, fresh6_free]; rfl⟩
  case _ => decide +kernel
  case _ => decide +kernel
  case _ => decide +kernel

theorem witness_RecorderCommandsSetBuffers :
    let c : Instr := .recorderSet (finByte (31 : ChanId)) 0xFFFFFFFA0 0xFFFFFFFE0 0 32
    let d : Instr := .recordReturn (finByte (31 : ChanId)) Buf.bufB.code
    let host : State := live.modChan 31 fun ch => { ch with bufB := { ch.bufB with owner := .host } }
    (inHand c live).holds c = true ∧ (inHand d live).holds d = true ∧
    (0xFFFFFFFA0 : Addr).toNat % 32 = 0 ∧ (0xFFFFFFFE0 : Addr).toNat % 32 = 0 ∧
    (0xFFFFFFFA0 : Addr).toNat < (0xFFFFFFFE0 : Addr).toNat ∧ (live.chan 31).state = .free ∧ (live.chan 2).state ≠ .free ∧
    ((live.chan 31).buffer .bufB).owner = .part ∧ ((host.chan 31).buffer .bufB).owner = .host ∧
    (host.chan 31).here.owner = .part ∧
    ((host.modChan 31 fun ch => { ch with current := .bufB }).chan 31).here.owner = .host := by decide +kernel

/-- An access in flight, alone, is the one that a response answers. -/
theorem returns_flying (which : Purpose → Bool) (a : OwnAccess) (s : State) (h : which a.purpose = true) :
    Returns which 0 a (flying a s) { flying a s with pu := { (flying a s).pu with flight := [] } } :=
  ⟨by simp [State.flying, flying, h], h, rfl, [], [], rfl, rfl, rfl⟩

theorem witness_QueryWritesSnapshot :
    let c : Instr := .query 3 31 (flagCode true) 0xFFFFFFFC0
    (inHand c live).holds c = true ∧ (inHand c live).snapshotOut = false ∧ queryItem 3 31 = some (.recorder 31) ∧
    queryItem 0 95 = some (.line 95) ∧ queryItem 4 255 = some .counters ∧ (0xFFFFFFFC0 : Addr).toNat % 64 = 0 ∧
    (∃ u, Returns Purpose.isSnapshot 0 ⟨.snapshot, 0xFFFFFFFC0, [], 0⟩ (flying ⟨.snapshot, 0xFFFFFFFC0, [], 0⟩ live) u ∧
      u.snapshotOut = false) ∧
    (let s := { live with pu := { live.pu with own := [⟨.snapshot, 0, [], 0⟩] } }
     ∃ u, Returns Purpose.isSnapshot 0 ⟨.snapshot, 0xFFFFFFFC0, [], 0⟩ (flying ⟨.snapshot, 0xFFFFFFFC0, [], 0⟩ s) u ∧
      u.snapshotOut = true) := by
  refine ⟨?_, ?_, ?_, ?_, ?_, ?_, ⟨_, returns_flying _ _ _ rfl, ?_⟩, ⟨_, returns_flying _ _ _ rfl, ?_⟩⟩ <;> decide +kernel
theorem witness_RestartEmptiesThePart :
    let s := inHand .restart (live.modLine 14 fun r => { r with ringInd := .ringing })
    s.holds .restart = true ∧ LineLaw s ∧ AlertLaw s ∧ (s.line 14).state = .connected ∧ (s.line 30).state = .ringing ∧
    (s.line 30).ringInd = .quiet ∧ (s.line 80).state = .bridged ∧ (s.line 14).recorder = some 2 ∧
    (∃ x, (s.chan 2).session = some x) ∧ (s.chan 0).session = none :=
  ⟨by decide +kernel, lineLaw_of (by decide +kernel), ⟨by decide +kernel, by decide +kernel, by decide +kernel⟩,
    by decide +kernel, by decide +kernel, by decide +kernel, by decide +kernel, by decide +kernel, ⟨_, rfl⟩,
    by decide +kernel⟩
/-- The ring size itself and one above it. -/
theorem witness_CommandPostIsTaken : base.running = true ∧ base.cu.cmdSize < ((65 : Word) - base.cu.taken).toNat ∧
    ((64 : Word) - base.cu.taken).toNat ≤ base.cu.cmdSize := by decide +kernel
/-- 28 events waiting leave the four places of a fetch, 29 do not. -/
theorem witness_FetchHandsCommand :
    let s : State := { full 28 0 with cu := { (full 28 0).cu with posted := 500 } }
    (s.running = true ∧ s.cu.execution = .idle ∧ s.cu.posted ≠ s.cu.taken ∧ s.cu.backlog.length + 4 ≤ 32) ∧
    32 < (full 29 0).cu.backlog.length + 4 ∧ (full 0 0).cu.posted = (full 0 0).cu.taken ∧
    (inHand .restart s).cu.execution ≠ .idle ∧
    (fetching.running = true ∧ fetching.cu.execution = .fetching ∧
      (∃ u, Returns Purpose.isFetch 0 ⟨.commandFetch, 0x200030660, [], 0⟩ fetching u) ∧
      decodeSlot seizeSlot.rows = some (.seize 3 0 14) ∧ decodeSlot (Table.replicate 32 (19 : Byte)).rows = none) := by
  refine ⟨?_, ?_, ?_, ?_, ?_, ?_, ⟨_, returns_flying _ _ _ rfl⟩, ?_, ?_⟩ <;> decide +kernel
theorem witness_ConsumedWordsMakeRoom :
    let s := full 2 0
    (s.running = true ∧ s.cu.evSize < (s.cu.evProduced - 935).toNat ∧ (s.cu.evProduced - 936).toNat ≤ s.cu.evSize) ∧
    (fullLog.running = true ∧ fullLog.ru.logSize < (fullLog.ru.produced - 23).toNat ∧
      (fullLog.ru.produced - 24).toNat ≤ fullLog.ru.logSize ∧ (fullLog.chan 4).waits = true ∧
      (fullLog.chan 5).waits = false ∧ (fullLog.chan 4).closeRecord ≠ none) := by decide +kernel

/-- Event slots 4 and 5 not yet answered, as the access `a` returns. -/
def twoSlots (a : OwnAccess) : State :=
  flying a { base with pu := { base.pu with own := [⟨.eventSlot 5, 0, [], 0⟩, ⟨.closeRecord 8, 0, [], 0⟩] } }

theorem witness_SlotResponsesMoveIndex :
    let open_ (s : State) := (s.pu.flight ++ s.pu.own).filterMap fun x => x.purpose.slotIndex
    let records (s : State) := (s.pu.flight ++ s.pu.own).filterMap fun x => x.purpose.recordIndex
    base.running = true ∧
    ((∃ u, Returns Purpose.isEventSlot 0 ⟨.eventSlot 4, 0, [], 0⟩ (twoSlots ⟨.eventSlot 4, 0, [], 0⟩) u) ∧
      open_ (twoSlots ⟨.eventSlot 4, 0, [], 0⟩) = [4, 5]) ∧
    (let s : State := { base with pu := { base.pu with flight := [⟨.eventSlot 4, 0, [], 0⟩, ⟨.eventSlot 5, 0, [], 0⟩] } }
     Returns Purpose.isEventSlot 1 ⟨.eventSlot 5, 0, [], 0⟩ s
       { s with pu := { s.pu with flight := [⟨.eventSlot 4, 0, [], 0⟩] } } ∧ open_ s = [4, 5]) ∧
    ((∃ u, Returns Purpose.isLogWrite 0 ⟨.closeRecord 7, 0, [], 0⟩ (twoSlots ⟨.closeRecord 7, 0, [], 0⟩) u) ∧
      records (twoSlots ⟨.closeRecord 7, 0, [], 0⟩) = [7, 8]) ∧
    (let s : State := { base with pu := { base.pu with flight := [⟨.closeRecord 7, 0, [], 0⟩, ⟨.closeRecord 8, 0, [], 0⟩] } }
     Returns Purpose.isLogWrite 1 ⟨.closeRecord 8, 0, [], 0⟩ s
       { s with pu := { s.pu with flight := [⟨.closeRecord 7, 0, [], 0⟩] } } ∧ records s = [7, 8]) ∧
    (∃ u, Returns Purpose.isLogWrite 0 ⟨.logProduced 8, 0, [], 0⟩ (twoSlots ⟨.logProduced 8, 0, [], 0⟩) u) :=
  ⟨rfl, ⟨⟨_, returns_flying _ _ _ rfl⟩, rfl⟩, ⟨⟨rfl, rfl, rfl, [_], [], rfl, rfl, rfl⟩, rfl⟩,
    ⟨⟨_, returns_flying _ _ _ rfl⟩, rfl⟩, ⟨⟨rfl, rfl, rfl, [_], [], rfl, rfl, rfl⟩, rfl⟩, ⟨_, returns_flying _ _ _ rfl⟩⟩
theorem witness_PlainResponsesReturn :
    live.running = true ∧ State.reset.running = false ∧
    (∃ u, Returns Purpose.isIndexWord 0 ⟨.commandTaken 1, 0, [], 0⟩ (flying ⟨.commandTaken 1, 0, [], 0⟩ live) u) ∧
    (∃ u, Returns (fun p => p.kind == .lineControl) 0 ⟨.lineControl 95, 0, [], 0⟩
      (flying ⟨.lineControl 95, 0, [], 0⟩ live) u) ∧
    (∃ u, Returns Purpose.isStatusWord 0 ⟨.statusWord .running, 0, [], 0⟩
      (flying ⟨.statusWord .running, 0, [], 0⟩ live) u) ∧
    (∃ u, Returns Purpose.isStatusWord 0 ⟨.statusWord .loading, 0, [], 0⟩
      (flying ⟨.statusWord .loading, 0, [], 0⟩ live) u) :=
  ⟨rfl, rfl, ⟨_, returns_flying _ _ _ rfl⟩, ⟨_, returns_flying _ _ _ rfl⟩, ⟨_, returns_flying _ _ _ rfl⟩,
    ⟨_, returns_flying _ _ _ rfl⟩⟩
theorem witness_SignalWordActs :
    live.running = true ∧
    ((live.line 95).farEnd = .onHook ∧ (live.line 95).ringInd = .quiet ∧ (live.line 95).state = .outOfService) ∧
    ((live.line 14).state = .connected ∧ (live.line 80).state = .bridged ∧ (line14.line 14).state = .idle ∧
      (line14.line 14).type ≠ .hoot) ∧
    (let s := live.modLine 20 fun r => { r with farEnd := .offHook }
     (s.line 20).farEnd ≠ .onHook ∧ (s.line 20).state = .held) ∧
    (let s := (ringing 14 ⟨.recall, 0x20, none, some 5⟩ line14).modLine 14 fun r => { r with farEnd := .offHook }
     (s.line 14).state = .ringing ∧ ∃ ring, s.ring 14 = some ring ∧ ring.phase = .recall) ∧
    (let s := ring14.modLine 14 fun r => { r with ringInd := .ringing }
     (s.line 14).state = .ringing ∧ s.ring 14 = some ⟨.general, 0x2A, none, none⟩ ∧ (s.line 14).ringInd ≠ .quiet) ∧
    ((live.line 20).state = .held ∧ (live.line 20).farEnd = .onHook) ∧
    ((ring14.line 14).state = .ringing ∧ (ring14.line 14).farEnd = .onHook ∧ (ring14.line 14).ringInd = .quiet) := by
  refine ⟨?_, ?_, ?_, ?_, ⟨?_, _, rfl, rfl⟩, ?_, ?_, ?_⟩ <;> decide +kernel
theorem witness_OnlySignalWordsMoveSignals : (∃ t, exec .commandFetch live = .next t) ∧
    (∀ w, Instr.commandFetch ≠ .signalWord 14 w) ∧
    (∀ straps, Instr.commandFetch ≠ .powerOn straps ∧ Instr.commandFetch ≠ .resetN straps) :=
  ⟨⟨_, rfl⟩, nofun, fun _ => ⟨nofun, nofun⟩⟩
/-- The frame of the deadline and the one before it; the longest distance of a deadline. -/
theorem witness_LineDeadlinesExpire :
    ((0x7FFFFFFF : Word) = base.ft.counter + BitVec.ofNat 32 (2 ^ 31 - 1) ∧ (0 : Nat) < 2 ^ 31 - 1 ∧
      base.ft.counter = (0 : Word)) ∧
    ((hold14.line 14).state = .held ∧ (hold14.line 14).recallDeadline = some 111200 ∧ (hold14.line 14).heldBy = some 5 ∧
      (atFrame 111200 hold14).due 111200 = true ∧ (atFrame 111199 hold14).due 111200 = false ∧
      (live.line 14).state ≠ .held ∧ ((hold14.modLine 14 fun r => { r with recallDeadline := none }).line 14).recallDeadline = none) ∧
    (ring30.running = true ∧ ring30.ring 29 = none ∧ ring30.ring 31 = some ⟨.general, 0x50, none, none⟩ ∧
      ring30.ring 30 = some ⟨.preferred, 0x04, some 52000, none⟩ ∧
      (atFrame 52000 ring30).due 52000 = true ∧ (atFrame 51999 ring30).due 52000 = false) := by decide +kernel
theorem witness_FloorDeadlinesExpire :
    let s := atFrame 205200 ((group6 [⟨4, true, none⟩, ⟨1, false, some 205200⟩] waiting6).modGroup 6 fun r =>
      { r with hangDeadline := some 205200 })
    s.running = true ∧
    ((s.group 6).queue = [] ++ ⟨3, false, some 205200⟩ :: [⟨0, false, some 205300⟩] ∧
      entryDue s ⟨3, false, some 205200⟩ = true) ∧
    ((s.group 6).holders = [⟨4, true, none⟩] ++ ⟨1, false, some 205200⟩ :: [] ∧
      (∀ x ∈ ([⟨4, true, none⟩] : List FloorEntry), entryDue s x = false) ∧ entryDue s ⟨1, false, some 205200⟩ = true) ∧
    (let early := atFrame 205199 s
     (∀ x ∈ (early.group 6).queue, entryDue early x = false) ∧ (∀ x ∈ (early.group 6).holders, entryDue early x = false) ∧
       early.due 205200 = false) ∧
    ((s.group 6).hangDeadline = some 205200 ∧ s.due 205200 = true ∧ (s.group 6).recorder = some 5) ∧
    (live.group 6).hangDeadline = none := by decide +kernel
/-- The shortest and the longest good spacing, and the cycle beyond each. -/
theorem witness_FrameClockFollowsPulses :
    let ref (good : Nat) : FrameTimer := { base.ft with refPulse := some 100000, good := good }
    (locked.running = true ∧ locked.ft.watch = .locked ∧ locked.ft.watchTimer = some 1200000 ∧ locked.ft.freeTimer = none) ∧
    (base.ft.watch = .acquiring ∧ base.ft.refPulse = none ∧ base.ft.watchTimer = some 300000 ∧
      base.ft.freeTimer = some 100000) ∧
    (State.reset.ft.watchTimer = none ∧ (ref 7).watch = .acquiring ∧ (ref 7).refPulse = some 100000 ∧ (ref 7).good = 7 ∧
      (ref 6).good ≠ 7) ∧
    (95 * base.ft.clkPerMs / 100 ≤ 195000 - 100000 ∧ 205000 - 100000 ≤ (105 * base.ft.clkPerMs + 99) / 100) ∧
    ¬95 * base.ft.clkPerMs / 100 ≤ 194999 - 100000 ∧ ¬205001 - 100000 ≤ (105 * base.ft.clkPerMs + 99) / 100 := by
  decide +kernel

/-- Floor time SET at 40 with so many mismatches in a row. -/
def floor40 (mismatches : Nat) : State :=
  { base with ft := { base.ft with timeSet := .set, floor := 40, mismatches := mismatches } }

/-- Differences of 0, ±1 and ±2, imperative and not. -/
theorem witness_SyncWordSetsFloorTime :
    let v (w : BitVec 128) : FloorTime := w.extractLsb' 0 48
    let d (w : BitVec 128) : Int := (v w - (floor40 0).ft.floor).toInt
    let imperative (w : BitVec 128) : Bool := w.getLsbD 64
    base.running = true ∧ base.ft.timeSet = .unset ∧ (floor40 0).ft.timeSet = .set ∧
    (imperative (2 ^ 64 + 40) = true ∧ d (2 ^ 64 + 40) = 0 ∧ d (2 ^ 64 + 41) ≠ 0) ∧
    (imperative 39 = false ∧ d 39 = -1 ∧ d 41 = 1 ∧ d 38 < -1 ∧ 1 < d 42) ∧
    (floor40 1).ft.mismatches < 2 ∧ 2 ≤ (floor40 2).ft.mismatches := by decide +kernel
theorem witness_SourceEntersBusRounded :
    gain 72 = 0 ∧ ([⟨7, 6⟩, ⟨102, 0⟩] : List SourceTerm).map (·.source) = [7, 102] ∧ ([7, 102] : List SourceId).Nodup := by
  decide
theorem witness_OwnersHearTheOthers :
    ((([⟨7, 6⟩, ⟨102, 0⟩] : List SourceTerm).map (·.source)).Nodup ∧
      ∃ t ∈ ([⟨7, 6⟩, ⟨102, 0⟩] : List SourceTerm), t.source = 102) ∧
    LineLaw live ∧ (live.line 14).state = .connected ∧ ⟨3, .left⟩ ∈ (live.line 14).owners :=
  ⟨⟨by decide, _, .tail _ (.head _), rfl⟩, live_lines, by decide +kernel, by decide +kernel⟩
/-- A queued frame, a referenced source without one, and one that no bus names. -/
theorem witness_FrameEventMixes :
    let s : State := { late with pu := { late.pu with queues := late.pu.queues.set 0 [silence] } }
    s.running = true ∧ s.me.waiting = 502 :: [] ∧ s.pu.queues.get 0 = silence :: [] ∧ s.pu.queues.get 7 = [] ∧
    referenced (derivePlan s).buses 7 = true ∧ (s.me.last.get 7).kind = .captured ∧
    referenced (derivePlan s).buses 119 = false ∧ (s.me.last.get 102).kind ≠ .captured ∧
    referenced (derivePlan s).buses 102 = true := by decide +kernel
/-- The first and last bytes of the Outbound Region and the bytes beside them. -/
theorem witness_ReadsAreAnsweredOrForwarded :
    let first : Burst := burst 0x300010000 1 .incr
    let last : Burst := burst 0x30001FFF8 1 .incr
    burstOk first = true ∧ burstOk last = true ∧ stored.pu.regions.outbound = some 0x300010000 ∧
    ((0x300010000 : Addr).toNat ≤ last.addr.toNat ∧ last.addr.toNat < (0x300010000 : Addr).toNat + 65536) ∧
    ¬(0x300010000 : Addr).toNat ≤ (burst 0x30000FFF8 1 .incr).addr.toNat ∧
    ¬(burst 0x300020000 1 .incr).addr.toNat < (0x300010000 : Addr).toNat + 65536 ∧
    burstOk (burst 0x300020000 1 .incr) = true := by decide +kernel
theorem witness_RecorderFramesAndSegments :
    (framed.running = true ∧ framed.ru.inbox = ⟨101, .replicate 32 silence⟩ :: [] ∧ (framed.chan 0).state = .free ∧
      (framed.chan 3).state = .active ∧ (framed.chan 3).segPending = false ∧ framed.ru.segLen = 0 ∧
      (framed.chan 3).here.owner = .part ∧ (framed.chan 3).here.fill + 32 ≠ (framed.chan 3).here.ceil) ∧
    (∃ x, (framed.chan 3).session = some x) ∧
    (let s := framed.modChan 3 fun c => { c with bufA := { c.bufA with fill := 0x1020 } }
     (s.chan 3).here.fill + 32 = (s.chan 3).here.ceil) ∧
    (let s := framed.modChan 3 fun c => { c with bufA := { c.bufA with owner := .host } }
     (s.chan 3).here.owner = .host) ∧
    (segmented.running = true ∧ segmented.ru.inbox = ⟨60100, .replicate 32 silence⟩ :: [] ∧
      (segmented.chan 3).state = .active ∧ 0 < segmented.ru.segLen ∧
      (60100 : Word) = 100 + BitVec.ofNat 32 segmented.ru.segLen ∧
      (segmented.ru.produced - segmented.ru.consumed).toNat + (3 : ChanId).val < segmented.ru.logSize) ∧
    (let s : State := { segmented with ru := { segmented.ru with produced := 16 } }
     s.ru.logSize ≤ (s.ru.produced - s.ru.consumed).toNat) ∧
    (let s := framed.modChan 9 fun c => { c with
       state := .draining, bufA := ⟨0x1000, 0x1040, .part, 0x1020, some 7, some 9⟩ }
     (s.chan 9).state = .draining ∧ (s.chan 9).closeDone = false ∧ (s.chan 9).outstanding = 0 ∧
       (s.chan 9).here.owner = .part ∧ (s.chan 9).here.fill ≠ (s.chan 9).here.base) ∧
    ((fullLog.chan 4).state = .draining ∧ (fullLog.chan 4).closeDone = true) := by
  refine ⟨?_, ⟨_, rfl⟩, ?_, ?_, ?_, ?_, ?_, ?_⟩ <;> decide +kernel
theorem witness_FrameWritesReturn :
    let a : OwnAccess := ⟨.frameWrite 3 .bufA 101 12, 0x1000, [], 0⟩
    framed.running = true ∧ (∃ u, Returns Purpose.isFrameWrite 0 a (flying a framed) u) ∧
    (framed.chan 3).state = .active ∧ (∃ x, (framed.chan 3).session = some x) ∧
    (let s := fullLog.modChan 4 fun c => { c with closeDone := false, frameSeen := true, outstanding := 1 }
     (s.chan 4).state = .draining ∧ (s.chan 4).outstanding ≤ 1) ∧ ∃ x, (fullLog.chan 4).closeRecord = some x :=
  ⟨rfl, ⟨_, returns_flying _ _ _ rfl⟩, by decide +kernel, ⟨_, rfl⟩, by decide +kernel, _, rfl⟩
theorem witness_AnchorStartsLoad : (1 : Word) ≠ 0 ∧ State.reset.ld.op = .transparent ∧ base.ld.op = .running ∧
    (loading 1 State.reset).ld.op = .loading ∧
    { State.reset.ld with op := .configFault }.op = .configFault := by decide +kernel

/-- The loader holds so many bytes of a section that stands at a cursor. -/
def reading (cursor n : Nat) : State :=
  let s := loading 1 State.reset
  flying ⟨.imageRead, 0x10000, [], 0⟩ { s with ld := { s.ld with cursor := cursor, buf := .replicate n 0 } }

/-- The last cursor for a header and the next; 7 and 8 bytes held; an image that runs one byte too far. -/
theorem witness_ImageBytesAreRead :
    (∃ u, Returns Purpose.isImageRead 0 ⟨.imageRead, 0x10000, [], 0⟩ (reading 65528 0) u) ∧
    (reading 65528 0).ld.op = .loading ∧
    (∃ u, Returns Purpose.isImageRead 0 ⟨.imageRead, 0x10000, [], 0⟩ (flying ⟨.imageRead, 0x10000, [], 0⟩ State.reset) u) ∧
    (flying ⟨.imageRead, 0x10000, [], 0⟩ State.reset).ld.op ≠ .loading ∧
    (65536 < (reading 65529 0).ld.cursor + 8 ∧ (reading 65528 0).ld.cursor + 8 ≤ 65536) ∧
    ((reading 0 6).ld.buf ++ [0]).length < 8 ∧ 8 ≤ ((reading 0 7).ld.buf ++ [0]).length ∧
    (let bytes : List Byte := [1, 0, 0, 0, 40, 0, 0, 0]
     65536 < (reading 65497 0).ld.cursor + leAt bytes 4 4 ∧ (reading 65496 0).ld.cursor + leAt bytes 4 4 ≤ 65536) ∧
    leAt ([2, 0, 0, 0, 40, 0, 0, 0] : List Byte) 0 4 ≠ (reading 0 0).ld.expected ∧
    leAt ([1, 0, 0, 0, 41, 0, 0, 0] : List Byte) 4 4 ≠ sectionLength (reading 0 0).ld.expected := by
  refine ⟨⟨_, returns_flying _ _ _ rfl⟩, ?_, ⟨_, returns_flying _ _ _ rfl⟩, ?_, ?_, ?_, ?_, ?_, ?_, ?_⟩ <;> decide +kernel

/-- A section with its header, its body given. -/
def sectionBytes (k : Nat) (body : List Byte) : List Byte := leBytes 4 k ++ leBytes 4 (sectionLength k) ++ body

/-- A body of zero bytes with some bytes put in their places. -/
def bodyWith (n : Nat) (bytes : List (Nat × Byte)) : List Byte :=
  bytes.foldl (fun b x => b.set x.1 x.2) (.replicate n 0)

/-- The loader has section `k` before it and these bytes of it have come: they are the whole of it. -/
def readWhole (k : Nat) (bytes : List Byte) : Bool :=
  let s := loading k State.reset
  let held := s.ld.buf ++ bytes
  s.ld.expected == k && leAt held 0 4 == k && leAt held 4 4 == sectionLength k &&
    decide (s.ld.cursor + sectionLength k ≤ 65536) && held.length == sectionLength k

/-- The three rings of 32 × 16, 16 × 64 and 64 × 16 bytes, clear of one another and of regions at 0, and the first within them. -/
def ringBody : List Byte := bodyWith 48 [(1, 0x10), (2, 1), (8, 16), (17, 0x10), (18, 2), (24, 64), (33, 0x10), (34, 3), (40, 16)]

/-- A sound body and the unsound ones that the clauses of the sections name, each read whole. -/
theorem witness_ImageBytesAreRead_sections :
    (readWhole 1 (sectionBytes 1 (.replicate 32 0)) = true ∧
      (addrAt (bodyWith 32 [(0, 1)]) 0).toNat % 32768 ≠ 0 ∧ (addrAt (.replicate 32 0) 24).toNat % 64 = 0) ∧
    (readWhole 2 (sectionBytes 2 ringBody) = true ∧ leAt ringBody 8 4 = 2 ^ 4 ∧ leAt ringBody 24 4 = 2 ^ 6 ∧
      leAt ringBody 40 4 = 2 ^ 4 ∧ (addrAt ringBody 0).toNat % 32 = 0 ∧ (addrAt ringBody 16).toNat % 16 = 0 ∧
      (addrAt ringBody 32).toNat % 64 = 0 ∧ (addrAt (bodyWith 48 [(0, 1)]) 0).toNat % 32 ≠ 0 ∧
      ¬16 ≤ leAt (.replicate 48 (0 : Byte)) 8 4 ∧
      anyMeet [(addrAt ringBody 0, 512), (addrAt ringBody 16, 1024), (addrAt ringBody 32, 1024)] = false) ∧
    (readWhole 3 (sectionBytes 3 (.replicate 768 0)) = true ∧
      (∀ l : LineId, byteAt (.replicate 768 0) (8 * l.val) = LineType.ringdown.code ∧
        byteAt (.replicate 768 0) (8 * l.val + 2) = idByte (some (0 : PosId)) ∧
        byteAt (.replicate 768 0) (8 * l.val + 6) = Policy.none.code ∧
        byteAt (.replicate 768 0) (8 * l.val + 7) = flagCode false) ∧
      ∀ ty : LineType, byteAt (bodyWith 768 [(760, 3)]) (8 * (95 : LineId).val) ≠ ty.code) ∧
    (readWhole 4 (sectionBytes 4 (.replicate 864 255)) = true ∧
      ∀ x : SpkId, byteAt (.replicate 864 255) (108 * (7 : PosId).val + (60 + 4 * x.val)) = 255) ∧
    (readWhole 5 (sectionBytes 5 (.replicate 192 0)) = true ∧
      (∀ g : GroupId, byteAt (.replicate 192 0) (12 * g.val + 1) = 0 ∧
        byteAt (.replicate 192 0) (12 * g.val + 7) = Policy.none.code) ∧
      byteAt (bodyWith 192 [(181, 3)]) (12 * (15 : GroupId).val + 1) = 3 ∧
      byteAt (bodyWith 192 [(181, 1)]) (12 * (15 : GroupId).val + 1) = 1 ∧ (State.reset.line 0).type ≠ .hoot) ∧
    readWhole 6 (sectionBytes 6 (.replicate 208 0)) = true ∧
    (readWhole 7 (sectionBytes 7 (.replicate 1032 0)) = true ∧ ¬(addrAt (.replicate 1032 0) 0).toNat <
      (addrAt (.replicate 1032 0) 8).toNat) ∧
    readWhole 8 (sectionBytes 8 (.replicate 8 0)) = true := by
  refine ⟨?_, ?_, ⟨?_, ?_, fun ty => ?_⟩, ?_, ?_, ?_, ?_, ?_⟩
  case refine_5 => cases ty <;> decide +kernel
  all_goals decide +kernel

/-- A POSITIONS body with every key empty, every channel of kind none and no supervisor is sound. -/
theorem witness_ImageBytesAreRead_positions :
    let bytes (i : Nat) : Byte := if i % 108 < 48 then 255 else 0
    let body : List Byte := (List.range 864).map bytes
    readWhole 4 (sectionBytes 4 body) = true ∧
    ∀ p : PosId, (∀ k : KeyId, byteAt body (108 * p.val + k.val) = idByte (none : Option LineId)) ∧
      byteAt body (108 * p.val + 52) = flagCode false ∧
      ∀ j : SpkId, byteAt body (108 * p.val + (60 + 4 * j.val)) = 0 := by decide +kernel

/-- A RECORDERS body that gives every channel two buffers of one frame is sound. -/
theorem witness_ImageBytesAreRead_recorders :
    let bytes (i : Nat) : Byte := if i < 1024 ∧ (i % 32 = 8 ∨ i % 32 = 24) then 32 else 0
    let body : List Byte := (List.range 1032).map bytes
    readWhole 7 (sectionBytes 7 body) = true ∧
    ∀ k : ChanId, (∀ i : Fin 4, (addrAt body (32 * k.val + 8 * i.val)).toNat % 32 = 0) ∧
      (addrAt body (32 * k.val)).toNat < (addrAt body (32 * k.val + 8)).toNat ∧
      (addrAt body (32 * k.val + 16)).toNat < (addrAt body (32 * k.val + 24)).toNat := by decide +kernel

/-- The loader has section `k` before it, and of it the header and a part of the body. -/
def readPart (k : Nat) (part : List Byte) : Bool :=
  let s := loading k State.reset
  let held := s.ld.buf ++ (leBytes 4 k ++ leBytes 4 (sectionLength k) ++ part)
  s.ld.expected == k && 8 ≤ held.length && leAt held 0 4 == k && leAt held 4 4 == sectionLength k &&
    decide (s.ld.cursor + sectionLength k ≤ 65536) && decide (held.length < sectionLength k)

/-- Sections read in part: all but their last byte, their header alone, and of each that is checked in the section a first
record that is whole and sound or unsound, or the header alone. -/
theorem witness_ImageBytesAreRead_parts :
    (readPart 1 (.replicate 31 0) && readPart 2 [] && readPart 6 [0] && readPart 8 [] && readPart 3 (.replicate 8 0) &&
      readPart 4 (.replicate 108 255) && readPart 5 (.replicate 12 0) && readPart 7 (.replicate 32 0)) = true ∧
    (lineRecordOk (.replicate 8 0) && groupRecordOk (.replicate 12 0)) = true ∧
    (lineRecordOk (.replicate 8 255) || positionRecordOk (.replicate 108 255) || groupRecordOk (.replicate 12 255) ||
      channelRecordOk (.replicate 32 0)) = false ∧
    (readPart 3 (.replicate 7 255) && readPart 4 (.replicate 107 255) && readPart 5 [3] && readPart 7 (.replicate 31 1)) = true := by
  decide +kernel

/-- An END section, with hoot line 80 listed by group 3 and IDLE. -/
def ending : State :=
  let s := (loading 9 State.reset).modLine 80 fun r => { r with type := .hoot, state := .idle }
  flying ⟨.imageRead, 0x10000, [], 0⟩ (s.modGroup 3 fun r => { r with hootLines := [80], policy := .optional })

theorem witness_EndSectionStartsRunning :
    let data : List Byte := [9, 0, 0, 0, 8, 0, 0, 0]
    (∃ u, Returns Purpose.isImageRead 0 ⟨.imageRead, 0x10000, [], 0⟩ ending u) ∧ ending.ld.op = .loading ∧
    ending.ld.expected = 9 ∧ ending.ld.cursor + 8 ≤ 65536 ∧ 8 ≤ (ending.ld.buf ++ data).length ∧
    leAt (ending.ld.buf ++ data) 0 4 = 9 ∧ leAt (ending.ld.buf ++ data) 4 4 = 8 ∧ LineLaw ending ∧ HootLaw ending ∧
    EventLaw ending ∧ (80 : LineId) ∈ (ending.group 3).hootLines ∧ (∀ c, (ending.chan c).state = .free) ∧
    (ending.group 3).policy ≠ .none ∧ (ending.group 4).hootLines = [] ∧ (ending.line 80).ctlPending = false :=
  ⟨⟨_, returns_flying _ _ _ rfl⟩, by decide +kernel, by decide +kernel, by decide +kernel, by decide +kernel,
    by decide +kernel, by decide +kernel, lineLaw_of (by decide +kernel),
    ⟨by decide +kernel, by decide +kernel, by decide +kernel, by decide +kernel, by decide +kernel, by decide +kernel,
      by decide +kernel⟩,
    ⟨by decide +kernel, by decide +kernel, by decide +kernel, by decide +kernel, by decide +kernel⟩, by decide +kernel,
    by decide +kernel, by decide +kernel, by decide +kernel, by decide +kernel⟩
theorem witness_UpstreamWritesAreTreated :
    let post : WriteTxn := ⟨burst 0x200020800 1 .incr, [⟨500, 15⟩]⟩
    writeOk post = true ∧
    (txnBytes post).flatten = (List.range 4).map (fun n => (controlAddr base n |>.toNat, (wordBytes 500).getD n 0)) ∧
    (∀ n, n < 4 → watchedAt base (controlAddr base n).toNat = [(.post, n)]) ∧
    (∃ b ∈ (txnBytes post).flatten, ∃ n, (Watched.post, n) ∈ watchedAt base b.1) ∧
    watchedAt base 0x2000200BC = [(.signal 47, 0)] ∧ watchedAt base 0x20002020F = [(.timeSync, 15)] ∧
    (base.pu.regions.inbound = some 0x200008000 ∧ (base.pu.assembly.get 119).marks.get 0 = none) ∧
    (inboundPlace base 0x20000F7FF = some (119, 7) ∧ inboundPlace base 0x20000F800 = none) := by
  refine ⟨?_, ?_, ?_, ⟨(0x200020800, 0xF4), ?_, 0, ?_⟩, ?_, ?_, ?_, ?_⟩ <;> decide +kernel

/-- A read, a write and an own access wait for the arbiter, with own granted last or not. -/
def arbiter (lastOwn : Bool) (behind : Nat) : State :=
  { live with pu := { live.pu with
    passWaiting := [.write ⟨burst 0 1 .incr, [beat]⟩, .read (burst 0 1 .incr)], lastOwn := lastOwn
    own := [⟨.commandFetch, 0x200030000, [], behind⟩] } }

theorem witness_ForwardedPathAndArbiter :
    (let s : State := { live with pu := { live.pu with passFlight := [.read (burst 0 1 .incr), .read (burst 8 1 .incr)] } }
     s.pu.passFlight = [.read (burst 0 1 .incr)] ++ .read (burst 8 1 .incr) :: []) ∧
    (base.pu.passWaiting = [] ∧ base.pu.own = []) ∧
    (∀ x n, (arbiter x n).pu.passWaiting = .write ⟨burst 0 1 .incr, [beat]⟩ :: [.read (burst 0 1 .incr)] ∧
      (arbiter x n).pu.lastOwn = x ∧
      (arbiter x n).pu.own = [] ++ ⟨.commandFetch, 0x200030000, [], n⟩ :: []) ∧
    (let s : State := { arbiter true 0 with pu := { (arbiter true 0).pu with passWaiting := [] } }
     s.pu.passWaiting = [] ∧ s.pu.own ≠ []) :=
  ⟨rfl, ⟨rfl, rfl⟩, fun _ _ => ⟨rfl, rfl, rfl⟩, rfl, by decide⟩

/-- A line in each state that its outbound names, a handset BOUND and one FREE, channels whose subjects are heard and not, a
recorder channel ACTIVE with a bus and one FREE. -/
theorem witness_MixPlanGivesTerms :
    let s := ((live.setKey 2 0 (some 14)).modGroup 3 fun r => { r with members := 0x0F })
    let on (x : Subject) : SpkChan := ⟨some x, .left, 70, true⟩
    (s.line 14).state = .connected ∧ (s.line 20).state = .held ∧ (s.line 30).state = .ringing ∧
    ((s.line 80).state = .bridged ∧ (s.line 80).group = some 3) ∧ FloorLaw live ∧ HootLaw live ∧
    ((s.handset ⟨3, .left⟩).binding = some 14 ∧ (s.handset ⟨3, .right⟩).binding = none) ∧
    (∀ side : Side, (s.handset ⟨0, side⟩).binding = none) ∧
    ((on (.group 3)).on = true ∧ inSet (s.group 3).members 0 = true ∧ (s.group 3).holders ≠ [] ∧
      (∃ e ∈ (s.group 3).holders, e.pos = 0) ∧ (∀ e ∈ (s.group 3).holders, e.pos ≠ 1) ∧
      inSet (s.group 3).members 4 = false) ∧
    ((on (.line 14)).side = .left ∧ s.appears 2 14 = true ∧ (s.line 14).privacy = false ∧ s.appears 4 14 = false) ∧
    ((s.chan 2).state = .active ∧ (s.chan 2).subject = some (.line 14) ∧ (derivePlan s).bus (.line 14) ≠ [] ∧
      (derivePlan s).bus (.line 30) = [] ∧ (s.chan 3).state ≠ .active) := by
  refine ⟨?_, ?_, ?_, ?_, live_floor, live_hoots, ?_, fun side => ?_, ?_, ?_, ?_⟩
  case refine_6 => cases side <;> decide +kernel
  all_goals decide +kernel

end Sys2Proof.Tests
end

namespace Sys2Proof.Machine

/-! ## Operands out of range -/

theorem sideArg_eq_none {b : Byte} : sideArg b = none ↔ 2 ≤ b.toNat := by revert b; decide
theorem flagArg_eq_none {b : Byte} : flagArg b = none ↔ 2 ≤ b.toNat := by revert b; decide
theorem bufArg_eq_none {b : Byte} : bufArg b = none ↔ 2 ≤ b.toNat := by revert b; decide
theorem typeArg_eq_none {b : Byte} : typeArg b = none ↔ 3 ≤ b.toNat := by revert b; decide
theorem policyArg_eq_none {b : Byte} : policyArg b = none ↔ 3 ≤ b.toNat := by revert b; decide

theorem optIdArg_eq_none {n : Nat} {b : Byte} : optIdArg n b = none ↔ n ≤ b.toNat ∧ b.toNat ≠ 255 := by
  have full : b = 255 ↔ b.toNat = 255 := by rw [← BitVec.toNat_inj]; rfl
  unfold optIdArg
  split <;> simp_all [idArg_eq_none]

theorem handsetArg_eq_none {pos side : Byte} : handsetArg pos side = none ↔ 8 ≤ pos.toNat ∨ 2 ≤ side.toNat := by
  rw [← idArg_eq_none, ← sideArg_eq_none]
  unfold handsetArg
  split
  · next hp hs => simp [hp, hs]
  · next h =>
    cases hp : idArg 8 pos with
    | none => simp
    | some p =>
      cases hs : sideArg side with
      | none => simp
      | some x => exact absurd hs (h p x hp)

/-- A byte is a literal exactly where its number is. -/
theorem byte_eq_ofNat {b : Byte} {n : Nat} (h : n < 256) : b = BitVec.ofNat 8 n ↔ b.toNat = n := by
  rw [← BitVec.toNat_inj, BitVec.toNat_ofNat, Nat.mod_eq_of_lt h]

/-- A subject's two bytes name nothing exactly for an unknown kind or a number out of its kind's range. -/
theorem subjectArg_eq_none {kind number : Byte} : subjectArg kind number = none ↔
    3 ≤ kind.toNat ∨ (kind.toNat = 1 ∧ 96 ≤ number.toNat) ∨ (kind.toNat = 2 ∧ 16 ≤ number.toNat) := by
  have k0 : kind = 0 ↔ kind.toNat = 0 := byte_eq_ofNat (by decide)
  have k1 : kind = 1 ↔ kind.toNat = 1 := byte_eq_ofNat (by decide)
  have k2 : kind = 2 ↔ kind.toNat = 2 := byte_eq_ofNat (by decide)
  unfold subjectArg
  simp only [k0, k1, k2]
  split
  · next h => simp [h]
  · split
    · next h => simp [h, idArg_eq_none]
    · split
      · next h => simp [h, idArg_eq_none]
      · simp; omega

/-- Hoot lines that cannot be read: a count above 2, or a counted line of 96 or more. -/
theorem hootArg_eq_none {c : GroupArgs} : hootArg c = none ↔ 3 ≤ c.hootCount.toNat ∨
    (1 ≤ c.hootCount.toNat ∧ 96 ≤ c.hoot0.toNat) ∨ (c.hootCount.toNat = 2 ∧ 96 ≤ c.hoot1.toNat) := by
  have k0 : c.hootCount = 0 ↔ c.hootCount.toNat = 0 := byte_eq_ofNat (by decide)
  have k1 : c.hootCount = 1 ↔ c.hootCount.toNat = 1 := byte_eq_ofNat (by decide)
  have k2 : c.hootCount = 2 ↔ c.hootCount.toNat = 2 := byte_eq_ofNat (by decide)
  unfold hootArg
  simp only [k0, k1, k2]
  split
  · next h => simp [h]
  · split
    · next h => simp [h, idArg_eq_none]
    · split
      · next h =>
        simp only [h, ← idArg_eq_none]
        cases idArg 96 c.hoot0 <;> cases idArg 96 c.hoot1 <;> simp
      · simp; omega

/-- Two counted hoot lines are read as the lines of their bytes. -/
theorem hootArg_two {c : GroupArgs} {ls : List LineId} (h : hootArg c = some ls) (n : c.hootCount.toNat = 2) :
    ∃ l m : LineId, ls = [l, m] ∧ l.val = c.hoot0.toNat ∧ m.val = c.hoot1.toNat := by
  have two : c.hootCount = 2 := by rw [← BitVec.toNat_inj, n]; rfl
  have read {b : Byte} {l : LineId} (e : idArg 96 b = some l) : l.val = b.toNat := by
    unfold idArg at e
    split at e
    · simp only [Option.some.injEq] at e; rw [← e]
    · simp at e
  simp only [hootArg, two] at h
  cases h0 : idArg 96 c.hoot0 with
  | none => simp [h0] at h
  | some l =>
    cases h1 : idArg 96 c.hoot1 with
    | none => simp [h0, h1] at h
    | some m =>
      refine ⟨l, m, ?_, read h0, read h1⟩
      simpa [h0, h1, eq_comm] using h

theorem queryItem_eq_none {kind index : Byte} : queryItem kind index = none ↔
    5 ≤ kind.toNat ∨ (kind.toNat = 0 ∧ 96 ≤ index.toNat) ∨ (kind.toNat = 1 ∧ 16 ≤ index.toNat) ∨
      (kind.toNat = 2 ∧ 8 ≤ index.toNat) ∨ (kind.toNat = 3 ∧ 32 ≤ index.toNat) := by
  unfold queryItem
  split <;> simp_all [idArg_eq_none]
  omega

theorem queryArgs_eq_none {kind index clear : Byte} {target : Addr} : queryArgs kind index clear target = none ↔
    queryItem kind index = none ∨ 2 ≤ clear.toNat ∨ target.toNat % 64 ≠ 0 := by
  rw [← flagArg_eq_none]
  unfold queryArgs
  cases queryItem kind index <;> cases flagArg clear <;> simp

theorem bufferOk_eq_false {base ceil : Addr} : bufferOk base ceil = false ↔
    base.toNat % 32 ≠ 0 ∨ ceil.toNat % 32 ≠ 0 ∨ ceil.toNat ≤ base.toNat := by
  simp only [bufferOk, Bool.and_eq_false_iff, beq_eq_false_iff_ne, decide_eq_false_iff_not]
  omega

/-! ## Each command on a bad argument (R11, R18, R19, R21 to R26, R48, R53, R58, R72, R146, R152) -/

section
variable (s : State)

theorem lineSet_bad {line type pad preferred ringDelay policy : Byte} {recallTime : Half}
    (h : idArg 96 line = none ∨ typeArg type = none ∨ optIdArg 8 preferred = none ∨ policyArg policy = none) :
    lineSet line type pad preferred ringDelay policy recallTime s = (s, .badArgument) := by
  unfold lineSet
  split <;> simp_all

theorem lineService_bad {line dir : Byte}
    (h : idArg 96 line = none ∨ flagArg dir = none) :
    lineService line dir s = (s, .badArgument) := by
  unfold lineService
  split <;> simp_all

theorem appearSet_bad {pos key line : Byte}
    (h : idArg 8 pos = none ∨ idArg 48 key = none ∨ optIdArg 96 line = none) :
    appearSet pos key line s = (s, .badArgument) := by
  unfold appearSet
  split <;> simp_all

theorem positionSet_bad {pos micPad duck ringLevel recallLevel supervisor : Byte}
    (h : idArg 8 pos = none ∨ flagArg supervisor = none) :
    positionSet pos micPad duck ringLevel recallLevel supervisor s = (s, .badArgument) := by
  unfold positionSet
  split <;> simp_all

theorem speakerSet_bad {pos chan kind subject flags volume : Byte}
    (h : idArg 8 pos = none ∨ idArg 12 chan = none ∨ subjectArg kind subject = none) :
    speakerSet pos chan kind subject flags volume s = (s, .badArgument) := by
  unfold speakerSet
  split <;> simp_all

theorem talk_bad {pos group : Byte}
    (h : idArg 8 pos = none ∨ idArg 16 group = none) :
    talk pos group s = (s, .badArgument) := by
  unfold talk
  split <;> simp_all

theorem talkEnd_bad {pos group : Byte}
    (h : idArg 8 pos = none ∨ idArg 16 group = none) :
    talkEnd pos group s = (s, .badArgument) := by
  unfold talkEnd
  split <;> simp_all

theorem recordReturn_bad {chan buffer : Byte}
    (h : idArg 32 chan = none ∨ bufArg buffer = none) :
    recordReturn chan buffer s = (s, .badArgument) := by
  unfold recordReturn
  split <;> simp_all

theorem seize_bad {pos side line : Byte} (h : handsetArg pos side = none ∨ idArg 96 line = none) :
    seize pos side line s = (s, .badArgument) := by
  unfold seize
  split <;> simp_all

theorem boundLine_bad {pos side : Byte} (h : handsetArg pos side = none) :
    boundLine pos side s = .error .badArgument := by simp [boundLine, h]

theorem release_bad {pos side : Byte} (h : handsetArg pos side = none) : release pos side s = (s, .badArgument) := by
  simp [release, boundLine_bad s h]

theorem hold_bad {pos side : Byte} (h : handsetArg pos side = none) : hold pos side s = (s, .badArgument) := by
  simp [hold, boundLine_bad s h]

theorem privacy_bad {pos side value : Byte} (h : handsetArg pos side = none ∨ flagArg value = none) :
    privacy pos side value s = (s, .badArgument) := by
  unfold privacy
  split
  · rfl
  · next hv => simp [boundLine_bad s (h.resolve_right (by simp [hv]))]

theorem handsetSet_bad {pos side volume micPad : Byte} (h : handsetArg pos side = none) :
    handsetSet pos side volume micPad s = (s, .badArgument) := by simp [handsetSet, h]

theorem forceClear_bad {line : Byte} (h : idArg 96 line = none) : forceClear line s = (s, .badArgument) := by
  simp [forceClear, h]

theorem groupSet_bad {group : Byte} {c : GroupArgs}
    (h : idArg 16 group = none ∨ hootArg c = none ∨ (∃ ls, hootArg c = some ls ∧ ¬ls.Nodup) ∨ policyArg c.policy = none) :
    groupSet group c s = (s, .badArgument) := by
  unfold groupSet
  split
  · next hg hl hp =>
    rcases h with h | h | ⟨ls, h, again⟩ | h
    · simp [h] at hg
    · simp [h] at hl
    · simp_all
    · simp [h] at hp
  · rfl

theorem recorderSet_bad {chan : Byte} {baseA ceilA baseB ceilB : Addr}
    (h : idArg 32 chan = none ∨ bufferOk baseA ceilA = false ∨ bufferOk baseB ceilB = false) :
    recorderSet chan baseA ceilA baseB ceilB s = (s, .badArgument) := by
  unfold recorderSet
  split
  · rfl
  · next hc => rcases h with h | h | h <;> simp_all

end

/-- A host command with bad arguments, once it is the one in hand, completes BAD_ARGUMENT at once. -/
theorem exec_of_badArgs {c : Instr} {s : State} (holds : s.holds c = true) (bad : BadArgs c)
    (query : (∀ kind index clear target, c ≠ .query kind index clear target) ∨ s.snapshotOut = false) :
    exec c s = .next (complete .badArgument s) := by
  have answered {act : State → State × Status} (h : act s = (s, .badArgument)) :
      runCommand c act s = .next (complete .badArgument s) := by rw [runCommand_of_holds holds, h]
  cases c with
  | lineSet line type pad preferred ringDelay policy recallTime =>
    exact answered (lineSet_bad s (by
      rw [idArg_eq_none, typeArg_eq_none, optIdArg_eq_none, policyArg_eq_none]; exact bad))
  | lineService line dir => exact answered (lineService_bad s (by rw [idArg_eq_none, flagArg_eq_none]; exact bad))
  | appearSet pos key line =>
    exact answered (appearSet_bad s (by rw [idArg_eq_none, idArg_eq_none, optIdArg_eq_none]; exact bad))
  | seize pos side line =>
    exact answered (seize_bad s (by rw [handsetArg_eq_none, idArg_eq_none, or_assoc]; exact bad))
  | release pos side => exact answered (release_bad s (by rw [handsetArg_eq_none]; exact bad))
  | hold pos side => exact answered (hold_bad s (by rw [handsetArg_eq_none]; exact bad))
  | privacy pos side value =>
    exact answered (privacy_bad s (by rw [handsetArg_eq_none, flagArg_eq_none, or_assoc]; exact bad))
  | forceClear line => exact answered (forceClear_bad s (by rw [idArg_eq_none]; exact bad))
  | handsetSet pos side volume micPad => exact answered (handsetSet_bad s (by rw [handsetArg_eq_none]; exact bad))
  | positionSet pos micPad duck ringLevel recallLevel supervisor =>
    exact answered (positionSet_bad s (by rw [idArg_eq_none, flagArg_eq_none]; exact bad))
  | speakerSet pos chan kind subject flags volume =>
    exact answered (speakerSet_bad s (by rw [idArg_eq_none, idArg_eq_none, subjectArg_eq_none]; exact bad))
  | groupSet group cfg =>
    refine answered (groupSet_bad s ?_)
    rw [idArg_eq_none, hootArg_eq_none, policyArg_eq_none]
    rcases bad with h | h | h | ⟨two, h | same⟩ | h
    · exact .inl h
    · exact .inr (.inl (.inl h))
    · exact .inr (.inl (.inr (.inl h)))
    · exact .inr (.inl (.inr (.inr ⟨two, h⟩)))
    · cases read : hootArg cfg with
      | none => exact .inr (.inl (hootArg_eq_none.1 read))
      | some ls =>
        obtain ⟨l, m, rfl, hl, hm⟩ := hootArg_two read two
        have : l = m := Fin.ext (by rw [hl, hm, same])
        exact .inr (.inr (.inl ⟨_, rfl, by simp [this]⟩))
    · exact .inr (.inr (.inr h))
  | talk pos group => exact answered (talk_bad s (by rw [idArg_eq_none, idArg_eq_none]; exact bad))
  | talkEnd pos group => exact answered (talkEnd_bad s (by rw [idArg_eq_none, idArg_eq_none]; exact bad))
  | recorderSet chan baseA ceilA baseB ceilB =>
    exact answered (recorderSet_bad s (by
      rw [idArg_eq_none, bufferOk_eq_false, bufferOk_eq_false, or_assoc, or_assoc]; exact bad))
  | recordReturn chan buffer => exact answered (recordReturn_bad s (by rw [idArg_eq_none, bufArg_eq_none]; exact bad))
  | query kind index clear target =>
    have args : queryArgs kind index clear target = none := by
      rw [queryArgs_eq_none, queryItem_eq_none]
      simp only [or_assoc]
      exact bad
    have out : s.snapshotOut = false := query.resolve_left fun h => h _ _ _ _ rfl
    simp [exec, execQuery, holds, out, args]
  | _ => exact bad.elim

/-- Settles O16: each host command reads its arguments before anything else. -/
theorem badArgumentsAreAnswered : Obligations.BadArgumentsAreAnswered :=
  fun _ s holds bad query => onlyAnswers_of_eq s (exec_of_badArgs holds bad query)

end Sys2Proof.Machine

namespace Sys2Proof.Machine

/-! ## The state after a reset -/

section
variable (fr : FaultRecord) (straps : BitVec 2) (draws : Nat) (pending : List Instr)

@[simp] theorem afterReset_line (l : LineId) : (State.afterReset fr straps draws pending).line l = .reset :=
  Table.get_replicate ..
@[simp] theorem afterReset_handset (h : Handset) : (State.afterReset fr straps draws pending).handset h = ⟨none, 0, 0⟩ :=
  Table.get_replicate ..
@[simp] theorem afterReset_map (p : PosId) : (State.afterReset fr straps draws pending).map p = .replicate 48 none :=
  Table.get_replicate ..
@[simp] theorem afterReset_ring (l : LineId) : (State.afterReset fr straps draws pending).ring l = none :=
  Table.get_replicate ..
@[simp] theorem afterReset_posRing (p : PosId) : (State.afterReset fr straps draws pending).posRing p = ⟨0, 0, false⟩ :=
  Table.get_replicate ..
@[simp] theorem afterReset_group (g : GroupId) : (State.afterReset fr straps draws pending).group g = .reset :=
  Table.get_replicate ..
@[simp] theorem afterReset_settings (p : PosId) :
    (State.afterReset fr straps draws pending).settings p = ⟨0, 0, 0, 0, false⟩ := Table.get_replicate ..
@[simp] theorem afterReset_speakers (p : PosId) :
    (State.afterReset fr straps draws pending).speakers p = .replicate 12 ⟨none, .left, 0, false⟩ := Table.get_replicate ..
@[simp] theorem afterReset_chan (c : ChanId) : (State.afterReset fr straps draws pending).chan c = .reset :=
  Table.get_replicate ..
@[simp] theorem afterReset_running : (State.afterReset fr straps draws pending).running = false := rfl

/-! ## The laws hold after a reset -/

theorem eventLaw_afterReset : EventLaw (State.afterReset fr straps draws pending) where
  fill := by simp [State.afterReset, CmdUnit.reset]
  places := Nat.zero_le _
  full h := absurd rfl h
  reserve h := absurd rfl h
  outside _ := ⟨rfl, rfl, rfl⟩

theorem audioLaw_afterReset : AudioLaw (State.afterReset fr straps draws pending) where
  balance i := by simp [State.afterReset, PathUnit.reset]
  depth i := by simp [State.afterReset, PathUnit.reset]
  store j := by simp [State.afterReset, PathUnit.reset]
  outside _ := ⟨rfl, fun i => Table.get_replicate ..⟩

theorem lineLaw_afterReset : LineLaw (State.afterReset fr straps draws pending) where
  bound h l := by simp [LineRec.reset]
  once l := by simp [LineRec.reset]
  owned l := by simp [LineRec.reset]
  places l := by simp [LineRec.reset]
  held l := by simp [LineRec.reset]
  timed l := by simp [LineRec.reset]
  bridged l := by simp [LineRec.reset]
  rings l := by simp [LineRec.reset]
  missed l := by simp [LineRec.reset]
  outside _ l := by simp [LineRec.reset]

theorem alertLaw_afterReset : AlertLaw (State.afterReset fr straps draws pending) where
  rings p := by simp [shownAt]
  recalls p := by simp [shownAt]
  alert p := by simp

theorem floorLaw_afterReset : FloorLaw (State.afterReset fr straps draws pending) where
  least g := by simp [GroupRec.reset]
  most g := by simp [GroupRec.reset]
  holders g := by simp [GroupRec.reset]
  queue g := by simp [GroupRec.reset]
  members g p h := by simp [State.onFloor, GroupRec.reset, entryOf] at h
  once g := by simp [GroupRec.reset]
  apart g h p hg := by simp [State.onFloor, GroupRec.reset, entryOf] at hg
  outside _ g := by simp [GroupRec.reset]

theorem hootLinesOf_afterReset : hootLinesOf (State.afterReset fr straps draws pending) = [] := by
  simp [hootLinesOf, GroupRec.reset]

theorem hootLaw_afterReset : HootLaw (State.afterReset fr straps draws pending) where
  once := by simp [hootLinesOf_afterReset]
  type g l h := by simp [GroupRec.reset] at h
  listed run := by simp at run
  bridged g l h := by simp [LineRec.reset] at h
  calls l h := by simp [LineRec.reset]
  outside _ g l h := by simp [GroupRec.reset] at h
  unread _ _ := hootLinesOf_afterReset ..

theorem recorderLaw_afterReset : RecorderLaw (State.afterReset fr straps draws pending) := fun c =>
  ⟨by simp [Channel.reset], by simp [Channel.reset], by simp [Channel.reset], by simp [Channel.reset]⟩

end

/-- Settles O3: every reset leaves the laws true, so power-on does. -/
theorem lawsHoldAtReset : Obligations.LawsHoldAtReset :=
  ⟨eventLaw_afterReset .., audioLaw_afterReset .., lineLaw_afterReset .., alertLaw_afterReset .., floorLaw_afterReset ..,
    hootLaw_afterReset .., recorderLaw_afterReset _ _ _ _⟩

/-- Settles O13: the two resets differ in the Fault Record they are given. -/
theorem resetsLeavePowerOnValues : Obligations.ResetsLeavePowerOnValues := by
  intro straps s
  refine ⟨State.afterReset .reset straps s.draws s.pending, rfl, rfl, ⟨rfl, rfl, rfl⟩, fun l => ?_, fun h => by simp,
    fun p => by simp, rfl, fun g => by simp [GroupRec.reset], fun i => ?_, fun j => ?_, fun x => ?_, ?_, ?_,
    fun c => by simp [Channel.reset, Buffer.reset], ?_, ?_⟩
  · simp [LineRec.reset]
  · exact ⟨Table.get_replicate .., Table.get_replicate .., Table.get_replicate .., Table.get_replicate ..,
      Table.get_replicate ..⟩
  · exact ⟨Table.get_replicate .., Table.get_replicate .., Table.get_replicate ..⟩
  · exact ⟨Table.get_replicate .., Table.get_replicate ..⟩
  · exact ⟨rfl, rfl, rfl, rfl, rfl, rfl, rfl⟩
  · exact ⟨rfl, rfl, rfl, rfl, rfl, rfl, rfl, rfl, rfl, rfl, rfl, rfl⟩
  · exact ⟨rfl, rfl, rfl, rfl, rfl⟩
  · exact ⟨rfl, rfl, rfl, rfl, rfl, rfl, rfl, rfl⟩

end Sys2Proof.Machine

namespace Sys2Proof.Machine

/-- How a frame is proved of which the Line Table alone is left out. -/
theorem LineCtl.eq_of_lines {a b : LineCtl} (handsets : a.handsets = b.handsets) (maps : a.maps = b.maps) :
    a = { b with lines := a.lines } := by rw [← handsets, ← maps]

variable (s : State)

/-! ## A change of a line's state (R2, R8) -/

theorem LineState.nearEnd_eq_offHook {st : LineState} :
    st.nearEnd = .offHook ↔ st = .connected ∨ st = .held ∨ st = .bridged := by cases st <;> simp [LineState.nearEnd]

theorem markControl_line (l m : LineId) :
    (markControl l s).line m = if l = m then { s.line l with ctlPending := true } else s.line m := by
  unfold markControl
  split
  · next marked => split <;> simp_all [← marked]
  · simp [modLine_line]

theorem markControl_pu (l : LineId) : (markControl l s).pu =
    { s.pu with own := s.pu.own ++ if (s.line l).ctlPending then [] else [controlWrite s l] } := by
  unfold markControl
  split
  · simp
  · rfl

@[simp] theorem markControl_handsets (l : LineId) : (markControl l s).lc.handsets = s.lc.handsets := by
  unfold markControl; split <;> rfl
@[simp] theorem markControl_maps (l : LineId) : (markControl l s).lc.maps = s.lc.maps := by
  unfold markControl; split <;> rfl

/-- The change of state moves near_end (R8). -/
def nearEndMoves (r : LineRec) (st : LineState) : Bool := r.state.nearEnd != st.nearEnd

/-- A line's record after a change of its state. -/
def LineRec.entered (r : LineRec) (st : LineState) : LineRec :=
  { r with state := st, ctlPending := r.ctlPending || nearEndMoves r st }

@[simp] theorem LineRec.entered_state (r : LineRec) (st : LineState) : (r.entered st).state = st := rfl
@[simp] theorem LineRec.entered_type (r : LineRec) (st : LineState) : (r.entered st).type = r.type := rfl
@[simp] theorem LineRec.entered_ringInd (r : LineRec) (st : LineState) : (r.entered st).ringInd = r.ringInd := rfl
@[simp] theorem LineRec.entered_farEnd (r : LineRec) (st : LineState) : (r.entered st).farEnd = r.farEnd := rfl
@[simp] theorem LineRec.entered_owners (r : LineRec) (st : LineState) : (r.entered st).owners = r.owners := rfl
@[simp] theorem LineRec.entered_group (r : LineRec) (st : LineState) : (r.entered st).group = r.group := rfl
@[simp] theorem LineRec.entered_heldBy (r : LineRec) (st : LineState) : (r.entered st).heldBy = r.heldBy := rfl
@[simp] theorem LineRec.entered_recallDeadline (r : LineRec) (st : LineState) :
    (r.entered st).recallDeadline = r.recallDeadline := rfl
@[simp] theorem LineRec.entered_missed (r : LineRec) (st : LineState) : (r.entered st).missed = r.missed := rfl

theorem setLineState_line (l m : LineId) (st : LineState) (cause : LineCause) :
    (setLineState l st cause s).line m = if l = m then (s.line l).entered st else s.line m := by
  have moved : nearEndMoves (s.line l) st = true ↔ (s.line l).state.nearEnd ≠ st.nearEnd := by simp [nearEndMoves]
  unfold setLineState LineRec.entered
  dsimp only
  rw [post_line]
  split
  · next h => rw [markControl_line, moved.2 h, Bool.or_true]; split <;> simp_all
  · next h => rw [Bool.eq_false_iff.2 (fun x => h (moved.1 x)), Bool.or_false]; split <;> simp_all

@[simp] theorem setLineState_line_self (l : LineId) (st : LineState) (cause : LineCause) :
    (setLineState l st cause s).line l = (s.line l).entered st := by simp [setLineState_line]

theorem setLineState_onlyLine (l : LineId) (st : LineState) (cause : LineCause) :
    OnlyLine l s (setLineState l st cause s) := fun m h => by simp [setLineState_line, Ne.symm h]

@[simp] theorem setLineState_handsets (l : LineId) (st : LineState) (cause : LineCause) :
    (setLineState l st cause s).lc.handsets = s.lc.handsets := by
  unfold setLineState; dsimp only; split <;> simp [State.modLine]
@[simp] theorem setLineState_maps (l : LineId) (st : LineState) (cause : LineCause) :
    (setLineState l st cause s).lc.maps = s.lc.maps := by
  unfold setLineState; dsimp only; split <;> simp [State.modLine]

/-- The line control word that the change of state asks for (R8). -/
def controlAsked (l : LineId) (st : LineState) : List OwnAccess :=
  if nearEndMoves (s.line l) st && !(s.line l).ctlPending then [controlWrite s l] else []

/-- What the change asks for: the control word where it marks the line, then the slot writes of its event. -/
theorem setLineState_pu (l : LineId) (st : LineState) (cause : LineCause) : (setLineState l st cause s).pu =
    { s.pu with own := s.pu.own ++ controlAsked s l st ++ (s.cu.takeEvent s.cu.reserve (.lineState l st cause)).slots } := by
  have moved : nearEndMoves (s.line l) st = true ↔ (s.line l).state.nearEnd ≠ st.nearEnd := by simp [nearEndMoves]
  unfold setLineState controlAsked
  dsimp only
  split
  · next h =>
    rw [moved.2 h]
    cases pending : (s.line l).ctlPending <;>
      simp [post, postKeeping, emit, markControl_pu, pending, controlWrite]
  · next h =>
    rw [Bool.eq_false_iff.2 (fun x => h (moved.1 x))]
    simp [post, postKeeping, emit]

/-- Settles O18. -/
theorem lineStateChangeIsTold : Obligations.LineStateChangeIsTold := by
  intro l st cause s
  refine ⟨LineState.nearEnd_eq_offHook, setLineState_line_self .., setLineState_onlyLine s l st cause,
    posts_setLineState .., ?_, ?_⟩
  · have slots : ((s.cu.takeEvent s.cu.reserve (.lineState l st cause)).slots).filter
        (fun a => a.purpose.kind == .lineControl) = [] :=
      List.filter_eq_nil_iff.2 fun a ha => by simp [CmdUnit.takeEvent_slots _ _ _ a ha]
    have asked : (controlAsked s l st).filter (fun a => a.purpose.kind == .lineControl) = controlAsked s l st := by
      unfold controlAsked; split <;> rfl
    rw [setLineState_pu]
    simp only [List.append_assoc, List.drop_left, List.filter_append, slots, asked, List.append_nil]
    rfl
  · apply State.ext_parts
    · exact LineCtl.eq_of_lines (by simp) (by simp)
    all_goals simp

end Sys2Proof.Machine

namespace Sys2Proof.Machine

variable (s : State)

/-! ## A presentation set changes (R30) -/

@[simp] theorem addShown_rings (b : Bool) (p : PosId) : (addShown b p s).rc.rings = s.rc.rings := by
  unfold addShown; dsimp only; split <;> rfl
@[simp] theorem dropShown_rings (b : Bool) (p : PosId) : (dropShown b p s).rc.rings = s.rc.rings := by
  unfold dropShown; dsimp only; split <;> rfl
@[simp] theorem moveShown_rings (b : Bool) (old new : PosSet) : (moveShown b old new s).rc.rings = s.rc.rings :=
  moveShown_keeps s (·.rc.rings) (by simp) (by simp) ..
@[simp] theorem addShown_ring (b : Bool) (p : PosId) (m : LineId) : (addShown b p s).ring m = s.ring m := by
  simp [State.ring]
@[simp] theorem dropShown_ring (b : Bool) (p : PosId) (m : LineId) : (dropShown b p s).ring m = s.ring m := by
  simp [State.ring]
@[simp] theorem moveShown_ring (b : Bool) (old new : PosSet) (m : LineId) :
    (moveShown b old new s).ring m = s.ring m := by simp [State.ring]

/-- One position's share of a change of a presentation set. -/
def moveAt (isRecall : Bool) (old new : PosSet) (s : State) (p : PosId) : State :=
  if inSet old p = inSet new p then s
  else if inSet new p = true then addShown isRecall p s
  else dropShown isRecall p s

/-- The alert of one position at such a change. -/
def alertChange (s : State) (old new : PosSet) (p : PosId) : Option Event :=
  if inSet old p = inSet new p then none
  else if inSet new p = true then if (s.posRing p).ringCount = 0 then some (.positionAlert p true) else none
  else if (s.posRing p).ringCount = 1 then some (.positionAlert p false) else none

theorem alertChanges_eq (old new : PosSet) : alertChanges s old new = (List.finRange 8).filterMap (alertChange s old new) :=
  rfl

theorem alertChange_congr {s t : State} {p : PosId} (h : t.posRing p = s.posRing p) (old new : PosSet) :
    alertChange t old new p = alertChange s old new p := by unfold alertChange; rw [h]

theorem alertChanges_congr {s t : State} (h : ∀ p, t.posRing p = s.posRing p) (old new : PosSet) :
    alertChanges t old new = alertChanges s old new := by
  rw [alertChanges_eq, alertChanges_eq, funext fun p => alertChange_congr (h p) old new]

theorem moveAt_posRing (b : Bool) (old new : PosSet) (p q : PosId) :
    (moveAt b old new s p).posRing q = if p = q then movedCounts b old new p (s.posRing p) else s.posRing q := by
  unfold moveAt movedCounts
  split
  · split <;> simp_all
  · split
    · rw [addShown_posRing]
    · rw [dropShown_posRing]

/-! ### Updates that post nothing -/

theorem posts_setPosRing (p : PosId) (c : PosRing) : Posts [] s (s.setPosRing p c) := .of_eq rfl rfl fun _ => rfl
theorem posts_setRing (l : LineId) (r : Option RingRec) : Posts [] s (s.setRing l r) := .of_eq rfl rfl fun _ => rfl
theorem posts_modHandset (h : Handset) (f : HandsetRec → HandsetRec) : Posts [] s (s.modHandset h f) :=
  .of_eq rfl rfl fun _ => rfl
theorem posts_modGroup (g : GroupId) (f : GroupRec → GroupRec) : Posts [] s (s.modGroup g f) := .of_eq rfl rfl fun _ => rfl
theorem posts_modChan (c : ChanId) (f : Channel → Channel) : Posts [] s (s.modChan c f) := .of_eq rfl rfl fun _ => rfl
/-- A line's record is changed, and its mark is not. -/
theorem posts_modLine (l : LineId) (f : LineRec → LineRec) (h : (f (s.line l)).ctlPending = (s.line l).ctlPending) :
    Posts [] s (s.modLine l f) :=
  .of_eq rfl rfl fun m => by rw [modLine_line]; split <;> simp_all

/-! ### The alerts of a change -/

theorem posts_addShown (b : Bool) (p : PosId) :
    Posts (if (s.posRing p).ringCount = 0 then [.positionAlert p true] else []) s (addShown b p s) := by
  unfold addShown
  dsimp only
  split
  · exact (posts_setPosRing s p _).trans (posts_post _ _)
  · exact .of_eq rfl rfl fun _ => rfl

theorem posts_dropShown (b : Bool) (p : PosId) :
    Posts (if (s.posRing p).ringCount = 1 then [.positionAlert p false] else []) s (dropShown b p s) := by
  unfold dropShown
  dsimp only
  split
  · exact (posts_setPosRing s p _).trans (posts_post _ _)
  · exact .of_eq rfl rfl fun _ => rfl

theorem posts_moveAt (b : Bool) (old new : PosSet) (p : PosId) :
    Posts (alertChange s old new p).toList s (moveAt b old new s p) := by
  unfold moveAt alertChange
  split
  · exact .refl s
  · split
    · convert posts_addShown s b p using 1; split <;> rfl
    · convert posts_dropShown s b p using 1; split <;> rfl

/-- A series of positions, each once: every one of them has its counts moved and its alert posted, in order. -/
theorem foldl_moveAt (b : Bool) (old new : PosSet) (ps : List PosId) (once : ps.Nodup) :
    (∀ q, (ps.foldl (moveAt b old new) s).posRing q =
      if q ∈ ps then movedCounts b old new q (s.posRing q) else s.posRing q) ∧
    Posts (ps.filterMap (alertChange s old new)) s (ps.foldl (moveAt b old new) s) := by
  induction ps generalizing s with
  | nil => exact ⟨fun q => by simp, .refl s⟩
  | cons p ps ih =>
    obtain ⟨new_, once⟩ := List.nodup_cons.1 once
    obtain ⟨counts, posts⟩ := ih (moveAt b old new s p) once
    refine ⟨fun q => ?_, ?_⟩
    · rw [List.foldl_cons, counts, moveAt_posRing]
      by_cases e : p = q
      · subst e; simp [new_]
      · simp [e, Ne.symm e]
    · have same : ps.filterMap (alertChange (moveAt b old new s p) old new) = ps.filterMap (alertChange s old new) :=
        List.filterMap_congr fun q hq => alertChange_congr (by
          rw [moveAt_posRing, if_neg fun e : p = q => new_ (e ▸ hq)]) old new
      rw [same] at posts
      rw [List.filterMap_cons, List.foldl_cons]
      have first := posts_moveAt s b old new p
      cases h : alertChange s old new p with
      | none => rw [h] at first; exact first.trans posts
      | some e => rw [h] at first; exact first.trans posts

theorem moveShown_eq (b : Bool) (old new : PosSet) : moveShown b old new s = (List.finRange 8).foldl (moveAt b old new) s :=
  rfl

theorem moveShown_posRing (b : Bool) (old new : PosSet) (p : PosId) :
    (moveShown b old new s).posRing p = movedCounts b old new p (s.posRing p) := by
  rw [moveShown_eq, (foldl_moveAt s b old new _ (List.nodup_finRange 8)).1, if_pos (List.mem_finRange p)]

theorem posts_moveShown (b : Bool) (old new : PosSet) : Posts (alertChanges s old new) s (moveShown b old new s) :=
  (foldl_moveAt s b old new _ (List.nodup_finRange 8)).2

/-! ## The steps of a ring -/

/-- A ring record changes, an event is posted, and the presentation set moves: the shape of every step of a ring. -/
theorem ringMoves_of_set (l : LineId) (b : Bool) (old new : PosSet) (ring : Option RingRec) (e : Event) :
    RingMoves l b old new ring [e] s (moveShown b old new (post e (s.setRing l ring))) where
  ring := by simp
  others m h := by simp [setRing_ring, Ne.symm h]
  counts p := by rw [moveShown_posRing]; rfl
  events := by
    have moved := ((posts_setRing s l ring).trans (posts_post _ e)).trans (posts_moveShown _ b old new)
    rwa [alertChanges_congr (s := s) fun p => by simp] at moved

/-- Events posted, with the Ring Presenter untouched, before a ring's step. -/
theorem RingMoves.after {l : LineId} {b : Bool} {old new : PosSet} {ring : Option RingRec} {es fs : List Event}
    {s t u : State} (h : RingMoves l b old new ring fs t u) (before : Posts es s t) (rc : t.rc = s.rc) :
    RingMoves l b old new ring (es ++ fs) s u where
  ring := h.ring
  others m hm := by rw [h.others m hm]; simp [State.ring, rc]
  counts p := by rw [h.counts p]; simp [State.posRing, rc]
  events := by
    have := before.trans h.events
    rwa [← List.append_assoc, alertChanges_congr (s := s) fun p => by simp [State.posRing, rc]] at this

theorem startRing_moves (l : LineId) :
    RingMoves l false 0 (newRing s l).1.shown (some (newRing s l).1) [.ringStart l (newRing s l).1.phase (newRing s l).2]
      s (startRing l s) :=
  ringMoves_of_set ..

theorem startRecall_moves (l : LineId) (p : PosId) :
    RingMoves l true 0 (onlyPos p) (some ⟨.recall, onlyPos p, none, some p⟩) [.ringStart l .recall (some p)]
      s (startRecall l p s) :=
  ringMoves_of_set ..

theorem widen_moves (l : LineId) (reason : PhaseReason) (r : RingRec) :
    RingMoves l false r.shown (appearing s l) (some ⟨.general, appearing s l, none, none⟩) [.ringPhase l reason]
      s (widen l reason r s) :=
  ringMoves_of_set ..

theorem endRing_moves {l : LineId} {r : RingRec} (h : s.ring l = some r) (cause : RingCause) (pos : Option PosId) :
    RingMoves l (r.phase == .recall) r.shown 0 none [.ringEnd l cause pos] s (endRing l cause pos s) := by
  unfold endRing
  rw [h]
  exact {
    ring := by simp
    others m hm := by simp [setRing_ring, Ne.symm hm]
    counts p := by rw [setRing_posRing, moveShown_posRing]; rfl
    events := by
      have moved := (posts_post s (.ringEnd l cause pos)).trans (posts_moveShown _ (r.phase == .recall) r.shown 0)
      rw [alertChanges_congr (s := s) fun p => by simp] at moved
      simpa using moved.trans (posts_setRing _ l none) }

theorem endRing_of_none {l : LineId} (h : s.ring l = none) (cause : RingCause) (pos : Option PosId) :
    endRing l cause pos s = s := by simp [endRing, h]

/-- After the end of a ring the line has none. -/
theorem endRing_ring (l m : LineId) (cause : RingCause) (pos : Option PosId) :
    (endRing l cause pos s).ring m = if l = m then none else s.ring m := by
  cases h : s.ring l with
  | none => rw [endRing_of_none s h]; split <;> simp_all
  | some r =>
    have moves := endRing_moves s h cause pos
    split
    · next e => exact e ▸ moves.ring
    · next e => exact moves.others m (Ne.symm e)

theorem startRing_ring (l m : LineId) :
    (startRing l s).ring m = if l = m then some (newRing s l).1 else s.ring m := by
  split
  · next e => exact e ▸ (startRing_moves s l).ring
  · next e => exact (startRing_moves s l).others m (Ne.symm e)

/-! ## A new ring of an IDLE line (R4, R31) -/

/-- The ring of a line preferred at a position that has it on its map, with a ring_delay. -/
theorem newRing_preferred {l : LineId} {p : PosId} (hp : (s.line l).preferred = some p) (appears : s.appears p l = true)
    (delay : 0 < (s.line l).ringDelay) :
    newRing s l = (⟨.preferred, onlyPos p, some (s.now + BitVec.ofNat 32 (s.line l).ringDelay), none⟩, some p) := by
  simp [newRing, hp, appears, delay]

/-- The ring of any other line. -/
theorem newRing_general {l : LineId}
    (h : ∀ p, (s.line l).preferred = some p → s.appears p l = true → (s.line l).ringDelay = 0) :
    newRing s l = (⟨.general, appearing s l, none, none⟩, none) := by
  unfold newRing
  dsimp only
  split
  · rfl
  · next p hp => rw [if_neg fun x => by have := h p hp x.1; omega]

theorem enterRinging_line (l m : LineId) :
    (enterRinging l s).line m = if l = m then (s.line l).entered .ringing else s.line m := by
  simp [enterRinging, setLineState_line]

theorem enterRinging_ring (l m : LineId) :
    (enterRinging l s).ring m = if l = m then some (newRing (setLineState l .ringing .ring s) l).1 else s.ring m := by
  simp [enterRinging, startRing_ring]

theorem enterRinging_moves (l : LineId) :
    let ring := newRing (setLineState l .ringing .ring s) l
    RingMoves l false 0 ring.1.shown (some ring.1) [.lineState l .ringing .ring, .ringStart l ring.1.phase ring.2]
      s (enterRinging l s) :=
  (startRing_moves (setLineState l .ringing .ring s) l).after (posts_setLineState s l .ringing .ring) (by simp)

/-- The new ring of a line that has gone on to RINGING is that of its record. -/
theorem newRing_setLineState (l : LineId) (st : LineState) (cause : LineCause) :
    newRing (setLineState l st cause s) l = newRing s l := by
  unfold newRing appearing
  simp [LineRec.entered]

@[simp] theorem enterRinging_handsets (l : LineId) : (enterRinging l s).lc.handsets = s.lc.handsets := by
  simp [enterRinging]
@[simp] theorem enterRinging_maps (l : LineId) : (enterRinging l s).lc.maps = s.lc.maps := by simp [enterRinging]

/-- Settles O20: `newRing` reads of the line's record what the change of state leaves alone. -/
theorem newRingIsPresented : Obligations.NewRingIsPresented := by
  intro l s idle
  refine ⟨(newRing s l).1, (newRing s l).2, fun p hp appears delay => ?_, fun h => ?_, ?_, fun m h => ?_, ?_, ?_⟩
  · rw [newRing_preferred s hp appears delay]; exact ⟨rfl, rfl⟩
  · rw [newRing_general s h]; exact ⟨rfl, fun p => inSet_appearing s l p, rfl⟩
  · rw [enterRinging_line, if_pos rfl]
    simp [LineRec.entered, nearEndMoves, idle, LineState.nearEnd]
  · simp [enterRinging_line, Ne.symm h]
  · simpa [newRing_setLineState] using enterRinging_moves s l
  · apply State.ext_parts
    · exact LineCtl.eq_of_lines (by simp) (by simp)
    all_goals simp

end Sys2Proof.Machine

namespace Sys2Proof.Machine

variable (s : State)

/-! ## The end of a session -/

theorem sessionEnd_of_none {c : ChanId} (h : (s.chan c).session = none) (cause : SessionCause) : sessionEnd c cause s = s := by
  simp [sessionEnd, h]

/-- A channel whose session has ended (R153). -/
def Channel.drained (ch : Channel) (x : Session) (cause : SessionCause) (s : State) : Channel :=
  { ch with state := .draining, segPending := false, session := none, closeRecord := some (endedSession s x cause),
            closeDone := false, frameSeen := false, placed := none }

theorem sessionEnd_of_some {c : ChanId} {x : Session} (h : (s.chan c).session = some x) (cause : SessionCause) :
    sessionEnd c cause s = s.modChan c fun ch => ch.drained x cause s := by
  simp only [sessionEnd, h]; rfl

theorem sessionEnd_onlyChan (c : ChanId) (cause : SessionCause) : OnlyChan c s (sessionEnd c cause s) := by
  intro d h
  unfold sessionEnd
  split
  · rfl
  · simp [modChan_chan, Ne.symm h]

/-- A session end leaves all of the Recorder Unit but its channels. -/
theorem sessionEnd_ru (c : ChanId) (cause : SessionCause) :
    (sessionEnd c cause s).ru = { s.ru with channels := (sessionEnd c cause s).ru.channels } := by
  unfold sessionEnd; split <;> rfl

/-- What a session end makes of the Recorder Unit depends on that unit and on floor time alone. -/
theorem sessionEnd_ru_congr {s t : State} (ru : t.ru = s.ru) (ft : t.ft = s.ft) (c : ChanId) (cause : SessionCause) :
    (sessionEnd c cause t).ru = (sessionEnd c cause s).ru := by
  have same : t.chan c = s.chan c := by simp [State.chan, ru]
  unfold sessionEnd
  rw [same]
  split
  · exact ru
  · simp [State.modChan, endedSession, ru, ft]

/-- The Recorder Unit after the session on a channel, if there is one, has ended. -/
def ruAfterEnd (recorder : Option ChanId) (cause : SessionCause) : RecUnit :=
  match recorder with
  | none => s.ru
  | some c => (sessionEnd c cause s).ru

theorem ruAfterEnd_channels (recorder : Option ChanId) (cause : SessionCause) :
    ruAfterEnd s recorder cause = { s.ru with channels := (ruAfterEnd s recorder cause).channels } := by
  cases recorder with
  | none => rfl
  | some c => exact sessionEnd_ru s c cause

theorem ruAfterEnd_congr {s t : State} (ru : t.ru = s.ru) (ft : t.ft = s.ft) (recorder : Option ChanId)
    (cause : SessionCause) : ruAfterEnd t recorder cause = ruAfterEnd s recorder cause := by
  cases recorder with
  | none => exact ru
  | some c => exact sessionEnd_ru_congr ru ft c cause

theorem endLineSession_ru (l : LineId) (cause : SessionCause) :
    (endLineSession l cause s).ru = ruAfterEnd s (s.line l).recorder cause := by
  unfold endLineSession ruAfterEnd; split <;> simp_all

theorem endLineSession_line (l m : LineId) (cause : SessionCause) :
    (endLineSession l cause s).line m = if l = m then { s.line l with recorder := none } else s.line m := by
  unfold endLineSession
  split
  · next h => split <;> simp_all [← h]
  · simp [modLine_line]

@[simp] theorem endLineSession_handsets (l : LineId) (cause : SessionCause) :
    (endLineSession l cause s).lc.handsets = s.lc.handsets := by unfold endLineSession; split <;> simp [State.modLine]
@[simp] theorem endLineSession_maps (l : LineId) (cause : SessionCause) :
    (endLineSession l cause s).lc.maps = s.lc.maps := by unfold endLineSession; split <;> simp [State.modLine]

theorem posts_endLineSession (l : LineId) (cause : SessionCause) : Posts [] s (endLineSession l cause s) :=
  .of_eq (by simp) (by simp) fun m => by rw [endLineSession_line]; split <;> simp_all

/-! ## Owners are freed -/

theorem freeHandset_handset (h k : Handset) :
    (freeHandset h s).handset k = if h = k then { s.handset h with binding := none } else s.handset k :=
  modHandset_handset ..

/-- The owners of a line leave it. -/
def freeOwners (hs : List Handset) : State := hs.foldl (fun s h => freeHandset h s) s

theorem freeOwners_handset (hs : List Handset) (k : Handset) :
    (freeOwners s hs).handset k = if k ∈ hs then { s.handset k with binding := none } else s.handset k := by
  induction hs generalizing s with
  | nil => simp [freeOwners]
  | cons h hs ih =>
    have step : freeOwners s (h :: hs) = freeOwners (freeHandset h s) hs := rfl
    rw [step, ih, freeHandset_handset]
    by_cases e : h = k
    · subst e; simp
    · simp [e, Ne.symm e]

@[simp] theorem freeOwners_line (hs : List Handset) (m : LineId) : (freeOwners s hs).line m = s.line m :=
  freeOwners_keeps s (·.line m) (fun _ _ => rfl) hs
@[simp] theorem freeOwners_maps (hs : List Handset) : (freeOwners s hs).lc.maps = s.lc.maps :=
  freeOwners_keeps s (·.lc.maps) (fun _ _ => rfl) hs
@[simp] theorem freeOwners_rc (hs : List Handset) : (freeOwners s hs).rc = s.rc :=
  freeOwners_keeps s (·.rc) (fun _ _ => rfl) hs
@[simp] theorem freeOwners_fc (hs : List Handset) : (freeOwners s hs).fc = s.fc :=
  freeOwners_keeps s (·.fc) (fun _ _ => rfl) hs
@[simp] theorem freeOwners_mp (hs : List Handset) : (freeOwners s hs).mp = s.mp :=
  freeOwners_keeps s (·.mp) (fun _ _ => rfl) hs
@[simp] theorem freeOwners_me (hs : List Handset) : (freeOwners s hs).me = s.me :=
  freeOwners_keeps s (·.me) (fun _ _ => rfl) hs
@[simp] theorem freeOwners_pu (hs : List Handset) : (freeOwners s hs).pu = s.pu :=
  freeOwners_keeps s (·.pu) (fun _ _ => rfl) hs
@[simp] theorem freeOwners_ft (hs : List Handset) : (freeOwners s hs).ft = s.ft :=
  freeOwners_keeps s (·.ft) (fun _ _ => rfl) hs
@[simp] theorem freeOwners_ru (hs : List Handset) : (freeOwners s hs).ru = s.ru :=
  freeOwners_keeps s (·.ru) (fun _ _ => rfl) hs
@[simp] theorem freeOwners_cu (hs : List Handset) : (freeOwners s hs).cu = s.cu :=
  freeOwners_keeps s (·.cu) (fun _ _ => rfl) hs
@[simp] theorem freeOwners_ld (hs : List Handset) : (freeOwners s hs).ld = s.ld :=
  freeOwners_keeps s (·.ld) (fun _ _ => rfl) hs
@[simp] theorem freeOwners_handed (hs : List Handset) : (freeOwners s hs).handed = s.handed :=
  freeOwners_keeps s (·.handed) (fun _ _ => rfl) hs
@[simp] theorem freeOwners_draws (hs : List Handset) : (freeOwners s hs).draws = s.draws :=
  freeOwners_keeps s (·.draws) (fun _ _ => rfl) hs
@[simp] theorem freeOwners_pending (hs : List Handset) : (freeOwners s hs).pending = s.pending :=
  freeOwners_keeps s (·.pending) (fun _ _ => rfl) hs

/-! ## Clearing (R3) -/

/-- The call's part of a line record is emptied. -/
def LineRec.emptied (r : LineRec) : LineRec := { r with owners := [], heldBy := none, recallDeadline := none, privacy := false }

/-- The line's owners are free and its record emptied: the first steps of a clearing. -/
def emptyLine (l : LineId) : State := (freeOwners s (s.line l).owners).modLine l LineRec.emptied

/-- The line's ring, if it rings, has ended. -/
def stopRing (l : LineId) (cause : LineCause) : State :=
  if (s.line l).state = .ringing then endRing l cause.ringEnd none s else s

/-- A clearing up to the level rule. -/
def clearedLine (l : LineId) (cause : LineCause) (st : LineState) : State :=
  setLineState l st cause (endLineSession l cause.session (stopRing (emptyLine s l) l cause))

theorem emptyLine_line (l m : LineId) :
    (emptyLine s l).line m = if l = m then (s.line l).emptied else s.line m := by
  simp [emptyLine, modLine_line]

@[simp] theorem stopRing_lc (l : LineId) (cause : LineCause) : (stopRing s l cause).lc = s.lc := by
  unfold stopRing; split <;> simp
@[simp] theorem stopRing_fc (l : LineId) (cause : LineCause) : (stopRing s l cause).fc = s.fc := by
  unfold stopRing; split <;> simp
@[simp] theorem stopRing_mp (l : LineId) (cause : LineCause) : (stopRing s l cause).mp = s.mp := by
  unfold stopRing; split <;> simp
@[simp] theorem stopRing_me (l : LineId) (cause : LineCause) : (stopRing s l cause).me = s.me := by
  unfold stopRing; split <;> simp
@[simp] theorem stopRing_ft (l : LineId) (cause : LineCause) : (stopRing s l cause).ft = s.ft := by
  unfold stopRing; split <;> simp
@[simp] theorem stopRing_ru (l : LineId) (cause : LineCause) : (stopRing s l cause).ru = s.ru := by
  unfold stopRing; split <;> simp
@[simp] theorem stopRing_ld (l : LineId) (cause : LineCause) : (stopRing s l cause).ld = s.ld := by
  unfold stopRing; split <;> simp
@[simp] theorem stopRing_handed (l : LineId) (cause : LineCause) : (stopRing s l cause).handed = s.handed := by
  unfold stopRing; split <;> simp
@[simp] theorem stopRing_draws (l : LineId) (cause : LineCause) : (stopRing s l cause).draws = s.draws := by
  unfold stopRing; split <;> simp
@[simp] theorem stopRing_pending (l : LineId) (cause : LineCause) : (stopRing s l cause).pending = s.pending := by
  unfold stopRing; split <;> simp
@[simp] theorem stopRing_line (l : LineId) (cause : LineCause) (m : LineId) : (stopRing s l cause).line m = s.line m := by
  simp [State.line]
@[simp] theorem stopRing_handset (l : LineId) (cause : LineCause) (h : Handset) :
    (stopRing s l cause).handset h = s.handset h := by simp [State.handset]

/-- A clearing is those steps, then the level rule (R4). -/
theorem clearLine_eq (l : LineId) (cause : LineCause) (st : LineState) :
    clearLine l cause st s = levelRule l (clearedLine s l cause st) := by
  have state : ((emptyLine s l).line l).state = (s.line l).state := by simp [emptyLine_line, LineRec.emptied]
  unfold clearedLine stopRing
  rw [state]
  rfl

/-- What a clearing leaves in the line's record. -/
def LineRec.cleared (r : LineRec) (st : LineState) : LineRec := { (r.emptied.entered st) with recorder := none }

theorem clearedLine_line (l m : LineId) (cause : LineCause) (st : LineState) :
    (clearedLine s l cause st).line m = if l = m then (s.line l).cleared st else s.line m := by
  unfold clearedLine
  rw [setLineState_line, endLineSession_line, endLineSession_line, stopRing_line, stopRing_line, emptyLine_line,
    emptyLine_line]
  split <;> simp [LineRec.cleared, LineRec.entered, nearEndMoves]

theorem clearedLine_handset (l : LineId) (cause : LineCause) (st : LineState) (h : Handset) :
    (clearedLine s l cause st).handset h =
      if h ∈ (s.line l).owners then { s.handset h with binding := none } else s.handset h := by
  unfold clearedLine emptyLine
  simp [freeOwners_handset]

theorem clearedLine_ru (l : LineId) (cause : LineCause) (st : LineState) :
    (clearedLine s l cause st).ru = ruAfterEnd s (s.line l).recorder cause.session := by
  unfold clearedLine
  rw [setLineState_ru, endLineSession_ru, stopRing_line, emptyLine_line, if_pos rfl]
  exact ruAfterEnd_congr (by simp [emptyLine]) (by simp [emptyLine]) _ _

theorem clearedLine_ring (l m : LineId) (cause : LineCause) (st : LineState) :
    (clearedLine s l cause st).ring m = if l = m ∧ (s.line l).state = .ringing then none else s.ring m := by
  unfold clearedLine stopRing
  rw [setLineState_ring, endLineSession_ring, emptyLine_line, if_pos rfl]
  have kept : (emptyLine s l).ring m = s.ring m := by simp [emptyLine, State.ring]
  split
  · next h => rw [endRing_ring, kept]; simp_all [LineRec.emptied]
  · next h => rw [kept, if_neg fun x => h x.2]

theorem clearedLine_rc {l : LineId} (h : (s.line l).state ≠ .ringing) (cause : LineCause) (st : LineState) :
    (clearedLine s l cause st).rc = s.rc := by
  unfold clearedLine stopRing
  rw [setLineState_rc, endLineSession_rc, emptyLine_line, if_pos rfl, if_neg (by exact h)]
  simp [emptyLine]

theorem clearedLine_posRing {l : LineId} {ring : RingRec} (state : (s.line l).state = .ringing) (hr : s.ring l = some ring)
    (cause : LineCause) (st : LineState) (p : PosId) : (clearedLine s l cause st).posRing p =
      movedCounts (ring.phase == .recall) ring.shown 0 p (s.posRing p) := by
  have kept : (emptyLine s l).ring l = some ring := by simp [emptyLine, State.ring, ← hr]
  unfold clearedLine stopRing
  rw [setLineState_posRing, endLineSession_posRing, emptyLine_line, if_pos rfl, if_pos (by exact state),
    (endRing_moves _ kept cause.ringEnd none).counts]
  simp [emptyLine, State.posRing]

theorem posts_emptyLine (l : LineId) : Posts [] s (emptyLine s l) :=
  .of_eq (by simp [emptyLine]) (by simp [emptyLine]) fun m => by
    rw [emptyLine_line]; split <;> simp_all [LineRec.emptied]

/-- The events of a clearing: the ring's end with its alerts, then LINE_STATE. -/
theorem posts_clearedLine_ringing {l : LineId} {ring : RingRec} (state : (s.line l).state = .ringing)
    (hr : s.ring l = some ring) (cause : LineCause) (st : LineState) :
    Posts ([.ringEnd l cause.ringEnd none] ++ alertChanges s ring.shown 0 ++ [.lineState l st cause])
      s (clearedLine s l cause st) := by
  have kept : (emptyLine s l).ring l = some ring := by simp [emptyLine, State.ring, ← hr]
  have ends := (endRing_moves _ kept cause.ringEnd none).events
  rw [alertChanges_congr (s := s) fun p => by simp [emptyLine, State.posRing]] at ends
  have stops : stopRing (emptyLine s l) l cause = endRing l cause.ringEnd none (emptyLine s l) :=
    if_pos (by simp [emptyLine_line, LineRec.emptied, state])
  unfold clearedLine
  rw [stops]
  simpa only [List.nil_append, List.append_nil] using
    (((posts_emptyLine s l).trans ends).trans (posts_endLineSession _ l cause.session)).trans (posts_setLineState _ l st cause)

theorem posts_clearedLine {l : LineId} (state : (s.line l).state ≠ .ringing) (cause : LineCause) (st : LineState) :
    Posts [.lineState l st cause] s (clearedLine s l cause st) := by
  have stops : stopRing (emptyLine s l) l cause = emptyLine s l :=
    if_neg (by simpa [emptyLine_line, LineRec.emptied] using state)
  unfold clearedLine
  rw [stops]
  exact ((posts_emptyLine s l).trans (posts_endLineSession _ l cause.session)).trans (posts_setLineState _ l st cause)

/-- What a clearing leaves alone. -/
theorem clearedLine_frame (l : LineId) (cause : LineCause) (st : LineState) :
    let u := clearedLine s l cause st
    u = { s with lc := { u.lc with maps := s.lc.maps }, rc := u.rc, ru := { s.ru with channels := u.ru.channels },
                 cu := u.cu, pu := u.pu } := by
  apply State.ext_parts
  case lc =>
    have maps : (clearedLine s l cause st).lc.maps = s.lc.maps := by simp [clearedLine, emptyLine, State.modLine]
    rw [← maps]
  case ru =>
    rw [clearedLine_ru]
    exact ruAfterEnd_channels ..
  all_goals simp [clearedLine, emptyLine]

/-- The level rule acts on a line that rings and has entered IDLE, unless it is a hoot line (R4). -/
theorem levelRule_clearedLine (l : LineId) (cause : LineCause) (st : LineState) :
    levelRule l (clearedLine s l cause st) =
      if st = .idle ∧ (s.line l).type ≠ .hoot ∧ (s.line l).ringInd = .ringing then enterRinging l (clearedLine s l cause st)
      else clearedLine s l cause st := by
  unfold levelRule
  simp only [clearedLine_line, if_true, LineRec.cleared, LineRec.entered, LineRec.emptied]
  split <;> split <;> tauto

/-- Settles O21. -/
theorem clearingLeavesLineEmpty : Obligations.ClearingLeavesLineEmpty := by
  refine ⟨⟨rfl, rfl, rfl, rfl, rfl, rfl, rfl, rfl, rfl⟩, fun l cause st s _ => ⟨clearedLine s l cause st, ?_, ?_,
    fun m h => ?_, fun h => ?_, fun c h => ?_, fun h => ?_, fun h => ?_, fun ring state hr => ?_, clearedLine_frame ..⟩⟩
  · rw [clearLine_eq, levelRule_clearedLine]
  · simp [clearedLine_line, LineRec.cleared, LineRec.entered, LineRec.emptied]
  · simp [clearedLine_line, Ne.symm h]
  · exact clearedLine_handset s l cause st h
  · have ru : (clearedLine s l cause st).ru = (sessionEnd c cause.session s).ru := by rw [clearedLine_ru, h]; rfl
    exact ⟨by simp [State.chan, ru], fun d hd => by
      rw [← sessionEnd_onlyChan s c cause.session d hd]; simp [State.chan, ru]⟩
  · rw [clearedLine_ru, h]; rfl
  · exact ⟨clearedLine_rc s h cause st, posts_clearedLine s h cause st⟩
  · exact ⟨by simp [clearedLine_ring, state], fun m h => by simp [clearedLine_ring, Ne.symm h],
      clearedLine_posRing s state hr cause st, posts_clearedLine_ringing s state hr cause st⟩

end Sys2Proof.Machine

namespace Sys2Proof.Machine

variable {s : State}

/-! ## What a command in hand does -/

/-- A command in hand does its act and completes with the status the act gives. -/
theorem runCommand_next {c : Instr} {act : State → State × Status} {t : State} {st : Status} (holds : s.holds c = true)
    (h : act s = (t, st)) : runCommand c act s = .next (complete st t) := by rw [runCommand_of_holds holds, h]

theorem boundLine_of_free {h : Handset} (free : (s.handset h).binding = none) :
    boundLine (finByte h.pos) h.side.code s = .error .notBound := by simp [boundLine, free]

theorem boundLine_of_bound {h : Handset} {l : LineId} (bound : (s.handset h).binding = some l) :
    boundLine (finByte h.pos) h.side.code s = .ok (h, l) := by simp [boundLine, bound]

/-! ## PRIVACY, HANDSET_SET and POSITION_SET (R21, R26) -/

/-- Settles O29. -/
theorem settingsAreStored : Obligations.SettingsAreStored := by
  refine ⟨fun h value s holds => ⟨fun free => ?_, fun l bound => ?_⟩, fun h volume micPad s holds => ?_,
    fun p micPad duck ringLevel recallLevel mark s holds => ?_⟩
  · have act : privacy (finByte h.pos) h.side.code (flagCode value) s = (s, .notBound) := by
      simp [privacy, boundLine_of_free free]
    exact onlyAnswers_of_eq s (runCommand_next holds act)
  · have act : privacy (finByte h.pos) h.side.code (flagCode value) s =
        (s.modLine l fun r => { r with privacy := value }, .ok) := by simp [privacy, boundLine_of_bound bound]
    refine ⟨_, runCommand_next holds act, by simp, fun m hm => by simp [Ne.symm hm],
      (posts_modLine s l _ rfl).answers .ok, ?_⟩
    apply State.ext_parts <;> rfl
  · have act : handsetSet (finByte h.pos) h.side.code volume micPad s =
        (s.modHandset h fun r => { r with volume := clampLevel volume, micPad := clampPad micPad }, .ok) := by
      simp [handsetSet]
    refine ⟨_, runCommand_next holds act, (posts_modHandset s h _).answers .ok, fun k => ?_, ?_⟩
    · rw [complete_handset, modHandset_handset]
      simp only [eq_comm (a := h), clampLevel, clampPad]
    · apply State.ext_parts <;> rfl
  · let t : State := { s with mp := { s.mp with
      settings := s.mp.settings.set p ⟨clampPad micPad, clampPad duck, clampLevel ringLevel, clampLevel recallLevel, mark⟩ } }
    have act : positionSet (finByte p) micPad duck ringLevel recallLevel (flagCode mark) s = (t, .ok) := by
      simp [positionSet, t]
    have posts : Posts [] s t := .of_eq rfl rfl fun _ => rfl
    refine ⟨_, runCommand_next holds act, posts.answers .ok, fun q => ?_, ?_⟩
    · simp [t, State.settings, Table.get_set, eq_comm (a := p), clampPad, clampLevel]
    · apply State.ext_parts <;> rfl

/-! ## LINE_SET (R24) -/

/-- LINE_SET's settings in a line's record. -/
def LineRec.withSettings (ty : LineType) (pad : Byte) (pref : Option PosId) (delay : Byte) (pol : Policy) (recall_ : Half)
    (r : LineRec) : LineRec :=
  { r with type := ty, pad := clampPad pad, preferred := pref, ringDelay := ringDelayFrames delay,
           recallTime := recallFrames recall_, policy := pol }

theorem lineSet_stores {l : LineId} {ty : LineType} {pad : Byte} {pref : Option PosId} {delay : Byte} {pol : Policy}
    {recall_ : Half} (h : (s.line l).state = .idle ∨ (s.line l).state = .outOfService) :
    lineSet (finByte l) ty.code pad (idByte pref) delay pol.code recall_ s =
      (levelRule l (s.modLine l (LineRec.withSettings ty pad pref delay pol recall_)), .ok) := by
  simp only [lineSet, idArg_finByte_line, typeArg_code, optIdArg_idByte_pos, policyArg_code, if_pos h]
  rfl

theorem lineSet_busy {l : LineId} {ty : LineType} {pad : Byte} {pref : Option PosId} {delay : Byte} {pol : Policy}
    {recall_ : Half} (h : ¬((s.line l).state = .idle ∨ (s.line l).state = .outOfService)) :
    lineSet (finByte l) ty.code pad (idByte pref) delay pol.code recall_ s = (s, .busy) := by
  simp only [lineSet, idArg_finByte_line, typeArg_code, optIdArg_idByte_pos, policyArg_code, if_neg h]

/-- Settles O23. -/
theorem lineSetStoresSettings : Obligations.LineSetStoresSettings := by
  intro l ty pad pref delay pol recall_ s c holds
  refine ⟨fun h => ?_, fun idle out => onlyAnswers_of_eq s (runCommand_next holds (lineSet_busy (by tauto)))⟩
  refine ⟨s.modLine l (LineRec.withSettings ty pad pref delay pol recall_), by rw [modLine_line_self]; rfl,
    fun m hm => by simp [Ne.symm hm], rfl, (runCommand_next holds (lineSet_stores h)).trans ?_⟩
  unfold levelRule
  rw [modLine_line_self]
  rfl

/-! ## LINE_SERVICE and FORCE_CLEAR (R22, R23, R64) -/

section
variable {l : LineId}

theorem lineService_in (s : State) (l : LineId) : lineService (finByte l) 1 s =
    if (s.line l).state = .outOfService then (levelRule l (setLineState l .idle .inService s), .ok) else (s, .ok) := by
  simp only [lineService, idArg_finByte_line, show flagArg 1 = some true from rfl]

theorem lineService_out_of_idle (h : (s.line l).state = .idle) :
    lineService (finByte l) 0 s = (setLineState l .outOfService .outOfService s, .ok) := by
  simp only [lineService, idArg_finByte_line, show flagArg 0 = some false from rfl, h]

theorem lineService_out_again (h : (s.line l).state = .outOfService) : lineService (finByte l) 0 s = (s, .ok) := by
  simp only [lineService, idArg_finByte_line, show flagArg 0 = some false from rfl, h]

theorem lineService_out_of_call (h : (s.line l).state = .ringing ∨ (s.line l).state = .connected ∨ (s.line l).state = .held) :
    lineService (finByte l) 0 s = (clearLine l .outOfService .outOfService s, .ok) := by
  rcases h with h | h | h <;> simp only [lineService, idArg_finByte_line, show flagArg 0 = some false from rfl, h]

theorem lineService_out_of_group (h : (s.line l).state = .bridged) : lineService (finByte l) 0 s = (bridgedOut l s, .ok) := by
  simp only [lineService, idArg_finByte_line, show flagArg 0 = some false from rfl, h]

/-- FORCE_CLEAR of a line on a call. -/
theorem forceClear_of_call (h : (s.line l).state = .ringing ∨ (s.line l).state = .connected ∨ (s.line l).state = .held) :
    forceClear (finByte l) s = (clearLine l .forced .idle s, .ok) := by
  rcases h with h | h | h <;> simp [forceClear, h]

/-- A bridged line out of service, before its group's hang is seen to. -/
def leftGroup (s : State) (l : LineId) (g : GroupId) : State :=
  setLineState l .outOfService .outOfService ((removeHoot g l s).modLine l fun r => { r with group := none })

theorem bridgedOut_eq {g : GroupId} (h : (s.line l).group = some g) : bridgedOut l s = startHang g (leftGroup s l g) := by
  unfold bridgedOut
  rw [h]
  rfl

theorem leftGroup_line (m : LineId) (g : GroupId) : (leftGroup s l g).line m =
    if l = m then { (s.line l).entered .outOfService with group := none } else s.line m := by
  unfold leftGroup removeHoot
  rw [setLineState_line, modLine_line_self, modLine_line]
  split <;> simp [LineRec.entered, nearEndMoves]

theorem leftGroup_group (g k : GroupId) : (leftGroup s l g).group k =
    if g = k then { s.group g with hootLines := (s.group g).hootLines.filter (· != l) } else s.group k := by
  unfold leftGroup removeHoot
  rw [setLineState_group, modLine_group, modGroup_group]

theorem posts_leftGroup (s : State) (l : LineId) (g : GroupId) :
    Posts [.lineState l .outOfService .outOfService] s (leftGroup s l g) :=
  ((posts_modGroup s g _).trans (posts_modLine _ l _ rfl)).trans (posts_setLineState _ l _ _)

end

/-- The level rule after a change of state to IDLE. -/
theorem levelRule_setLineState (s : State) (l : LineId) (cause : LineCause) :
    levelRule l (setLineState l .idle cause s) =
      if (s.line l).type ≠ .hoot ∧ (s.line l).ringInd = .ringing then enterRinging l (setLineState l .idle cause s)
      else setLineState l .idle cause s := by
  unfold levelRule
  simp

/-- Settles O24. -/
theorem lineServiceAndForceClear : Obligations.LineServiceAndForceClear := by
  constructor
  · refine fun l s => ⟨fun holds => ⟨fun out => ?_, fun out => ?_⟩, fun holds => ⟨fun out => ?_, fun idle => ?_,
      fun call => ?_, fun g state group => ?_⟩⟩
    · exact (runCommand_next holds ((lineService_in s l).trans (if_pos out))).trans (by rw [levelRule_setLineState])
    · exact onlyAnswers_of_eq s (runCommand_next holds ((lineService_in s l).trans (if_neg out)))
    · exact onlyAnswers_of_eq s (runCommand_next holds (lineService_out_again out))
    · refine ⟨_, runCommand_next holds (lineService_out_of_idle idle), ?_, fun m hm => ?_,
        (posts_setLineState ..).answers .ok, ?_⟩
      · simp [LineRec.entered, nearEndMoves, idle, LineState.nearEnd]
      · simp [setLineState_line, Ne.symm hm]
      · apply State.ext_parts
        · exact LineCtl.eq_of_lines (by simp) (by simp)
        all_goals simp
    · exact runCommand_next holds (lineService_out_of_call call)
    · refine ⟨leftGroup s l g, runCommand_next holds ((lineService_out_of_group state).trans (by rw [bridgedOut_eq group])), ?_,
        fun m hm => ?_, by simp [leftGroup_group], fun k hk => by simp [leftGroup_group, Ne.symm hk], posts_leftGroup .., ?_⟩
      · simp [leftGroup_line, LineRec.entered, nearEndMoves, state, LineState.nearEnd]
      · simp [leftGroup_line, Ne.symm hm]
      · apply State.ext_parts
        · exact LineCtl.eq_of_lines (by simp [leftGroup, removeHoot, State.modLine])
            (by simp [leftGroup, removeHoot, State.modLine])
        all_goals simp [leftGroup, removeHoot]
  · refine fun l s holds => ⟨fun call => ?_, fun idle => ?_, fun bridged => ?_, fun out => ?_⟩
    · exact runCommand_next holds (forceClear_of_call call)
    · exact onlyAnswers_of_eq s (runCommand_next holds (by simp [forceClear, idle]))
    · exact onlyAnswers_of_eq s (runCommand_next holds (by simp [forceClear, bridged]))
    · exact onlyAnswers_of_eq s (runCommand_next holds (by simp [forceClear, out]))

/-! ## APPEAR_SET (R25, R37) -/

/-- What keeps a line on a position's key (R25). -/
theorem keyBusy_iff {p : PosId} {o : LineId} : keyBusy p o s = true ↔
    (s.handset ⟨p, .left⟩).binding = some o ∨ (s.handset ⟨p, .right⟩).binding = some o ∨
      ((s.line o).state = .held ∧ (s.line o).heldBy = some p) ∨
      ∃ r, s.ring o = some r ∧ r.phase = .recall ∧ r.recallPos = some p := by
  unfold keyBusy
  cases s.ring o <;> simp [or_assoc]

/-- The line that leaves a key is told, if there was one. -/
def toldRemoved (p : PosId) (old : Option LineId) (s : State) : State := old.elim s fun o => lineRemoved p o s
/-- The line that comes onto a key is told, if there is one. -/
def toldAdded (p : PosId) (new : Option LineId) (s : State) : State := new.elim s fun l => lineAdded p l s

/-- The line already appears on the position's map. -/
def dupKey (s : State) (p : PosId) (new : Option LineId) : Bool := new.elim false (s.appears p)
/-- The line on the key may not leave it. -/
def oldBusy (s : State) (p : PosId) (old : Option LineId) : Bool := old.elim false fun o => keyBusy p o s

/-- APPEAR_SET with valid operands, case by case. -/
theorem appearSet_eq (p : PosId) (k : KeyId) (new : Option LineId) :
    appearSet (finByte p) (finByte k) (idByte new) s =
      if (s.map p).get k = new then (s, .ok)
      else if dupKey s p new = true then (s, .duplicate)
      else if oldBusy s p ((s.map p).get k) = true then (s, .busy)
      else (toldAdded p new (toldRemoved p ((s.map p).get k) (s.setKey p k new)), .ok) := by
  simp only [appearSet, idArg_finByte_pos, idArg_finByte_key, optIdArg_idByte_line]
  cases new <;> cases (s.map p).get k <;> rfl

theorem setKey_get (s : State) (p q : PosId) (k j : KeyId) (x : Option LineId) :
    ((s.setKey p k x).map q).get j = if q = p ∧ j = k then x else (s.map q).get j := by
  rw [setKey_map]
  by_cases hp : p = q
  · subst hp; simp [Table.get_set, eq_comm]
  · simp [hp, Ne.symm hp]

/-- Settles O25. -/
theorem appearSetMapsLine : Obligations.AppearSetMapsLine := by
  intro p k new s c old inUse holds
  have dup : dupKey s p new = true ↔ ∃ l, new = some l ∧ s.appears p l = true := by cases new <;> simp [dupKey]
  have busy : oldBusy s p old = true ↔ ∃ o, old = some o ∧ inUse o := by
    cases h : old <;> simp [oldBusy, keyBusy_iff, inUse]
  have act := appearSet_eq (s := s) p k new
  refine ⟨fun same => ?_, fun other h => ?_, fun other fresh h => ?_, fun other fresh h => ?_⟩
  · rw [if_pos same] at act
    exact onlyAnswers_of_eq s (runCommand_next holds act)
  · rw [if_neg other, if_pos (dup.2 h)] at act
    exact onlyAnswers_of_eq s (runCommand_next holds act)
  all_goals rw [if_neg other, if_neg (mt dup.1 fun ⟨l, hl, x⟩ => by simp [fresh l hl] at x)] at act
  · rw [if_pos (busy.2 h)] at act
    exact onlyAnswers_of_eq s (runCommand_next holds act)
  · rw [if_neg (mt busy.1 fun ⟨o, ho, x⟩ => h o ho x)] at act
    exact ⟨s.setKey p k new, toldRemoved p old (s.setKey p k new), toldAdded p new (toldRemoved p old (s.setKey p k new)),
      fun q j => setKey_get s p q k j new, rfl, fun o ho => by rw [ho]; rfl, fun gone => by rw [gone]; rfl,
      fun l hl => by rw [hl]; rfl, fun gone => by rw [gone]; rfl, runCommand_next holds act⟩

end Sys2Proof.Machine

namespace Sys2Proof.Machine

/-! ## Parts of a seize -/

section
variable (s : State)

/-- An update that gives a line's record back unchanged does nothing. -/
theorem modLine_same {l : LineId} {f : LineRec → LineRec} (h : f (s.line l) = s.line l) : s.modLine l f = s := by
  have rows : s.lc.lines.modify l f = s.lc.lines := Table.ext_get fun m => by
    rw [Table.get_modify]
    split
    · next e => subst e; exact h
    · rfl
  rw [State.modLine, rows]

theorem openSession_frame (c : ChanId) (x : Subject) (ps : List PosId) :
    openSession c x ps s = { s with ru := (openSession c x ps s).ru } := rfl

/-- Where the recorder check succeeds the line has its recorder, and the Recorder Unit what the check made of it. -/
def recorderGiven (l : LineId) (ru : RecUnit) (rec_ : Option ChanId) : State :=
  { s.modLine l fun r => { r with recorder := rec_ } with ru := ru }

theorem recorderGiven_same (l : LineId) : recorderGiven s l s.ru (s.line l).recorder = s := by
  unfold recorderGiven; rw [modLine_same s rfl]

@[simp] theorem recorderGiven_lines (l : LineId) (ru : RecUnit) (rec_ : Option ChanId) (m : LineId) :
    (recorderGiven s l ru rec_).line m = (s.modLine l fun r => { r with recorder := rec_ }).line m := rfl

theorem posts_recorderGiven (l : LineId) (ru : RecUnit) (rec_ : Option ChanId) : Posts [] s (recorderGiven s l ru rec_) :=
  .of_eq rfl rfl fun m => by rw [recorderGiven_lines, modLine_line]; split <;> simp_all

end

variable {s : State} {h : Handset} {l : LineId}

theorem allocate_of_noneFree (none_ : NoneFree s) (x : Subject) (ps : List PosId) : allocate x ps s = none := by
  simp [allocate, freeChannel_of_none none_]

theorem allocate_of_lowest {c : ChanId} (low : LowestFree s c) (x : Subject) (ps : List PosId) :
    allocate x ps s = some (c, openSession c x ps s) := by simp [allocate, freeChannel_of_lowest low]

/-- An allocation opens its session in the Recorder Unit and does nothing else. -/
theorem allocate_frame {x : Subject} {ps : List PosId} {c : ChanId} {u : State} (a : allocate x ps s = some (c, u)) :
    u = { s with ru := u.ru } := by
  unfold allocate at a
  cases free : freeChannel s with
  | none => simp [free] at a
  | some d =>
    simp only [free, Option.map_some, Option.some.injEq, Prod.mk.injEq] at a
    obtain ⟨rfl, rfl⟩ := a
    rfl

/-- The recorder check of R16, as the words of the statements put it. -/
theorem recorderCheck_of_checked {p : PosId} {ru : RecUnit} {rec_ : Option ChanId} {st : Status}
    (checked : LineChecked l p s ru rec_ st) : recorderCheck l p s = some (recorderGiven s l ru rec_, st) := by
  rcases checked with ⟨policy, rfl, rfl, rfl⟩ | ⟨policy, rfl, c, u, low, given, rfl, rfl⟩ | ⟨policy, none_, rfl, rfl, rfl⟩
  · rw [recorderGiven_same]; simp [recorderCheck, policy]
  · have same : (u.modLine l fun r => { r with recorder := some c }) = recorderGiven s l u.ru (some c) := by
      rw [allocate_frame given]; rfl
    unfold recorderCheck
    cases kind : (s.line l).policy with
    | none => exact absurd kind policy
    | optional => simp [given, same]
    | required => simp [given, same]
  · rw [recorderGiven_same]; simp [recorderCheck, policy, allocate_of_noneFree none_]

theorem recorderCheck_refuses (policy : (s.line l).policy = .required) (none_ : NoneFree s) (p : PosId) :
    recorderCheck l p s = none := by simp [recorderCheck, policy, allocate_of_noneFree none_]

theorem bindHandset_handset (s : State) (h k : Handset) (l : LineId) : (bindHandset h l s).handset k =
    if k = h then { s.handset h with binding := some l } else s.handset k := by
  simp only [bindHandset, modHandset_handset, eq_comm (a := h)]

theorem takeLine_line (s : State) (h : Handset) (l m : LineId) (cause : LineCause) : (takeLine h l cause s).line m =
    if l = m then { (s.line l).entered .connected with owners := [h] } else s.line m := by
  unfold takeLine bindHandset
  rw [setLineState_line, modLine_line_self, modLine_line]
  split <;> simp [LineRec.entered, nearEndMoves]

theorem takeLine_handset (s : State) (h k : Handset) (l : LineId) (cause : LineCause) : (takeLine h l cause s).handset k =
    if k = h then { s.handset h with binding := some l } else s.handset k := by
  simp [takeLine, bindHandset_handset]

theorem posts_takeLine (s : State) (h : Handset) (l : LineId) (cause : LineCause) :
    Posts [.lineState l .connected cause] s (takeLine h l cause s) :=
  ((posts_modHandset s h _).trans (posts_modLine _ l _ rfl)).trans (posts_setLineState _ l _ _)

/-- Taking a line leaves all but the Line Controller and what is posted. -/
theorem takeLine_frame (s : State) (h : Handset) (l : LineId) (cause : LineCause) :
    let t := takeLine h l cause s
    t = { s with lc := { t.lc with maps := s.lc.maps }, cu := t.cu, pu := t.pu } := by
  apply State.ext_parts
  case lc =>
    have maps : (takeLine h l cause s).lc.maps = s.lc.maps := by
      simp [takeLine, bindHandset, State.modLine, State.modHandset]
    rw [← maps]
  all_goals simp [takeLine, bindHandset]

/-- A party's arrival depends on the Recorder Unit alone. -/
theorem partyArrival_ru_congr {s t : State} (ru : t.ru = s.ru) (c : ChanId) (p : PosId) :
    (partyArrival c p t).ru = (partyArrival c p s).ru := by simp [partyArrival, State.modChan, ru]

/-- The Recorder Unit is told of a position that comes onto a line (R148). -/
theorem lineParty_of_told {t : State} {p : PosId} {ru : RecUnit} (told : PartyTold (s.line l).recorder p s ru)
    (rec_ : (t.line l).recorder = (s.line l).recorder) (same : t.ru = s.ru) : lineParty l p t = { t with ru := ru } := by
  unfold lineParty
  rw [rec_]
  cases h : (s.line l).recorder with
  | none => rw [h] at told; simp only [PartyTold] at told; rw [told, ← same]
  | some c => rw [h] at told; simp only [PartyTold] at told; rw [told, ← partyArrival_ru_congr same]; rfl

/-! ## SEIZE, case by case (R11) -/

theorem seize_not_appearing (no : s.appears h.pos l = false) :
    seize (finByte h.pos) h.side.code (finByte l) s = (s, .notAppearing) := by simp [seize, no]

theorem seize_handset_busy (on : s.appears h.pos l = true) (bound : (s.handset h).binding ≠ none) :
    seize (finByte h.pos) h.side.code (finByte l) s = (s, .handsetBusy) := by
  simp [seize, on, Option.isSome_iff_ne_none.2 bound]

theorem seize_out_of_service (on : s.appears h.pos l = true) (free : (s.handset h).binding = none)
    (out : (s.line l).state = .outOfService) :
    seize (finByte h.pos) h.side.code (finByte l) s = (s, .outOfService) := by simp [seize, on, free, out]

theorem seize_not_seizable (on : s.appears h.pos l = true) (free : (s.handset h).binding = none)
    (service : (s.line l).state ≠ .outOfService) (no : (s.line l).state = .bridged ∨ (s.line l).type = .hoot) :
    seize (finByte h.pos) h.side.code (finByte l) s = (s, .notSeizable) := by simp [seize, on, free, service, no]

section
variable (may : MaySeize h l s)
include may

theorem seize_idle (state : (s.line l).state = .idle) :
    seize (finByte h.pos) h.side.code (finByte l) s = seizeIdle h l s := by
  obtain ⟨on, free, -, -, call⟩ := may; simp [seize, on, free, call, state]

theorem seize_ringing (state : (s.line l).state = .ringing) :
    seize (finByte h.pos) h.side.code (finByte l) s = seizeRinging h l s := by
  obtain ⟨on, free, -, -, call⟩ := may; simp [seize, on, free, call, state]

theorem seize_connected (state : (s.line l).state = .connected) :
    seize (finByte h.pos) h.side.code (finByte l) s = seizeConnected h l s := by
  obtain ⟨on, free, -, -, call⟩ := may; simp [seize, on, free, call, state]

theorem seize_held (state : (s.line l).state = .held) :
    seize (finByte h.pos) h.side.code (finByte l) s = seizeHeld h l s := by
  obtain ⟨on, free, -, -, call⟩ := may; simp [seize, on, free, call, state]

end

theorem seizeRinging_not_presented {ring : RingRec} (hr : s.ring l = some ring) (no : inSet ring.shown h.pos = false) :
    seizeRinging h l s = (s, .notPresented) := by simp [seizeRinging, hr, presented, no]

theorem seizeRinging_recall {ring : RingRec} (hr : s.ring l = some ring) (shown : inSet ring.shown h.pos = true)
    (phase : ring.phase = .recall) :
    seizeRinging h l s = (lineParty l h.pos (takeLine h l .answered (endRing l .answered (some h.pos) s)), .ok) := by
  simp [seizeRinging, hr, presented, shown, phase]

theorem seizeRinging_new {ring : RingRec} (hr : s.ring l = some ring) (shown : inSet ring.shown h.pos = true)
    (phase : ring.phase ≠ .recall) : seizeRinging h l s = (recorderCheck l h.pos s).elim (s, .noRecorder) fun r =>
      (takeLine h l .answered (endRing l .answered (some h.pos) r.1), r.2) := by
  unfold seizeRinging
  rw [hr]
  dsimp only
  rw [if_neg (by simp [presented, shown]), if_neg phase]
  cases recorderCheck l h.pos s <;> rfl

theorem seizeIdle_eq : seizeIdle h l s = (recorderCheck l h.pos s).elim (s, .noRecorder) fun r =>
    (takeLine h l .seized r.1, r.2) := by
  unfold seizeIdle; cases recorderCheck l h.pos s <;> rfl

/-- What a ring's step makes of the Ring Presenter, seen in a later state that keeps that. -/
theorem RingMoves.rings_of_rc {b : Bool} {old new : PosSet} {ring : Option RingRec} {es : List Event} {v t : State}
    (moves : RingMoves l b old new ring es s v) (rc : t.rc = v.rc) :
    t.ring l = ring ∧ (∀ m, m ≠ l → t.ring m = s.ring m) ∧ ∀ p, t.posRing p = movedCounts b old new p (s.posRing p) := by
  have rings : t.ring = v.ring := funext fun m => by simp [State.ring, rc]
  have counts : t.posRing = v.posRing := funext fun p => by simp [State.posRing, rc]
  rw [rings, counts]
  exact ⟨moves.ring, moves.others, moves.counts⟩

/-- Settles O26. -/
theorem seizeIsRefused : Obligations.SeizeIsRefused := by
  intro h l s c r holds
  have refused {st : Status} (act : seize (finByte h.pos) h.side.code (finByte l) s = (s, st)) : OnlyAnswers c st s :=
    onlyAnswers_of_eq s (runCommand_next holds act)
  refine ⟨fun no => refused (seize_not_appearing no), fun on bound => refused (seize_handset_busy on bound),
    fun on free out => refused (seize_out_of_service on free out),
    fun on free service no => refused (seize_not_seizable on free service no), fun may => ⟨fun state policy none_ => ?_,
      fun ring state hr => ⟨fun no => ?_, fun shown phase policy none_ => ?_⟩, fun state priv => ?_, fun state priv full => ?_,
      fun state priv other => ?_⟩⟩
  · exact refused ((seize_idle may state).trans (by rw [seizeIdle_eq, recorderCheck_refuses policy none_]; rfl))
  · exact refused ((seize_ringing may state).trans (seizeRinging_not_presented hr no))
  · exact refused ((seize_ringing may state).trans
      (by rw [seizeRinging_new hr shown phase, recorderCheck_refuses policy none_]; rfl))
  · exact refused ((seize_connected may state).trans (by unfold seizeConnected; exact if_pos priv))
  · have places : Config.ownerPlaces ≤ (s.line l).owners.length := full
    exact refused ((seize_connected may state).trans
      (by unfold seizeConnected; simp [show (s.line l).privacy = false from priv, places]))
  · exact refused ((seize_held may state).trans (by unfold seizeHeld; exact if_pos ⟨priv, other⟩))

/-! ## What a seize takes (R12 to R16) -/

/-- An outgoing seize, or an answer once its ring has ended: the record of a line taken by a handset. -/
theorem LineRec.entered_connected {r : LineRec} (onHook : r.state.nearEnd = .onHook) :
    r.entered .connected = { r with state := .connected, ctlPending := true } := by
  have moves : nearEndMoves r .connected = true := by unfold nearEndMoves; rw [onHook]; rfl
  rw [LineRec.entered, moves, Bool.or_true]

/-- Of the parts a call does not touch each is as it was: the appearance maps, the groups, the Mix Planner, the Mixing Engine,
the Frame Timer, the loader, and the hand-over list. -/
structure CallFrame (s t : State) : Prop where
  maps : t.lc.maps = s.lc.maps
  fc : t.fc = s.fc
  mp : t.mp = s.mp
  me : t.me = s.me
  ft : t.ft = s.ft
  ld : t.ld = s.ld
  handed : t.handed = s.handed
  draws : t.draws = s.draws
  pending : t.pending = s.pending

theorem CallFrame.refl (s : State) : CallFrame s s := ⟨rfl, rfl, rfl, rfl, rfl, rfl, rfl, rfl, rfl⟩

theorem CallFrame.trans {s t u : State} (a : CallFrame s t) (b : CallFrame t u) : CallFrame s u :=
  ⟨b.maps.trans a.maps, b.fc.trans a.fc, b.mp.trans a.mp, b.me.trans a.me, b.ft.trans a.ft, b.ld.trans a.ld,
    b.handed.trans a.handed, b.draws.trans a.draws, b.pending.trans a.pending⟩

theorem CallFrame.eq {s t : State} (h : CallFrame s t) :
    t = { s with lc := { t.lc with maps := s.lc.maps }, rc := t.rc, ru := t.ru, cu := t.cu, pu := t.pu } :=
  State.ext_parts (by rw [← h.maps]) rfl h.fc h.mp h.me rfl h.ft rfl rfl h.ld h.handed h.draws h.pending

theorem callFrame_complete (s : State) (st : Status) : CallFrame s (complete st s) :=
  ⟨rfl, rfl, rfl, rfl, rfl, rfl, rfl, rfl, rfl⟩

theorem callFrame_takeLine (s : State) (h : Handset) (l : LineId) (cause : LineCause) : CallFrame s (takeLine h l cause s) where
  maps := by simp [takeLine, bindHandset, State.modLine, State.modHandset]
  fc := by simp [takeLine, bindHandset]
  mp := by simp [takeLine, bindHandset]
  me := by simp [takeLine, bindHandset]
  ft := by simp [takeLine, bindHandset]
  ld := by simp [takeLine, bindHandset]
  handed := by simp [takeLine, bindHandset]
  draws := by simp [takeLine, bindHandset]
  pending := by simp [takeLine, bindHandset]

theorem callFrame_endRing (s : State) (l : LineId) (cause : RingCause) (pos : Option PosId) :
    CallFrame s (endRing l cause pos s) :=
  ⟨by simp, by simp, by simp, by simp, by simp, by simp, by simp, by simp, by simp⟩

theorem callFrame_recorderGiven (s : State) (l : LineId) (ru : RecUnit) (rec_ : Option ChanId) :
    CallFrame s (recorderGiven s l ru rec_) := ⟨rfl, rfl, rfl, rfl, rfl, rfl, rfl, rfl, rfl⟩

theorem takeLine_rc (s : State) (h : Handset) (l : LineId) (cause : LineCause) : (takeLine h l cause s).rc = s.rc := by
  simp [takeLine, bindHandset]
theorem takeLine_ru (s : State) (h : Handset) (l : LineId) (cause : LineCause) : (takeLine h l cause s).ru = s.ru := by
  simp [takeLine, bindHandset]

theorem recorderGiven_onlyLine (s : State) (l : LineId) (ru : RecUnit) (rec_ : Option ChanId) :
    OnlyLine l s (recorderGiven s l ru rec_) := fun m hm => by rw [recorderGiven_lines, modLine_line, if_neg (Ne.symm hm)]

/-- The handset is bound to the line; of the other lines, and of what no call touches, nothing has moved. -/
structure Binds (h : Handset) (l : LineId) (s t : State) : Prop where
  handset : ∀ k, t.handset k = if k = h then { s.handset h with binding := some l } else s.handset k
  lines : OnlyLine l s t
  frame : CallFrame s t

theorem Binds.complete {t : State} (b : Binds h l s t) (st : Status) : Binds h l s (complete st t) :=
  ⟨b.handset, b.lines, b.frame.trans (callFrame_complete t st)⟩

/-- The Recorder Unit has been told besides. -/
theorem Binds.withRu {t : State} (b : Binds h l s t) (ru : RecUnit) : Binds h l s { t with ru := ru } := by
  obtain ⟨handset, lines, maps, fc, mp, me, ft, ld, handed, draws, pending⟩ := b
  exact ⟨handset, lines, maps, fc, mp, me, ft, ld, handed, draws, pending⟩

theorem Posts.withRu {t : State} {es : List Event} (p : Posts es s t) (ru : RecUnit) : Posts es s { t with ru := ru } :=
  p.congr rfl rfl rfl rfl (fun _ => rfl) fun _ => rfl

/-- Steps that move no handset, no other line and nothing outside a call may come first. -/
theorem Binds.after {u t : State} (b : Binds h l u t) (handset : ∀ k, u.handset k = s.handset k) (lines : OnlyLine l s u)
    (frame : CallFrame s u) : Binds h l s t :=
  ⟨fun k => by rw [b.handset, handset, handset], fun m hm => (b.lines m hm).trans (lines m hm), frame.trans b.frame⟩

/-- A handset that takes a line is bound to it. -/
theorem takeLine_binds (s : State) (h : Handset) (l : LineId) (cause : LineCause) : Binds h l s (takeLine h l cause s) :=
  ⟨fun k => takeLine_handset s h k l cause, fun m hm => by rw [takeLine_line, if_neg (Ne.symm hm)],
    callFrame_takeLine s h l cause⟩

theorem recorderGiven_binds {ru : RecUnit} {rec_ : Option ChanId} {t : State} (b : Binds h l (recorderGiven s l ru rec_) t) :
    Binds h l s t :=
  b.after (fun _ => rfl) (recorderGiven_onlyLine s l ru rec_) (callFrame_recorderGiven s l ru rec_)

/-- A line taken with its near end on hook: sole owner, CONNECTED and marked. -/
theorem takeLine_line_of_onHook {u : State} (onHook : (u.line l).state.nearEnd = .onHook) (cause : LineCause) :
    (takeLine h l cause u).line l = { u.line l with state := .connected, owners := [h], ctlPending := true } := by
  rw [takeLine_line, if_pos rfl, LineRec.entered_connected onHook]

/-- The ring's end and the taking of the line: what both kinds of answer share (R13). -/
theorem answer_takes (u : State) (h : Handset) {ring : RingRec} (state : (u.line l).state = .ringing)
    (hr : u.ring l = some ring) :
    let t := takeLine h l .answered (endRing l .answered (some h.pos) u)
    Binds h l u t ∧ t.ru = u.ru ∧ t.line l = { u.line l with state := .connected, owners := [h], ctlPending := true } ∧
      (t.ring l = none ∧ (∀ m, m ≠ l → t.ring m = u.ring m) ∧
        ∀ p, t.posRing p = movedCounts (ring.phase == .recall) ring.shown 0 p (u.posRing p)) ∧
      Posts ([.ringEnd l .answered (some h.pos)] ++ alertChanges u ring.shown 0 ++ [.lineState l .connected .answered]) u t := by
  have moves := endRing_moves u hr .answered (some h.pos)
  have onHook : ((endRing l .answered (some h.pos) u).line l).state.nearEnd = .onHook := by simp [state, LineState.nearEnd]
  refine ⟨(takeLine_binds _ h l _).after (fun k => endRing_handset ..) (fun m _ => endRing_line ..) (callFrame_endRing ..),
    by rw [takeLine_ru, endRing_ru], ?_, moves.rings_of_rc (takeLine_rc ..), moves.events.trans (posts_takeLine _ h l _)⟩
  rw [takeLine_line_of_onHook onHook, endRing_line]

section
variable {ru : RecUnit} {rec_ : Option ChanId} {st : Status}

/-- An outgoing seize (R12). -/
theorem seizeIdle_takes (state : (s.line l).state = .idle) (checked : LineChecked l h.pos s ru rec_ st) :
    ∃ t, seizeIdle h l s = (t, st) ∧ Binds h l s t ∧ t.rc = s.rc ∧ t.ru = ru ∧
      t.line l = { s.line l with state := .connected, owners := [h], recorder := rec_, ctlPending := true } ∧
      Posts [.lineState l .connected .seized] s t := by
  have onHook : ((recorderGiven s l ru rec_).line l).state.nearEnd = .onHook := by simp [state, LineState.nearEnd]
  refine ⟨takeLine h l .seized (recorderGiven s l ru rec_), by rw [seizeIdle_eq, recorderCheck_of_checked checked]; rfl,
    recorderGiven_binds (takeLine_binds _ h l _), takeLine_rc .., takeLine_ru .., ?_,
    (posts_recorderGiven s l ru rec_).trans (posts_takeLine _ h l .seized)⟩
  rw [takeLine_line_of_onHook onHook, recorderGiven_lines, modLine_line_self]

/-- An answer to a new ring (R13): the recorder check, the ring's end, and the line is taken. -/
theorem seizeRinging_takes {ring : RingRec} (state : (s.line l).state = .ringing) (hr : s.ring l = some ring)
    (shown : inSet ring.shown h.pos = true) (phase : ring.phase ≠ .recall) (checked : LineChecked l h.pos s ru rec_ st) :
    ∃ t, seizeRinging h l s = (t, st) ∧ Binds h l s t ∧ t.ru = ru ∧
      t.line l = { s.line l with state := .connected, owners := [h], recorder := rec_, ctlPending := true } ∧
      (t.ring l = none ∧ (∀ m, m ≠ l → t.ring m = s.ring m) ∧
        ∀ p, t.posRing p = movedCounts false ring.shown 0 p (s.posRing p)) ∧
      Posts ([.ringEnd l .answered (some h.pos)] ++ alertChanges s ring.shown 0 ++ [.lineState l .connected .answered]) s t := by
  obtain ⟨binds, ru_, line, rings, posts⟩ :=
    answer_takes (recorderGiven s l ru rec_) h (by simp [state]) (show _ = some ring from hr)
  rw [show (ring.phase == .recall) = false by simpa using phase] at rings
  rw [recorderGiven_lines, modLine_line_self] at line
  exact ⟨_, by rw [seizeRinging_new hr shown phase, recorderCheck_of_checked checked]; rfl, recorderGiven_binds binds, ru_,
    line, rings, (posts_recorderGiven s l ru rec_).trans posts⟩

/-- An answer to a recall ring (R13): the ring's end, the line is taken, and the party told. -/
theorem seizeRecall_takes {ring : RingRec} (state : (s.line l).state = .ringing) (hr : s.ring l = some ring)
    (shown : inSet ring.shown h.pos = true) (phase : ring.phase = .recall) (told : PartyTold (s.line l).recorder h.pos s ru) :
    ∃ t, seizeRinging h l s = (t, .ok) ∧ Binds h l s t ∧ t.ru = ru ∧
      t.line l = { s.line l with state := .connected, owners := [h], ctlPending := true } ∧
      (t.ring l = none ∧ (∀ m, m ≠ l → t.ring m = s.ring m) ∧
        ∀ p, t.posRing p = movedCounts true ring.shown 0 p (s.posRing p)) ∧
      Posts ([.ringEnd l .answered (some h.pos)] ++ alertChanges s ring.shown 0 ++ [.lineState l .connected .answered]) s t := by
  obtain ⟨binds, ru_, line, rings, posts⟩ := answer_takes s h state hr
  rw [show (ring.phase == .recall) = true by simpa using phase] at rings
  exact ⟨_, by rw [seizeRinging_recall hr shown phase, lineParty_of_told told (by rw [line]) ru_], binds.withRu ru, rfl, line,
    rings, posts.withRu ru⟩

/-- A join (R14). -/
theorem seizeConnected_takes (priv : (s.line l).privacy = false) (room : (s.line l).owners.length < 4)
    (told : PartyTold (s.line l).recorder h.pos s ru) :
    ∃ t, seizeConnected h l s = (t, .ok) ∧ Binds h l s t ∧ t.rc = s.rc ∧ t.ru = ru ∧
      t.line l = { s.line l with owners := (s.line l).owners ++ [h] } ∧ Posts [] s t := by
  let v := (bindHandset h l s).modLine l fun r => { r with owners := r.owners ++ [h] }
  have line : v.line l = { s.line l with owners := (s.line l).owners ++ [h] } := by simp [v, bindHandset]
  have party : lineParty l h.pos v = { v with ru := ru } := lineParty_of_told told (by rw [line]) rfl
  have act : seizeConnected h l s = (lineParty l h.pos v, .ok) := by
    unfold seizeConnected
    dsimp only
    rw [if_neg (by simp [priv]), if_neg (by simpa [Config.ownerPlaces] using room)]
  have binds : Binds h l s v := ⟨fun k => bindHandset_handset s h k l,
    fun m hm => modLine_line_ne _ l m _ (Ne.symm hm), rfl, rfl, rfl, rfl, rfl, rfl, rfl, rfl, rfl⟩
  have posts : Posts [] s v := (posts_modHandset s h _).trans (posts_modLine _ l _ rfl)
  exact ⟨_, by rw [act, party], binds.withRu ru, rfl, rfl, line, posts.withRu ru⟩

/-- A retrieve (R15). -/
theorem seizeHeld_takes (state : (s.line l).state = .held) (priv : (s.line l).privacy = false ∨ (s.line l).heldBy = some h.pos)
    (told : PartyTold (s.line l).recorder h.pos s ru) :
    ∃ t, seizeHeld h l s = (t, .ok) ∧ Binds h l s t ∧ t.rc = s.rc ∧ t.ru = ru ∧
      t.line l = { s.line l with state := .connected, owners := [h], heldBy := none, recallDeadline := none } ∧
      Posts [.lineState l .connected .retrieved] s t := by
  let v := s.modLine l fun r => { r with recallDeadline := none, heldBy := none }
  have line : (takeLine h l .retrieved v).line l =
      { s.line l with state := .connected, owners := [h], heldBy := none, recallDeadline := none } := by
    rw [takeLine_line, if_pos rfl]
    simp [v, LineRec.entered, nearEndMoves, state, LineState.nearEnd]
  have party : lineParty l h.pos (takeLine h l .retrieved v) = { takeLine h l .retrieved v with ru := ru } :=
    lineParty_of_told told (by rw [line]) (by rw [takeLine_ru]; rfl)
  have act : seizeHeld h l s = (lineParty l h.pos (takeLine h l .retrieved v), .ok) := by
    unfold seizeHeld
    dsimp only
    rw [if_neg (by rcases priv with p | p <;> simp [p])]
  have binds : Binds h l s (takeLine h l .retrieved v) := (takeLine_binds v h l _).after (fun _ => rfl)
    (fun m hm => modLine_line_ne s l m _ (Ne.symm hm)) ⟨rfl, rfl, rfl, rfl, rfl, rfl, rfl, rfl, rfl⟩
  have posts : Posts [.lineState l .connected .retrieved] s (takeLine h l .retrieved v) :=
    (posts_modLine s l _ rfl).trans (posts_takeLine v h l .retrieved)
  exact ⟨_, by rw [act, party], binds.withRu ru, takeLine_rc v h l .retrieved, rfl, line, posts.withRu ru⟩

end

/-- Settles O27. -/
theorem seizeTakesLine : Obligations.SeizeTakesLine := by
  constructor
  · intro h l s c r bound holds may
    refine ⟨fun ru rec_ st state checked => ?_, fun ring ru rec_ st state hr shown phase checked => ?_,
      fun ring ru state hr shown phase told => ?_⟩
    · obtain ⟨t, act, binds, rc, ru_, line, posts⟩ := seizeIdle_takes state checked
      obtain ⟨handset, lines, frame⟩ := binds.complete st
      exact ⟨_, runCommand_next holds ((seize_idle may state).trans act), ⟨handset, lines, frame.eq⟩, rc, ru_, line,
        posts.answers st⟩
    · obtain ⟨t, act, binds, ru_, line, ⟨gone, others, counts⟩, posts⟩ := seizeRinging_takes state hr shown phase checked
      obtain ⟨handset, lines, frame⟩ := binds.complete st
      exact ⟨_, runCommand_next holds ((seize_ringing may state).trans act), ⟨handset, lines, frame.eq⟩, ru_, line, gone,
        others, counts, posts.answers st⟩
    · obtain ⟨t, act, binds, ru_, line, ⟨gone, others, counts⟩, posts⟩ := seizeRecall_takes state hr shown phase told
      obtain ⟨handset, lines, frame⟩ := binds.complete .ok
      exact ⟨_, runCommand_next holds ((seize_ringing may state).trans act), ⟨handset, lines, frame.eq⟩, ru_, line, gone,
        others, counts, posts.answers .ok⟩
  · intro h l ru s c r bound holds may told
    have bound_of {t : State} (binds : Binds h l s t) (rc : t.rc = s.rc) (ru_ : t.ru = ru) : bound (complete .ok t) := by
      obtain ⟨handset, lines, frame⟩ := binds.complete .ok
      have eq := frame.eq
      rw [complete_rc, complete_ru, rc, ru_] at eq
      exact ⟨handset, lines, eq⟩
    refine ⟨fun state priv room => ?_, fun state priv => ?_⟩
    · obtain ⟨t, act, binds, rc, ru_, line, posts⟩ := seizeConnected_takes priv room told
      exact ⟨_, runCommand_next holds ((seize_connected may state).trans act), bound_of binds rc ru_, line, posts.answers .ok⟩
    · obtain ⟨t, act, binds, rc, ru_, line, posts⟩ := seizeHeld_takes state priv told
      exact ⟨_, runCommand_next holds ((seize_held may state).trans act), bound_of binds rc ru_, line, posts.answers .ok⟩

/-! ## RELEASE and HOLD (R18, R19) -/

theorem leaveLine_line (s : State) (h : Handset) (l m : LineId) : (leaveLine h l s).line m =
    if l = m then { s.line l with owners := (s.line l).owners.filter (· != h) } else s.line m := by
  simp [leaveLine, freeHandset, modLine_line]

theorem leaveLine_handset (s : State) (h k : Handset) (l : LineId) : (leaveLine h l s).handset k =
    if k = h then { s.handset h with binding := none } else s.handset k := by
  simp only [leaveLine, freeHandset, modLine_handset, modHandset_handset, eq_comm (a := h)]

theorem posts_leaveLine (s : State) (h : Handset) (l : LineId) : Posts [] s (leaveLine h l s) :=
  (posts_modHandset s h _).trans (posts_modLine _ l _ rfl)

theorem release_of_bound (bound : (s.handset h).binding = some l) : release (finByte h.pos) h.side.code s =
    if ((leaveLine h l s).line l).owners = [] then (clearLine l .released .idle (leaveLine h l s), .ok)
    else (leaveLine h l s, .ok) := by
  simp only [release, boundLine_of_bound bound]

/-- The line is put on hold for a position (R19). -/
def holdLine (h : Handset) (l : LineId) (s : State) : State :=
  setLineState l .held .held ((leaveLine h l s).modLine l fun r =>
    { r with heldBy := some h.pos, recallDeadline := ahead s (s.line l).recallTime })

theorem ahead_eq (s : State) (frames : Nat) :
    (if 0 < frames then some (s.now + BitVec.ofNat 32 frames) else none) = ahead s frames := by
  unfold ahead
  rcases Nat.eq_zero_or_pos frames with rfl | ahead
  · rfl
  · rw [if_pos ahead, if_neg ahead.ne']

theorem hold_of_bound (bound : (s.handset h).binding = some l) : hold (finByte h.pos) h.side.code s =
    if 1 < (s.line l).owners.length then (s, .shared) else (holdLine h l s, .ok) := by
  simp only [hold, boundLine_of_bound bound, ahead_eq]
  rfl

theorem Table.modify_modify {n : Nat} {α : Type} (t : Table n α) (i : Fin n) (f g : α → α) :
    (t.modify i f).modify i g = t.modify i fun a => g (f a) :=
  Table.ext_get fun j => by by_cases hj : i = j <;> simp [hj]

theorem modLine_modLine (s : State) (l : LineId) (f g : LineRec → LineRec) :
    (s.modLine l f).modLine l g = s.modLine l fun r => g (f r) := by
  simp only [State.modLine, Table.modify_modify]

/-- Once the last owner has gone, the clearing finds nothing of him: it is that of the line before. -/
theorem clearLine_leaveLine (owners : (s.line l).owners = [h]) (cause : LineCause) (st : LineState) :
    clearLine l cause st (leaveLine h l s) = clearLine l cause st s := by
  have empty : emptyLine (leaveLine h l s) l = emptyLine s l := by
    have none : ((leaveLine h l s).line l).owners = [] := by rw [leaveLine_line, if_pos rfl, owners]; simp
    rw [emptyLine, none, emptyLine, owners]
    simp only [freeOwners, List.foldl_cons, List.foldl_nil, leaveLine, modLine_modLine]
    rfl
  simp only [clearLine_eq, clearedLine, empty]

/-- Settles O28. -/
theorem releaseAndHoldLeaveLine : Obligations.ReleaseAndHoldLeaveLine := by
  constructor
  · refine fun h s holds => ⟨fun free => ?_, fun l k bound owner other => ?_, fun l bound owners => ?_⟩
    · exact onlyAnswers_of_eq s (runCommand_next holds (by simp [release, boundLine_of_free free]))
    · have stays : ((leaveLine h l s).line l).owners ≠ [] := by
        rw [leaveLine_line, if_pos rfl]
        exact List.ne_nil_of_mem (List.mem_filter.2 ⟨owner, by simpa using other⟩)
      refine ⟨_, runCommand_next holds ((release_of_bound bound).trans (if_neg stays)), by simp [leaveLine_line],
        fun m hm => by simp [leaveLine_line, Ne.symm hm], fun j => leaveLine_handset s h j l,
        (posts_leaveLine s h l).answers .ok, ?_⟩
      apply State.ext_parts <;> rfl
    · have gone : ((leaveLine h l s).line l).owners = [] := by simp [leaveLine_line, owners]
      refine (runCommand_next holds ((release_of_bound bound).trans (if_pos gone))).trans ?_
      rw [clearLine_leaveLine owners]
  · refine fun h s holds => ⟨fun free => ?_, fun l bound shared => ?_, fun l bound owners state => ?_⟩
    · exact onlyAnswers_of_eq s (runCommand_next holds (by simp [hold, boundLine_of_free free]))
    · exact onlyAnswers_of_eq s (runCommand_next holds ((hold_of_bound bound).trans (if_pos (by omega))))
    · have alone : ¬1 < (s.line l).owners.length := by simp [owners]
      refine ⟨_, runCommand_next holds ((hold_of_bound bound).trans (if_neg alone)), ?_, fun m hm => ?_, fun j => ?_, ?_, ?_⟩
      · simp [holdLine, leaveLine_line, LineRec.entered, nearEndMoves, state, owners, LineState.nearEnd]
      · simp [holdLine, setLineState_line, leaveLine_line, Ne.symm hm]
      · simp [holdLine, leaveLine_handset]
      · exact (((posts_leaveLine s h l).trans (posts_modLine _ l _ rfl)).trans (posts_setLineState _ l _ _)).answers .ok
      · apply State.ext_parts
        case lc =>
          have maps : (holdLine h l s).lc.maps = s.lc.maps := by
            simp [holdLine, leaveLine, freeHandset, State.modLine, State.modHandset]
          rw [complete_lc, ← maps]
        all_goals simp [holdLine, leaveLine, freeHandset]

end Sys2Proof.Machine

namespace Sys2Proof.Machine

variable {s u : State} {a : OwnAccess} {k : Nat} {which : Purpose → Bool}

/-! # Responses to own accesses (R126) -/

theorem dropNth_of_split {α : Type} (p : α → Bool) (b : α) (after : List α) (picked : p b = true) :
    ∀ before : List α, dropNth p (before.filter p).length (before ++ b :: after) = before ++ after
  | [] => by simp [dropNth, picked]
  | c :: before => by
    have ih := dropNth_of_split p b after picked before
    by_cases hc : p c = true
    · simp [dropNth, hc, ih]
    · simp [dropNth, hc, ih]

/-- The access that returns is the one taken out of flight. -/
theorem Returns.takeFlight (back : Returns which k a s u) : takeFlight which k s = some (a, u) := by
  obtain ⟨found, picked, removed, before, after, flight, left, count⟩ := back
  have drop : dropNth (fun x => which x.purpose) k s.pu.flight = u.pu.flight := by
    rw [flight, left, ← count]
    exact dropNth_of_split (fun x => which x.purpose) a after picked before
  rw [Machine.takeFlight, found, drop, ← removed]

theorem Returns.cu (back : Returns which k a s u) : u.cu = s.cu := by rw [back.removed]
theorem Returns.running (back : Returns which k a s u) : u.running = s.running := by rw [back.removed]; rfl

theorem indexWordWriteResponse_of_returns (back : Returns Purpose.isIndexWord k a s u) (error : Bool) :
    indexWordWriteResponse k error s = faultIf error a u := by
  rw [indexWordWriteResponse, back.takeFlight]

theorem controlWordWriteResponse_of_returns (back : Returns (fun p => p.kind == .lineControl) k a s u) (error : Bool) :
    controlWordWriteResponse k error s = faultIf error a u := by
  rw [controlWordWriteResponse, back.takeFlight]

theorem execStatusWordWriteResponse_of_returns (back : Returns Purpose.isStatusWord k a s u) (error : Bool) :
    execStatusWordWriteResponse k error s = .next (faultIf error a u) := by
  rw [execStatusWordWriteResponse, back.takeFlight]

/-! ## The fault of an own access -/

/-- The fault of an access stands recorded. -/
def faulted (a : OwnAccess) (f : FaultRecord) (u : State) : State := { u with cu := { u.cu with fault := faultAfter a f } }

theorem memoryFault_untold (quiet : a.purpose.madeBeforeRunning = true ∨ u.running = false) :
    memoryFault a u = faulted a u.cu.fault u := by
  unfold memoryFault
  rw [if_pos (by rcases quiet with q | q <;> simp [q])]
  rfl

theorem memoryFault_told (loud : a.purpose.madeBeforeRunning = false) (run : u.running = true) :
    memoryFault a u =
      post (.fault .memoryError a.purpose.kind a.addr (satSucc u.cu.fault.count)) (faulted a u.cu.fault u) := by
  unfold memoryFault
  rw [if_neg (by simp [loud, run])]
  rfl

theorem isIndexWord_madeInRunning {p : Purpose} (h : p.isIndexWord = true) : p.madeBeforeRunning = false := by
  cases p <;> simp_all [Purpose.isIndexWord, Purpose.madeBeforeRunning]

theorem lineControl_madeInRunning {p : Purpose} (h : (p.kind == .lineControl) = true) : p.madeBeforeRunning = false := by
  cases p <;> simp_all [Purpose.kind, Purpose.madeBeforeRunning]

theorem statusWord_madeBeforeRunning {p : Purpose} (h : p.isStatusWord = true) (other : p ≠ .statusWord .running) :
    p.madeBeforeRunning = true := by
  cases p <;> simp_all [Purpose.isStatusWord, Purpose.madeBeforeRunning]

/-- An error response told by a FAULT event: the fault is recorded and its event posted. -/
theorem Returns.told (back : Returns which k a s u) (loud : a.purpose.madeBeforeRunning = false) (run : s.running = true) :
    Posts [.fault .memoryError a.purpose.kind a.addr (satSucc s.cu.fault.count)] (faulted a s.cu.fault u)
        (faultIf true a u) ∧
      faultIf true a u = { faulted a s.cu.fault u with cu := (faultIf true a u).cu, pu := (faultIf true a u).pu } := by
  have eq : faultIf true a u = _ := memoryFault_told loud (back.running.trans run)
  rw [eq, back.cu]
  exact ⟨posts_post _ _, rfl⟩

theorem Returns.untold (back : Returns which k a s u) (quiet : a.purpose.madeBeforeRunning = true ∨ s.running = false) :
    faultIf true a u = faulted a s.cu.fault u := by
  rw [← back.running] at quiet
  rw [← back.cu]
  exact memoryFault_untold quiet

theorem inRunning_of_running (act : State → State) (run : s.running = true) : inRunning act s = .next (act s) := by
  rw [inRunning, if_pos run]

/-- Settles O42. -/
theorem plainResponsesReturn : Obligations.PlainResponsesReturn := by
  refine fun k a s u => ⟨fun run back => ?_, fun run back => ?_, fun back => ?_⟩
  · have act (error : Bool) : exec (.indexWordWriteResponse k error) s = .next (faultIf error a u) :=
      (inRunning_of_running _ run).trans (by rw [indexWordWriteResponse_of_returns back])
    exact ⟨act false, _, act true, back.told (isIndexWord_madeInRunning back.picked) run⟩
  · have act (error : Bool) : exec (.controlWordWriteResponse k error) s = .next (faultIf error a u) :=
      (inRunning_of_running _ run).trans (by rw [controlWordWriteResponse_of_returns back])
    exact ⟨act false, _, act true, back.told (lineControl_madeInRunning back.picked) run⟩
  · have act (error : Bool) : exec (.statusWordWriteResponse k error) s = .next (faultIf error a u) :=
      execStatusWordWriteResponse_of_returns back error
    refine ⟨act false, fun run purpose => ⟨_, act true, back.told (by rw [purpose]; rfl) run⟩, fun quiet => ?_⟩
    rw [act true, back.untold (quiet.symm.imp_left (statusWord_madeBeforeRunning back.picked))]
    rfl

end Sys2Proof.Machine

namespace Sys2Proof.Machine

variable {s : State} {l : LineId} {w : Word}

/-! # Signal words (R5 to R7) -/

theorem recalling_iff : recalling s l = true ↔ ∃ ring, s.ring l = some ring ∧ ring.phase = .recall := by
  unfold recalling
  cases s.ring l <;> simp

/-- The state once the signal word is taken and its values stored. -/
def signalStored (l : LineId) (w : Word) (s : State) : State :=
  (takeHanded (.signalWord l w) s).modLine l fun r => { r with farEnd := wordFarEnd w, ringInd := wordRing w }

/-- A far_end that has changed is told. -/
def farEndTold (l : LineId) (w : Word) (s : State) : State :=
  if wordFarEnd w = (s.line l).farEnd then signalStored l w s else post (.farEnd l (wordFarEnd w)) (signalStored l w s)

/-- The far end goes on hook and takes a held or recalling line with it (R6). -/
abbrev farEndClears (l : LineId) (w : Word) (s : State) : Prop :=
  wordFarEnd w ≠ (s.line l).farEnd ∧ wordFarEnd w = .onHook ∧
    ((s.line l).state = .held ∨ (s.line l).state = .ringing ∧ recalling s l = true)

/-- A change of ring_indicator follows, if there is one. -/
def ringFollows (l : LineId) (w : Word) (s t : State) : State :=
  if wordRing w = (s.line l).ringInd then t else ringChange l (wordRing w) t

theorem signalStored_line (m : LineId) : (signalStored l w s).line m =
    if l = m then { s.line l with farEnd := wordFarEnd w, ringInd := wordRing w } else s.line m := by
  simp [signalStored, modLine_line]

theorem signalStored_same (far : wordFarEnd w = (s.line l).farEnd) (ind : wordRing w = (s.line l).ringInd) :
    signalStored l w s = takeHanded (.signalWord l w) s :=
  modLine_same _ (by rw [takeHanded_line, far, ind])

@[simp] theorem farEndTold_line (m : LineId) : (farEndTold l w s).line m = (signalStored l w s).line m := by
  unfold farEndTold; split <;> simp
@[simp] theorem farEndTold_rc : (farEndTold l w s).rc = s.rc := by unfold farEndTold; split <;> rfl

theorem recalling_farEndTold : recalling (farEndTold l w s) l = recalling s l := by
  simp only [recalling, State.ring, farEndTold_rc]

/-- The arrival of a signal word, out of service and otherwise. -/
theorem exec_signalWord (run : s.running = true) :
    exec (.signalWord l w) s = .next (signalWord l w (takeHanded (.signalWord l w) s)) :=
  inRunning_of_running (fun s => signalWord l w (takeHanded (.signalWord l w) s)) run

theorem signalWord_eq : signalWord l w (takeHanded (.signalWord l w) s) =
    if wordFarEnd w = (s.line l).farEnd ∧ wordRing w = (s.line l).ringInd then takeHanded (.signalWord l w) s
    else if (s.line l).state = .outOfService then signalStored l w s
    else ringFollows l w s (if wordFarEnd w = (s.line l).farEnd then signalStored l w s
      else farEndChange l (wordFarEnd w) (signalStored l w s)) := rfl

theorem signalWord_of_outOfService (run : s.running = true) (state : (s.line l).state = .outOfService) :
    exec (.signalWord l w) s = .next (signalStored l w s) := by
  rw [exec_signalWord run, signalWord_eq, if_pos state]
  split
  · next h => rw [signalStored_same h.1 h.2]
  · rfl

/-- The step of R6, if there is one. -/
theorem farEndStep_eq (far : wordFarEnd w ≠ (s.line l).farEnd) : farEndChange l (wordFarEnd w) (signalStored l w s) =
    if farEndClears l w s then clearLine l .farEndClear .idle (farEndTold l w s) else farEndTold l w s := by
  have told : farEndTold l w s = post (.farEnd l (wordFarEnd w)) (signalStored l w s) := if_neg far
  have state : ((farEndTold l w s).line l).state = (s.line l).state := by rw [farEndTold_line, signalStored_line, if_pos rfl]
  have clears : farEndClears l w s ↔ wordFarEnd w = .onHook ∧ (((farEndTold l w s).line l).state = .held ∨
      ((farEndTold l w s).line l).state = .ringing ∧ recalling (farEndTold l w s) l = true) := by
    rw [state, recalling_farEndTold]
    exact and_iff_right far
  simp only [farEndChange, ← told, clears]

/-- In service a signal word stores its values, tells a far_end that has changed, which may clear the line, and then does what
a change of ring_indicator brings about. -/
theorem signalWord_of_inService (run : s.running = true) (state : (s.line l).state ≠ .outOfService) :
    exec (.signalWord l w) s = .next (ringFollows l w s
      (if farEndClears l w s then clearLine l .farEndClear .idle (farEndTold l w s) else farEndTold l w s)) := by
  rw [exec_signalWord run, signalWord_eq, if_neg state]
  by_cases far : wordFarEnd w = (s.line l).farEnd
  · have told : farEndTold l w s = signalStored l w s := if_pos far
    rw [if_neg fun clears : farEndClears l w s => clears.1 far, told, if_pos far]
    split
    · next h => rw [ringFollows, if_pos h.2, signalStored_same h.1 h.2]
    · rfl
  · rw [if_neg fun h => far h.1, if_neg far, ← farEndStep_eq far]

/-- A ring_indicator that neither rings an IDLE line nor ends a ring is stored and does no more (R7). -/
theorem ringChange_of_calm {ind : RingInd} {t : State} (rises : ind = .ringing → (t.line l).state = .idle → (t.line l).type = .hoot)
    (falls : ind = .quiet → (t.line l).state = .ringing → (t.line l).type = .hoot ∨ recalling t l = true) :
    ringChange l ind t = t := by
  unfold ringChange
  dsimp only
  split
  · rfl
  · next voice =>
    split
    · next state => exact absurd (rises rfl state) voice
    · next state => rw [if_pos ((falls rfl state).resolve_left voice)]
    · rfl

theorem ringFollows_of_calm {t : State}
    (rises : wordRing w ≠ (s.line l).ringInd → wordRing w = .ringing → (t.line l).state = .idle → (t.line l).type = .hoot)
    (falls : wordRing w ≠ (s.line l).ringInd → wordRing w = .quiet → (t.line l).state = .ringing →
      (t.line l).type = .hoot ∨ recalling t l = true) : ringFollows l w s t = t := by
  unfold ringFollows
  split
  · rfl
  · next ind => exact ringChange_of_calm (rises ind) (falls ind)

theorem ringFollows_of_rise {t : State} (differs : wordRing w ≠ (s.line l).ringInd) (rises : wordRing w = .ringing)
    (idle : (t.line l).state = .idle) (voice : (t.line l).type ≠ .hoot) : ringFollows l w s t = enterRinging l t := by
  rw [ringFollows, if_neg differs, rises]
  simp only [ringChange, if_neg voice, idle]

theorem ringFollows_of_fall {t : State} (differs : wordRing w ≠ (s.line l).ringInd) (falls : wordRing w = .quiet)
    (rings : (t.line l).state = .ringing) (voice : (t.line l).type ≠ .hoot) (plain : recalling t l = false) :
    ringFollows l w s t = abandonRing l t := by
  rw [ringFollows, if_neg differs, falls]
  simp only [ringChange, if_neg voice, rings, plain, Bool.false_eq_true, if_false]

/-- After a clearing towards IDLE the level rule has done what the ring_indicator asks for. -/
theorem ringFollows_clearLine {t : State} (ind : (t.line l).ringInd = wordRing w) (cause : LineCause) :
    ringFollows l w s (clearLine l cause .idle t) = clearLine l cause .idle t := by
  have line := clearedLine_line t l l cause .idle
  rw [if_pos rfl] at line
  have ringing : wordRing w = .ringing → (t.line l).type ≠ .hoot →
      clearLine l cause .idle t = enterRinging l (clearedLine t l cause .idle) := fun rings voice => by
    rw [clearLine_eq, levelRule, if_pos (by rw [line]; exact ⟨voice, rfl, ind.trans rings⟩)]
  have quiet : wordRing w = .quiet → clearLine l cause .idle t = clearedLine t l cause .idle := fun quiet => by
    rw [clearLine_eq, levelRule, if_neg (by rw [line]; simp [LineRec.cleared, LineRec.emptied, ind, quiet])]
  by_cases hoot : (t.line l).type = .hoot
  · have type : ((clearLine l cause .idle t).line l).type = .hoot := by
      rw [clearLine_eq, levelRule, if_neg (by rw [line]; simp [LineRec.cleared, LineRec.emptied, hoot]), line]
      exact hoot
    exact ringFollows_of_calm (fun _ _ _ => type) fun _ _ _ => .inl type
  · refine ringFollows_of_calm (fun _ rings state => ?_) fun _ falls state => ?_
    · rw [ringing rings hoot, enterRinging_line, if_pos rfl] at state
      cases state
    · rw [quiet falls, line] at state
      cases state

/-! ## What a signal word leaves -/

theorem signalStored_complete (l : LineId) (w : Word) (s : State) :
    (signalStored l w s).line l = { s.line l with farEnd := wordFarEnd w, ringInd := wordRing w } ∧
    OnlyLine l s (signalStored l w s) ∧
    signalStored l w s = { takeHanded (.signalWord l w) s with lc := { s.lc with lines := (signalStored l w s).lc.lines } } :=
  ⟨by rw [signalStored_line, if_pos rfl], fun m h => by rw [signalStored_line, if_neg (Ne.symm h)], rfl⟩

theorem farEndTold_complete (l : LineId) (w : Word) (s : State) :
    (wordFarEnd w = (s.line l).farEnd → farEndTold l w s = signalStored l w s) ∧
    (wordFarEnd w ≠ (s.line l).farEnd →
      Posts [.farEnd l (wordFarEnd w)] (signalStored l w s) (farEndTold l w s) ∧
      farEndTold l w s = { signalStored l w s with cu := (farEndTold l w s).cu, pu := (farEndTold l w s).pu }) := by
  refine ⟨fun same => if_pos same, fun differs => ?_⟩
  have told : farEndTold l w s = post (.farEnd l (wordFarEnd w)) (signalStored l w s) := if_neg differs
  rw [told]
  exact ⟨posts_post _ _, rfl⟩

theorem abandonRing_line (s : State) (l m : LineId) : (abandonRing l s).line m =
    if l = m then { (s.line l).entered .idle with missed := min ((s.line l).missed + 1) 65535 } else s.line m := by
  simp only [abandonRing, setLineState_line, modLine_line, endRing_line, if_true]
  split <;> rfl

@[simp] theorem modLine_handsets (s : State) (l : LineId) (f : LineRec → LineRec) :
    (s.modLine l f).lc.handsets = s.lc.handsets := rfl
@[simp] theorem modLine_maps (s : State) (l : LineId) (f : LineRec → LineRec) : (s.modLine l f).lc.maps = s.lc.maps := rfl

theorem abandonRing_moves {s : State} {l : LineId} {r : RingRec} (ring : s.ring l = some r) (phase : r.phase ≠ .recall) :
    let t := abandonRing l s
    t.ring l = none ∧ (∀ m, m ≠ l → t.ring m = s.ring m) ∧
      (∀ p, t.posRing p = movedCounts false r.shown 0 p (s.posRing p)) ∧
      Posts ([.ringEnd l .abandoned none] ++ alertChanges s r.shown 0 ++ [.lineState l .idle .abandoned]) s t := by
  obtain ⟨gone, others, counts, ended⟩ := endRing_moves s ring .abandoned none
  have plain : (r.phase == .recall) = false := by simpa using phase
  rw [plain] at counts
  have missed := posts_modLine (endRing l .abandoned none s) l
    (fun r => { r with missed := min (r.missed + 1) Config.missedMax }) rfl
  refine ⟨?_, fun m h => ?_, fun p => ?_, ?_⟩
  · simpa [abandonRing] using gone
  · simpa [abandonRing] using others m h
  · simpa [abandonRing] using counts p
  · simpa only [List.append_nil, abandonRing] using (ended.trans missed).trans (posts_setLineState _ l .idle .abandoned)

@[simp] theorem farEndTold_handsets : (farEndTold l w s).lc.handsets = s.lc.handsets := by
  unfold farEndTold; split <;> simp [signalStored]
@[simp] theorem farEndTold_maps : (farEndTold l w s).lc.maps = s.lc.maps := by
  unfold farEndTold; split <;> simp [signalStored]

theorem abandonRing_farEndTold_frame (l : LineId) (w : Word) (s : State) :
    abandonRing l (farEndTold l w s) = { farEndTold l w s with
      lc := { s.lc with lines := (abandonRing l (farEndTold l w s)).lc.lines }
      rc := (abandonRing l (farEndTold l w s)).rc
      cu := (abandonRing l (farEndTold l w s)).cu
      pu := (abandonRing l (farEndTold l w s)).pu } := by
  apply State.ext_parts
  · exact LineCtl.eq_of_lines (by simp [abandonRing]) (by simp [abandonRing])
  all_goals simp [abandonRing]

/-- Settles O43: far_end acts first, and a clearing has left nothing for ring_indicator to do. -/
theorem signalWordActs : Obligations.SignalWordActs := by
  intro l w s c far ind r u stored toldFarEnd recalls run
  have stores : stored (signalStored l w s) := signalStored_complete l w s
  have tells : toldFarEnd (signalStored l w s) (farEndTold l w s) := farEndTold_complete l w s
  have line : (farEndTold l w s).line l = { r with farEnd := far, ringInd := ind } := by
    rw [farEndTold_line, signalStored_line, if_pos rfl]; rfl
  have recall_iff : recalling s l = true ↔ recalls := recalling_iff
  have told_state : ((farEndTold l w s).line l).state = r.state := by rw [line]
  have told_type : ((farEndTold l w s).line l).type = r.type := by rw [line]
  have told_ring (m : LineId) : (farEndTold l w s).ring m = s.ring m := by simp only [State.ring, farEndTold_rc]
  have told_posRing (p : PosId) : (farEndTold l w s).posRing p = s.posRing p := by simp only [State.posRing, farEndTold_rc]
  have calm_act (inService : r.state ≠ .outOfService) (calm : ¬farEndClears l w s) :
      exec c s = .next (ringFollows l w s (farEndTold l w s)) := by
    rw [signalWord_of_inService run inService, if_neg calm]
  refine ⟨fun sameFar sameInd => ?_, fun state => ⟨_, stores, signalWord_of_outOfService run state⟩, fun calm => ?_,
    fun differs onHook state => ?_, fun state voice differs rises => ?_, fun ring state voice hr phase differs falls => ?_⟩
  · rw [exec_signalWord run, signalWord_eq, if_pos ⟨sameFar, sameInd⟩]
    rfl
  · have inService : r.state ≠ .outOfService := by
      rcases calm with h | h | ⟨h, -⟩ | ⟨h, -⟩ | ⟨h, -⟩ <;> simp [h]
    have keeps : ¬farEndClears l w s := fun ⟨differs, onHook, state⟩ => by
      rcases state with held | ⟨ringing, recalling⟩
      · have := (show far = r.farEnd ∨ far = .offHook by simpa [r, held] using calm).resolve_left differs
        exact absurd (onHook.symm.trans this) (by decide)
      · have := (show far = r.farEnd ∨ far = .offHook ∨ ¬recalls by
          have := calm; simp [r, ringing] at this; exact this.1).resolve_left differs
        rcases this with off | plain
        · exact absurd (onHook.symm.trans off) (by decide)
        · exact plain (recall_iff.1 recalling)
    refine ⟨_, _, stores, tells, (calm_act inService keeps).trans (congrArg _ (ringFollows_of_calm ?_ ?_))⟩
    · intro differs rises idle
      rw [told_state] at idle
      rw [told_type]
      have : r.type = .hoot ∨ ind = r.ringInd ∨ ind = .quiet := by simpa [idle] using calm
      rcases this with hoot | same | quiet
      · exact hoot
      · exact absurd same differs
      · exact absurd (rises.symm.trans quiet) (by decide)
    · intro differs falls ringing
      rw [told_state] at ringing
      rw [told_type, recalling_farEndTold, recall_iff]
      have : r.type = .hoot ∨ ind = r.ringInd ∨ ind = .ringing ∨ recalls := by
        have := calm; simp [ringing] at this; exact this.2
      rcases this with hoot | same | rings | again
      · exact .inl hoot
      · exact absurd same differs
      · exact absurd (falls.symm.trans rings) (by decide)
      · exact .inr again
  · have inService : r.state ≠ .outOfService := by rcases state with h | h <;> simp [h]
    have clears : farEndClears l w s := ⟨differs, onHook, state.imp_right (And.imp_right recall_iff.2)⟩
    refine ⟨_, _, stores, tells, ?_⟩
    rw [signalWord_of_inService run inService, if_pos clears, ringFollows_clearLine (by rw [line]; rfl)]
  · have calm : ¬farEndClears l w s := fun h => by have := h.2.2; simp_all [r]
    have rings := ringFollows_of_rise (t := farEndTold l w s) differs rises (told_state.trans state)
      (told_type.trans_ne voice)
    exact ⟨_, _, stores, tells, by rw [← rings]; exact calm_act (by simp [state]) calm⟩
  · have plain : recalling s l = false := by
      rw [Bool.eq_false_iff, Ne, recall_iff]
      rintro ⟨other, found, again⟩
      exact phase (Option.some.inj (found.symm.trans hr) ▸ again)
    have calm : ¬farEndClears l w s := fun h => by have := h.2.2; simp_all [r]
    have ends := ringFollows_of_fall (t := farEndTold l w s) differs falls (told_state.trans state) (told_type.trans_ne voice)
      (recalling_farEndTold.trans plain)
    obtain ⟨gone, others, counts, posts⟩ := abandonRing_moves (told_ring l |>.trans hr) phase
    rw [alertChanges_congr told_posRing] at posts
    refine ⟨_, _, _, stores, tells, by rw [← ends]; exact calm_act (by simp [state]) calm, ?_, fun m h => ?_, gone,
      fun m h => (others m h).trans (told_ring m), fun p => (counts p).trans (by rw [told_posRing]), posts,
      abandonRing_farEndTold_frame l w s⟩
    · rw [abandonRing_line, if_pos rfl, line]
      simp [LineRec.entered, nearEndMoves, state, LineState.nearEnd]
    · rw [abandonRing_line, if_neg (Ne.symm h), farEndTold_line, signalStored_line, if_neg (Ne.symm h)]

end Sys2Proof.Machine

namespace Sys2Proof.Machine

variable {s : State} {l : LineId}

/-! # Deadlines of lines (R20, R34, R141) -/

theorem due_iff (s : State) (d : Word) : s.due d = true ↔ (s.ft.counter - d).toNat < 2 ^ 31 :=
  decide_eq_true_iff

theorem due_now (s : State) : s.due s.ft.counter = true := by
  rw [due_iff, BitVec.sub_self]
  decide

/-- A deadline that lies ahead is not due. -/
theorem not_due_ahead (s : State) {k : Nat} (pos : 0 < k) (near : k < 2 ^ 31) :
    s.due (s.ft.counter + BitVec.ofNat 32 k) = false := by
  rw [Bool.eq_false_iff, Ne, due_iff]
  have : (s.ft.counter - (s.ft.counter + BitVec.ofNat 32 k)).toNat = 2 ^ 32 - k := by bv_omega
  omega

/-! ## Hold recall -/

/-- The hold of a line ends in a recall at the position that held it. -/
def heldRecalled (l : LineId) (p : PosId) (s : State) : State :=
  startRecall l p (setLineState l .ringing .recall
    (post (.holdRecall l p) (s.modLine l fun r => { r with recallDeadline := none, heldBy := none })))

theorem holdRecallExpiry_of_due {d : Word} {p : PosId} (state : (s.line l).state = .held)
    (deadline : (s.line l).recallDeadline = some d) (held : (s.line l).heldBy = some p) (due : s.due d = true) :
    holdRecallExpiry l s = heldRecalled l p s := by
  simp only [holdRecallExpiry, state, deadline, held, due, if_true]
  rfl

theorem holdRecallExpiry_of_idle (h : (s.line l).state ≠ .held ∨ (s.line l).recallDeadline = none ∨
    ∃ e, (s.line l).recallDeadline = some e ∧ s.due e = false) : holdRecallExpiry l s = s := by
  unfold holdRecallExpiry
  dsimp only
  split
  · next d p state deadline _ =>
    have : s.due d = false := by simpa [state, deadline] using h
    rw [this]
    rfl
  · rfl

theorem heldRecalled_line (s : State) (l m : LineId) (p : PosId) : (heldRecalled l p s).line m =
    if l = m then { (s.line l).entered .ringing with recallDeadline := none, heldBy := none } else s.line m := by
  simp only [heldRecalled, startRecall_line, setLineState_line, post_line, modLine_line, if_true]
  split <;> simp [LineRec.entered, nearEndMoves]

theorem heldRecalled_moves (s : State) (l : LineId) (p : PosId) :
    RingMoves l true 0 (onlyPos p) (some ⟨.recall, onlyPos p, none, some p⟩)
      [.holdRecall l p, .lineState l .ringing .recall, .ringStart l .recall (some p)] s (heldRecalled l p s) := by
  have cleared := posts_modLine s l (fun r => { r with recallDeadline := none, heldBy := none }) rfl
  have told := (cleared.trans (posts_post _ (.holdRecall l p))).trans (posts_setLineState _ l .ringing .recall)
  exact (startRecall_moves _ l p).after told (by simp)

/-! ## Ring delay -/

theorem ringDelayExpiry_of_due {r : RingRec} {d : Word} (ring : s.ring l = some r) (phase : r.phase = .preferred)
    (deadline : r.delayDeadline = some d) (due : s.due d = true) : ringDelayExpiry l s = widen l .expiry r s := by
  simp only [ringDelayExpiry, ring, phase, deadline, due, if_true]

theorem ringDelayExpiry_of_none (ring : s.ring l = none) : ringDelayExpiry l s = s := by
  simp only [ringDelayExpiry, ring]

theorem ringDelayExpiry_of_idle {r : RingRec} (ring : s.ring l = some r)
    (h : ∀ d, r.phase = .preferred → r.delayDeadline = some d → s.due d = false) : ringDelayExpiry l s = s := by
  simp only [ringDelayExpiry, ring]
  split
  · next d phase deadline => simp [h d phase deadline]
  · rfl

/-- Settles O45. -/
theorem lineDeadlinesExpire : Obligations.LineDeadlinesExpire := by
  refine ⟨fun d s => ⟨due_iff s d, fun now => now ▸ due_now s, fun k pos near ahead => ahead ▸ not_due_ahead s pos near⟩,
    fun l d p s run => ⟨fun idle => ?_, fun state deadline held due => ?_⟩,
    fun l r d s run => ⟨fun none => ?_, fun ring idle => ?_, fun ring phase deadline => ⟨fun early => ?_, fun due => ?_⟩⟩⟩
  · exact (inRunning_of_running _ run).trans (by rw [holdRecallExpiry_of_idle idle])
  · refine ⟨heldRecalled l p s, (inRunning_of_running _ run).trans
      (by rw [holdRecallExpiry_of_due state deadline held due]), ?_, fun m h => ?_, heldRecalled_moves s l p, ?_⟩
    · rw [heldRecalled_line, if_pos rfl]
      simp [LineRec.entered, nearEndMoves, state, LineState.nearEnd]
    · rw [heldRecalled_line, if_neg (Ne.symm h)]
    · apply State.ext_parts
      · exact LineCtl.eq_of_lines (by simp [heldRecalled]) (by simp [heldRecalled])
      all_goals simp [heldRecalled]
  · exact (inRunning_of_running _ run).trans (by rw [ringDelayExpiry_of_none none])
  · exact (inRunning_of_running _ run).trans (by
      rw [ringDelayExpiry_of_idle ring fun d phase deadline => by simp [phase, deadline] at idle])
  · exact (inRunning_of_running _ run).trans (by
      rw [ringDelayExpiry_of_idle ring fun e _ found => by rw [deadline] at found; cases found; exact early])
  · refine ⟨widen l .expiry r s, appearing s l, (inRunning_of_running _ run).trans
      (by rw [ringDelayExpiry_of_due ring phase deadline due]), fun p => inSet_appearing s l p, widen_moves s l .expiry r, ?_⟩
    apply State.ext_parts <;> simp

end Sys2Proof.Machine

namespace Sys2Proof.Machine

/-! # Forwarded responses and the downstream arbiter (R109, R123 to R125) -/

/-- An own access asked for after `before`, with writes of `blocks` still ahead of these, may be granted (R124). -/
def Allowed (blocks : List Nat) (before : List OwnAccess) (a : OwnAccess) : Prop :=
  (a.purpose.isRead = true → a.behind = 0) ∧
  (a.purpose.isRead = false → a.purpose.block ∉ blocks ∧
    ∀ b ∈ before, b.purpose.isRead = false → b.purpose.block ≠ a.purpose.block)

/-- The blocks with a write waiting, once `c` waits too. -/
def passed (blocks : List Nat) (c : OwnAccess) : List Nat :=
  if c.purpose.isRead ∨ c.purpose.block ∈ blocks then blocks else c.purpose.block :: blocks

theorem mem_passed {blocks : List Nat} {c : OwnAccess} {n : Nat} :
    n ∈ passed blocks c ↔ n ∈ blocks ∨ c.purpose.isRead = false ∧ c.purpose.block = n := by
  unfold passed
  split
  · next h =>
    refine ⟨.inl, ?_⟩
    rintro (mem | ⟨write, rfl⟩)
    · exact mem
    · exact h.resolve_left (by simp [write])
  · next h =>
    simp only [not_or, Bool.not_eq_true] at h
    simp [h.1, or_comm, eq_comm]

theorem allowed_cons {blocks : List Nat} {c a : OwnAccess} {before : List OwnAccess} :
    Allowed blocks (c :: before) a ↔ Allowed (passed blocks c) before a := by
  unfold Allowed
  rw [mem_passed]
  simp only [List.forall_mem_cons, not_or, not_and]
  grind

theorem allowed_nil {blocks : List Nat} {a : OwnAccess} : Allowed blocks [] a ↔
    (a.purpose.isRead = true → a.behind = 0) ∧ (a.purpose.isRead = false → a.purpose.block ∉ blocks) := by simp [Allowed]

theorem eligible_cons_of_allowed {blocks : List Nat} {c : OwnAccess} (h : Allowed blocks [] c) (own : List OwnAccess) :
    eligible blocks (c :: own) = c :: eligible (passed blocks c) own := by
  obtain ⟨read, write⟩ := allowed_nil.1 h
  rw [eligible, passed]
  cases isRead : c.purpose.isRead
  · simp [write isRead]
  · simp [read isRead]

theorem eligible_cons_of_not_allowed {blocks : List Nat} {c : OwnAccess} (h : ¬Allowed blocks [] c) (own : List OwnAccess) :
    eligible blocks (c :: own) = eligible (passed blocks c) own := by
  rw [allowed_nil] at h
  rw [eligible, passed]
  cases isRead : c.purpose.isRead
  · have : c.purpose.block ∈ blocks := by simpa [isRead] using h
    simp [this]
  · have : c.behind ≠ 0 := by simpa [isRead] using h
    simp [this]

/-- What the arbiter picks of the own accesses asked for: of those that may be granted, the first of the first kind (R123). -/
def Picks (blocks : List Nat) (own : List OwnAccess) : Option OwnAccess → Prop
  | none => ∀ before a after, own = before ++ a :: after → ¬Allowed blocks before a
  | some a => ∃ before after, own = before ++ a :: after ∧ Allowed blocks before a ∧
      ∀ first b last, own = first ++ b :: last → Allowed blocks first b →
        a.purpose.kind.code.toNat < b.purpose.kind.code.toNat ∨
        (a.purpose.kind.code = b.purpose.kind.code ∧ before.length ≤ first.length)

/-- An access that may not be granted is passed over. -/
theorem Picks.skip {blocks : List Nat} {c : OwnAccess} {own : List OwnAccess} {o : Option OwnAccess}
    (h : ¬Allowed blocks [] c) (picks : Picks (passed blocks c) own o) : Picks blocks (c :: own) o := by
  cases o with
  | none =>
    intro before a after eq allowed
    rcases List.cons_eq_append_iff.1 eq with ⟨rfl, eq⟩ | ⟨before, rfl, tail⟩
    · obtain ⟨rfl, -⟩ := List.cons.inj eq
      exact h allowed
    · exact picks before a after tail (allowed_cons.1 allowed)
  | some a =>
    obtain ⟨before, after, rfl, allowed, least⟩ := picks
    refine ⟨c :: before, after, rfl, allowed_cons.2 allowed, ?_⟩
    intro first b last eq allowed_b
    rcases List.cons_eq_append_iff.1 eq with ⟨rfl, eq⟩ | ⟨first, rfl, tail⟩
    · obtain ⟨rfl, -⟩ := List.cons.inj eq
      exact absurd allowed_b h
    · exact (least first b last tail (allowed_cons.1 allowed_b)).imp_right fun ⟨same, le⟩ => ⟨same, Nat.succ_le_succ le⟩

/-- An access that may be granted is picked unless a later one is of an earlier kind. -/
theorem Picks.take {blocks : List Nat} {c : OwnAccess} {own : List OwnAccess} {o : Option OwnAccess}
    (h : Allowed blocks [] c) (picks : Picks (passed blocks c) own o) :
    Picks blocks (c :: own) (o.elim (some c) fun b => if c.purpose.kind.code ≤ b.purpose.kind.code then some c else some b) := by
  cases o with
  | none =>
    refine ⟨[], own, rfl, h, ?_⟩
    intro first b last eq allowed_b
    rcases List.cons_eq_append_iff.1 eq with ⟨rfl, eq⟩ | ⟨first, rfl, tail⟩
    · obtain ⟨rfl, -⟩ := List.cons.inj eq
      exact .inr ⟨rfl, le_rfl⟩
    · exact absurd (allowed_cons.1 allowed_b) (picks first b last tail)
  | some a =>
    obtain ⟨before, after, eq_own, allowed, least⟩ := picks
    simp only [Option.elim_some, BitVec.le_def]
    split
    · next le =>
      refine ⟨[], own, rfl, h, ?_⟩
      intro first b last eq allowed_b
      rcases List.cons_eq_append_iff.1 eq with ⟨rfl, eq⟩ | ⟨first, rfl, tail⟩
      · obtain ⟨rfl, -⟩ := List.cons.inj eq
        exact .inr ⟨rfl, le_rfl⟩
      · rcases least first b last tail (allowed_cons.1 allowed_b) with lt | ⟨same, -⟩
        · exact .inl (lt_of_le_of_lt le lt)
        · rcases Nat.lt_or_eq_of_le le with lt | eq
          · exact .inl (same ▸ lt)
          · exact .inr ⟨(BitVec.eq_of_toNat_eq eq).trans same, Nat.zero_le _⟩
    · next gt =>
      refine ⟨c :: before, after, congrArg (c :: ·) eq_own, allowed_cons.2 allowed, ?_⟩
      intro first b last eq allowed_b
      rcases List.cons_eq_append_iff.1 eq with ⟨rfl, eq⟩ | ⟨first, rfl, tail⟩
      · obtain ⟨rfl, -⟩ := List.cons.inj eq
        exact .inl (Nat.lt_of_not_le gt)
      · exact (least first b last tail (allowed_cons.1 allowed_b)).imp_right fun ⟨same, le⟩ => ⟨same, Nat.succ_le_succ le⟩

theorem firstKind_cons (a : OwnAccess) (as : List OwnAccess) : firstKind (a :: as) =
    (firstKind as).elim (some a) fun b => if a.purpose.kind.code ≤ b.purpose.kind.code then some a else some b := by
  rw [firstKind]
  cases firstKind as <;> rfl

theorem picks_firstKind (own : List OwnAccess) (blocks : List Nat) : Picks blocks own (firstKind (eligible blocks own)) := by
  induction own generalizing blocks with
  | nil => exact fun before a after eq => by simp at eq
  | cons c own ih =>
    by_cases h : Allowed blocks [] c
    · rw [eligible_cons_of_allowed h, firstKind_cons]
      exact (ih _).take h
    · rw [eligible_cons_of_not_allowed h]
      exact (ih _).skip h

theorem Allowed.earlier {blocks : List Nat} {before first : List OwnAccess} {a : OwnAccess} (h : Allowed blocks before a)
    (sub : first ⊆ before) : Allowed blocks first a :=
  ⟨h.1, fun write => ⟨(h.2 write).1, fun b mem => (h.2 write).2 b (sub mem)⟩⟩

/-- The access picked is the first of its value. -/
theorem erase_of_picked {blocks : List Nat} {before after : List OwnAccess} {a : OwnAccess} (allowed : Allowed blocks before a)
    (least : ∀ first b last, before ++ a :: after = first ++ b :: last → Allowed blocks first b →
      a.purpose.kind.code.toNat < b.purpose.kind.code.toNat ∨
      (a.purpose.kind.code = b.purpose.kind.code ∧ before.length ≤ first.length)) :
    (before ++ a :: after).erase a = before ++ after := by
  have fresh : a ∉ before := fun mem => by
    obtain ⟨first, rest, rfl⟩ := List.append_of_mem mem
    have := least first a (rest ++ a :: after) (by simp) (allowed.earlier (List.subset_append_left _ _))
    simp at this
  rw [List.erase_append_right _ fresh, List.erase_cons_head]

theorem AccessKind.code_inj {k m : AccessKind} (h : k.code = m.code) : k = m := by
  cases k <;> cases m <;> simp_all [AccessKind.code]

/-! ## The grants -/

theorem passThroughResponse_of_split {s : State} {before after : List PassTxn} {t : PassTxn}
    (flight : s.pu.passFlight = before ++ t :: after) (resp : Resp) (data : List (BitVec 64)) :
    execPassThroughResponse before.length resp data s = .next { s with pu := { s.pu with
      passFlight := before ++ after, answer := some (.forwarded t resp data) } } := by
  have found : s.pu.passFlight[before.length]? = some t := by rw [flight]; simp
  have left : s.pu.passFlight.eraseIdx before.length = before ++ after := by
    rw [flight, List.eraseIdx_append_of_length_le le_rfl]; simp
  simp only [execPassThroughResponse, found, left]

theorem downstreamGrant_forwarded {s : State} {t : PassTxn} {rest : List PassTxn} (waits : s.pu.passWaiting = t :: rest)
    (turn : nextOwn s = none ∨ s.pu.lastOwn = true) : execDownstreamGrant s = .next (grantForwarded t rest s) := by
  unfold execDownstreamGrant
  rw [waits]
  cases own : nextOwn s with
  | none => rfl
  | some a => exact if_pos (turn.resolve_left (by simp [own]))

theorem downstreamGrant_own {s : State} {a : OwnAccess} (picked : nextOwn s = some a)
    (turn : s.pu.passWaiting = [] ∨ s.pu.lastOwn = false) : execDownstreamGrant s = .next (grantOwn a s) := by
  unfold execDownstreamGrant
  rw [picked]
  cases waits : s.pu.passWaiting with
  | nil => rfl
  | cons t rest => exact if_neg (by simpa [waits] using turn)

theorem downstreamGrant_idle {s : State} (waits : s.pu.passWaiting = []) (picked : nextOwn s = none) :
    execDownstreamGrant s = .next s := by
  unfold execDownstreamGrant
  rw [waits, picked]

theorem grantForwarded_own (t : PassTxn) (rest : List PassTxn) (s : State) : (grantForwarded t rest s).pu.own =
    s.pu.own.map fun a => { a with behind := match t with | .write _ => a.behind - 1 | .read _ => a.behind } := by
  cases t with
  | write _ => rfl
  | read _ => exact (List.map_id _).symm

theorem clearMark_pu (a : OwnAccess) (s : State) : (clearMark a s).pu = s.pu := by
  unfold clearMark; split <;> rfl

theorem clearMark_frame (a : OwnAccess) (s : State) :
    clearMark a s = { s with lc := { s.lc with lines := (clearMark a s).lc.lines } } := by
  unfold clearMark; split <;> rfl

/-- What a grant of an own access leaves: the access as issued in flight, a line's mark cleared. -/
theorem grantOwn_complete (a : OwnAccess) (s : State) :
    let u := grantOwn a s
    u.pu = { s.pu with own := s.pu.own.erase a, flight := s.pu.flight ++ [issued s a], lastOwn := true } ∧
    (issued s a = { a with data := (issued s a).data } ∧
      (∀ l, a.purpose = .lineControl l → (issued s a).data = [((s.line l).state.nearEnd).code, 0, 0, 0] ∧
        u.line l = { s.line l with ctlPending := false } ∧ OnlyLine l s u) ∧
      (a.purpose.kind ≠ .lineControl → (issued s a).data = a.data ∧ u.lc = s.lc)) ∧
    u = { s with
      lc := { s.lc with lines := u.lc.lines }
      pu := u.pu } := by
  unfold grantOwn
  refine ⟨by rw [clearMark_pu], ⟨?_, fun l control => ?_, fun other => ?_⟩, ?_⟩
  · unfold issued
    split <;> rfl
  · simp only [issued, clearMark, control, controlWord, true_and]
    exact ⟨modLine_line_self _ l _, fun m h => modLine_line_ne _ l m _ (Ne.symm h)⟩
  · have plain : ∀ l, a.purpose ≠ .lineControl l := fun l eq => other (by rw [eq]; rfl)
    unfold issued clearMark
    split <;> simp_all
  · rw [clearMark_pu, clearMark_frame]

/-- Settles O59. -/
theorem forwardedPathAndArbiter : Obligations.ForwardedPathAndArbiter := by
  refine ⟨fun resp data t before after s flight => passThroughResponse_of_split flight resp data, fun s => ?_⟩
  intro may ownWaits
  have allowed_iff (before : List OwnAccess) (a : OwnAccess) : Allowed [] before a ↔ may before a := by simp [Allowed, may]
  have picks : Picks [] s.pu.own (nextOwn s) := picks_firstKind s.pu.own []
  have none_iff : nextOwn s = none ↔ ¬ownWaits := by
    cases own : nextOwn s with
    | none =>
      rw [own] at picks
      simp only [true_iff]
      rintro ⟨before, a, after, eq, allowed⟩
      exact picks before a after eq ((allowed_iff before a).2 allowed)
    | some a =>
      rw [own] at picks
      obtain ⟨before, after, eq, allowed, -⟩ := picks
      simp only [reduceCtorEq, false_iff, not_not]
      exact ⟨before, a, after, eq, (allowed_iff before a).1 allowed⟩
  refine ⟨fun waits idle => downstreamGrant_idle waits (none_iff.2 idle), fun t rest waits turn => ?_, fun own turn => ?_⟩
  · exact ⟨_, downstreamGrant_forwarded waits (turn.imp_left none_iff.2), rfl, rfl, rfl, grantForwarded_own t rest s, rfl⟩
  · obtain ⟨a, picked⟩ := Option.ne_none_iff_exists'.1 fun none => none_iff.1 none own
    rw [picked] at picks
    obtain ⟨before, after, eq, allowed, least⟩ := picks
    have left : s.pu.own.erase a = before ++ after := by rw [eq] at least ⊢; exact erase_of_picked allowed least
    obtain ⟨pu, issue, frame⟩ := grantOwn_complete a s
    refine ⟨_, before, a, after, issued s a, downstreamGrant_own picked turn, eq, (allowed_iff _ _).1 allowed,
      fun first b last split may_b => ?_, by rw [pu, left], by rw [pu], by rw [pu], issue, ?_⟩
    · exact (least first b last split ((allowed_iff _ _).2 may_b)).imp_right (And.imp_left AccessKind.code_inj)
    · rw [pu] at frame ⊢
      exact frame

end Sys2Proof.Machine

namespace Sys2Proof.Machine

/-! # Bridging of hoot lines (R27): several lines in a row -/

/-- The line that an own access writes the control word of. -/
def OwnAccess.controlLine (a : OwnAccess) : Option LineId :=
  match a.purpose with
  | .lineControl l => some l
  | _ => none

/-- Of the path unit only own accesses were asked for, the line control words among them those of `ls` in this order. -/
def AskedControls (ls : List LineId) (s t : State) : Prop :=
  ∃ more : List OwnAccess, t.pu = { s.pu with own := s.pu.own ++ more } ∧ more.filterMap OwnAccess.controlLine = ls

theorem AskedControls.of_eq {s t : State} (h : t.pu = s.pu) : AskedControls [] s t := ⟨[], by simp [h], rfl⟩

theorem AskedControls.trans {s t u : State} {ks ls : List LineId} (h : AskedControls ks s t) (k : AskedControls ls t u) :
    AskedControls (ks ++ ls) s u := by
  obtain ⟨more, pu, lines⟩ := h
  obtain ⟨more', pu', lines'⟩ := k
  exact ⟨more ++ more', by rw [pu', pu]; simp, by simp [lines, lines']⟩

/-- The control words among the accesses asked for since. -/
theorem AskedControls.drop {s t : State} {ls : List LineId} (h : AskedControls ls s t) :
    (t.pu.own.drop s.pu.own.length).filterMap OwnAccess.controlLine = ls := by
  obtain ⟨more, pu, lines⟩ := h
  rw [pu]
  simpa using lines

theorem controlLine_eq_none {a : OwnAccess} (h : (a.purpose.kind == .lineControl) = false) : a.controlLine = none := by
  unfold OwnAccess.controlLine
  split
  · next l eq => simp [eq, Purpose.kind] at h
  · rfl

/-- Where no line is newly marked no control word is asked for. -/
theorem Asks.controls {s t : State} {writes : List OwnAccess} (h : Asks writes s t)
    (same : ∀ l, (t.line l).ctlPending = (s.line l).ctlPending) : AskedControls [] s t := by
  obtain ⟨⟨more, marked, pu, -, controls, -, mem⟩, -⟩ := h
  have none_ : marked = [] := List.eq_nil_iff_forall_not_mem.2 fun l hl => by
    obtain ⟨off, on⟩ := (mem l).1 hl
    rw [same, off] at on
    cases on
  rw [none_, List.map_nil, List.filter_eq_nil_iff] at controls
  exact ⟨more, pu, List.filterMap_eq_nil_iff.2 fun a ha => controlLine_eq_none (by simpa using controls a ha)⟩

/-- The lines of a list go through a change of their records, one after the other, with an event and at most one control word
each, and nothing else happens. -/
structure Switched (ls : List LineId) (f : LineRec → LineRec) (e : LineId → Event) (s t : State) : Prop where
  line : ∀ m, t.line m = if m ∈ ls then f (s.line m) else s.line m
  events : Posts (ls.map e) s t
  controls : AskedControls (ls.filter fun l => !(s.line l).ctlPending) s t
  frame : t = { s with lc := { s.lc with lines := t.lc.lines }, cu := t.cu, pu := t.pu }

theorem switched_nil (f : LineRec → LineRec) (e : LineId → Event) (s : State) : Switched [] f e s s :=
  ⟨fun m => by simp, .refl s, .of_eq rfl, rfl⟩

/-- A list of lines switched one after the other, where each step switches its line alone. -/
theorem switched_foldl {f : LineRec → LineRec} {e : LineId → Event} {step : LineId → State → State} {ok : LineRec → Prop}
    (single : ∀ l s, ok (s.line l) → Switched [l] f e s (step l s)) :
    ∀ (ls : List LineId) (s : State), ls.Nodup → (∀ l ∈ ls, ok (s.line l)) →
      Switched ls f e s (ls.foldl (fun s l => step l s) s)
  | [], s, _, _ => switched_nil f e s
  | l :: ls, s, nodup, oks => by
    obtain ⟨fresh, nodup⟩ := List.nodup_cons.1 nodup
    have first := single l s (oks l (List.mem_cons_self ..))
    have kept (m : LineId) (hm : m ∈ ls) : (step l s).line m = s.line m := by
      rw [first.line, if_neg]
      simpa using fun eq : m = l => fresh (eq ▸ hm)
    have rest := switched_foldl single ls (step l s) nodup fun m hm => by
      rw [kept m hm]; exact oks m (List.mem_cons_of_mem _ hm)
    refine ⟨fun m => ?_, first.events.trans rest.events, ?_, ?_⟩
    · rw [List.foldl_cons, rest.line, first.line]
      by_cases hl : m = l
      · subst hl; simp [fresh]
      · simp [hl]
    · have same : (ls.filter fun m => !((step l s).line m).ctlPending) = ls.filter fun m => !(s.line m).ctlPending :=
        List.filter_congr fun m hm => by rw [kept m hm]
      have := first.controls.trans rest.controls
      rw [same, ← List.filter_append] at this
      exact this
    · rw [List.foldl_cons, rest.frame, first.frame]

/-- What a change of state asks for by way of control words. -/
theorem setLineState_controls (s : State) (l : LineId) (st : LineState) (cause : LineCause) :
    AskedControls (if nearEndMoves (s.line l) st && !(s.line l).ctlPending then [l] else []) s (setLineState l st cause s) := by
  refine ⟨_, by rw [setLineState_pu, List.append_assoc], ?_⟩
  have slots : (s.cu.takeEvent s.cu.reserve (.lineState l st cause)).slots.filterMap OwnAccess.controlLine = [] :=
    List.filterMap_eq_nil_iff.2 fun a ha => controlLine_eq_none (by simp [CmdUnit.takeEvent_slots _ _ _ a ha])
  rw [List.filterMap_append, slots, List.append_nil, controlAsked]
  split <;> rfl

/-- The record of a line bridged in a group. -/
def LineRec.bridgedIn (g : GroupId) (r : LineRec) : LineRec := { r.entered .bridged with group := some g }
/-- The record of a line unbridged. -/
def LineRec.unbridged (r : LineRec) : LineRec := { r.entered .idle with group := none }

/-- A change of state that moves near_end, after a change of the record that does not show in it, switches its line. -/
theorem setLineState_switches {f : LineRec → LineRec} {st : LineState} (cause : LineCause) (l : LineId) (s : State)
    (pending : (f (s.line l)).ctlPending = (s.line l).ctlPending) (moves : nearEndMoves (f (s.line l)) st = true) :
    Switched [l] (fun r => (f r).entered st) (fun l => .lineState l st cause) s (setLineState l st cause (s.modLine l f)) where
  line m := by
    rw [setLineState_line, modLine_line_self, modLine_line]
    by_cases h : l = m
    · subst h; simp
    · simp [h, Ne.symm h]
  events := (posts_modLine s l f pending).trans (posts_setLineState _ l st cause)
  controls := by
    have asked := (AskedControls.of_eq (s := s) (t := s.modLine l f) rfl).trans (setLineState_controls (s.modLine l f) l st cause)
    rw [modLine_line_self, moves, pending] at asked
    simpa [List.filter_cons] using asked
  frame := by
    apply State.ext_parts
    case lc => exact LineCtl.eq_of_lines (by simp) (by simp)
    all_goals simp

theorem bridge_switches (g : GroupId) (l : LineId) (s : State) (ok : (s.line l).type = .hoot ∧ (s.line l).state = .idle) :
    Switched [l] (LineRec.bridgedIn g) (fun l => .lineState l .bridged .bridged) s (bridge g l s) := by
  rw [bridge, if_pos ok]
  exact setLineState_switches (f := fun r => { r with group := some g }) .bridged l s rfl (by simp [nearEndMoves, ok, LineState.nearEnd])

theorem unbridge_switches (l : LineId) (s : State) (ok : (s.line l).type = .hoot ∧ (s.line l).state = .bridged) :
    Switched [l] LineRec.unbridged (fun l => .lineState l .idle .unbridged) s (unbridge l s) := by
  have switched := setLineState_switches (f := fun r => { r with group := none }) (st := .idle) .unbridged l s rfl
    (by simp [nearEndMoves, ok, LineState.nearEnd])
  rw [unbridge, if_pos ok, levelRule, if_neg (by rw [switched.line]; simp [ok])]
  exact switched

end Sys2Proof.Machine

namespace Sys2Proof.Machine

variable {s t : State} {g : GroupId}

/-! # The steps of GROUP_SET (R59 to R63) -/

/-! ## The Recorder Unit is told of positions granted a place (R148) -/

/-- The Recorder Unit once it has been told, in order, of positions that come onto a subject with this recorder. -/
def ruTold (recorder : Option ChanId) (ps : List PosId) (s : State) : RecUnit :=
  recorder.elim s.ru fun c => (ps.foldl (fun v p => partyArrival c p v) s).ru

theorem partyArrivals_ru_congr (c : ChanId) (ps : List PosId) : ∀ {s t : State}, t.ru = s.ru →
    (ps.foldl (fun v p => partyArrival c p v) t).ru = (ps.foldl (fun v p => partyArrival c p v) s).ru := by
  induction ps with
  | nil => exact id
  | cons p ps ih => exact fun ru => ih (partyArrival_ru_congr ru c p)

theorem ruTold_congr (ru : t.ru = s.ru) (recorder : Option ChanId) (ps : List PosId) :
    ruTold recorder ps t = ruTold recorder ps s := by
  cases recorder with
  | none => exact ru
  | some c => exact partyArrivals_ru_congr c ps ru

theorem ruTold_append (recorder : Option ChanId) (p : PosId) (ps : List PosId) (ru : t.ru = ruTold recorder [p] s) :
    ruTold recorder ps t = ruTold recorder (p :: ps) s := by
  cases recorder with
  | none => exact ru
  | some c => exact partyArrivals_ru_congr c ps ru

@[simp] theorem ruTold_nil (recorder : Option ChanId) (s : State) : ruTold recorder [] s = s.ru := by cases recorder <;> rfl

/-! ## Grants (R50, R54) -/

/-- A holder that is granted its place now. -/
def grantedEntry (s : State) (limit : Nat) (e : FloorEntry) : FloorEntry := ⟨e.pos, e.standing, ahead s limit⟩

theorem grantedEntry_congr (now : t.now = s.now) (limit : Nat) : grantedEntry t limit = grantedEntry s limit := by
  funext e; simp [grantedEntry, ahead, now]

theorem grantPlace_group (s : State) (g h : GroupId) (p : PosId) (b : Bool) : (grantPlace g p b s).group h =
    if g = h then { s.group g with holders := (s.group g).holders ++ [⟨p, b, ahead s (s.group g).talkLimit⟩], hangDeadline := none }
    else s.group h := by
  have deadline : deadlineIn s (s.group g).talkLimit = ahead s (s.group g).talkLimit := ahead_eq (s := s) _
  unfold grantPlace
  dsimp only
  split <;> simp only [partyArrival_group, modGroup_group, post_group, deadline] <;> split <;> rfl

theorem grantPlace_ru (s : State) (g : GroupId) (p : PosId) (b : Bool) :
    (grantPlace g p b s).ru = ruTold (s.group g).recorder [p] s := by
  unfold grantPlace ruTold
  dsimp only
  split
  · next none_ => simp [none_]
  · next c some_ => rw [some_]; exact partyArrival_ru_congr (by simp) c p

theorem posts_grantPlace (s : State) (g : GroupId) (p : PosId) (b : Bool) : Posts [.floorGrant g p] s (grantPlace g p b s) := by
  have granted := (posts_modGroup s g fun r => { r with holders := r.holders ++ [⟨p, b, deadlineIn s r.talkLimit⟩] }).trans
    (posts_post _ (.floorGrant g p))
  have told := granted.trans (posts_modGroup _ g fun r => { r with hangDeadline := none })
  unfold grantPlace
  dsimp only
  split
  · exact told
  · exact told.trans (posts_modChan ..)

/-- The first `n` of a group's queue have been granted places. -/
structure Grants (g : GroupId) (n : Nat) (s t : State) : Prop where
  group : t.group g = { s.group g with
    holders := (s.group g).holders ++ ((s.group g).queue.take n).map (grantedEntry s (s.group g).talkLimit)
    queue := (s.group g).queue.drop n
    hangDeadline := if n = 0 then (s.group g).hangDeadline else none }
  others : OnlyGroup g s t
  events : Posts (((s.group g).queue.take n).map fun e => .floorGrant g e.pos) s t
  ru : t.ru = ruTold (s.group g).recorder (((s.group g).queue.take n).map (·.pos)) s

theorem Grants.none (g : GroupId) (s : State) : Grants g 0 s s :=
  ⟨by simp, fun _ _ => rfl, .refl s, by simp⟩

/-- One more grant ahead of others. -/
theorem Grants.succ {n : Nat} {e : FloorEntry} {rest : List FloorEntry} {u : State} (queue : (s.group g).queue = e :: rest)
    (h : Grants g n (grantPlace g e.pos e.standing (s.modGroup g fun r => { r with queue := rest })) u) : Grants g (n + 1) s u := by
  obtain ⟨group, others, events, ru⟩ := h
  rw [grantPlace_group, if_pos rfl, modGroup_group_self] at group events ru
  refine ⟨?_, fun h hg => ?_, ?_, ?_⟩
  · rw [group, grantedEntry_congr (s := s) (by simp), queue]
    simp [grantedEntry, ahead]
  · rw [others h hg, grantPlace_group, if_neg (Ne.symm hg), modGroup_group, if_neg (Ne.symm hg)]
  · rw [queue]
    exact ((posts_modGroup s g fun r => { r with queue := rest }).trans (posts_grantPlace _ g e.pos e.standing)).trans events
  · rw [ru, queue]
    refine ruTold_append _ _ _ ?_
    rw [grantPlace_ru, modGroup_group_self]
    exact ruTold_congr rfl _ _

/-- The grant pass gives the free places to the first of the queue (R54). -/
theorem grantPass_grants (s : State) (g : GroupId) :
    Grants g (min (s.group g).queue.length ((s.group g).maxTalkers - (s.group g).holders.length)) s (grantPass g s) := by
  unfold grantPass
  generalize queue : (s.group g).queue = q
  induction q generalizing s with
  | nil => simpa [grantPassN] using Grants.none g s
  | cons e rest ih =>
    rw [List.length_cons, grantPassN, queue]
    dsimp only
    split
    · next free =>
      have step := ih (grantPlace g e.pos e.standing (s.modGroup g fun r => { r with queue := rest }))
        (by rw [grantPlace_group, if_pos rfl, modGroup_group_self])
      rw [grantPlace_group, if_pos rfl, modGroup_group_self] at step
      have places : min (rest.length + 1) ((s.group g).maxTalkers - (s.group g).holders.length) =
          min rest.length ((s.group g).maxTalkers - ((s.group g).holders ++
            [grantedEntry s (s.group g).talkLimit e]).length) + 1 := by
        simp only [List.length_append, List.length_cons, List.length_nil]; omega
      rw [places]
      exact step.succ queue
    · next full =>
      have places : min (rest.length + 1) ((s.group g).maxTalkers - (s.group g).holders.length) = 0 := by omega
      rw [places]
      exact .none g s

end Sys2Proof.Machine

namespace Sys2Proof.Machine

variable {s t : State} {g : GroupId}

/-! # GROUP_SET (R58 to R63) -/

/-! ## The hoot lines that leave and come -/

def hootsLeaving (old hoots : List LineId) : List LineId := old.filter fun l => !hoots.contains l
def hootsComing (old hoots : List LineId) : List LineId := hoots.filter fun l => !old.contains l

/-- Lines that leave the list are unbridged, then lines that come are bridged (R60). -/
def rebridged (g : GroupId) (old hoots : List LineId) (s : State) : State :=
  (hootsComing old hoots).foldl (fun s l => bridge g l s) ((hootsLeaving old hoots).foldl (fun s l => unbridge l s) s)

/-- What the re-bridging of a group's hoot lines does, once its lines are as the laws have them. -/
structure Rebridges (g : GroupId) (old hoots : List LineId) (s t : State) : Prop where
  line : ∀ m, t.line m =
    if m ∈ hootsComing old hoots then (s.line m).bridgedIn g
    else if m ∈ hootsLeaving old hoots then (s.line m).unbridged else s.line m
  events : Posts ((hootsLeaving old hoots).map (fun l => .lineState l .idle .unbridged) ++
    (hootsComing old hoots).map fun l => .lineState l .bridged .bridged) s t
  controls : AskedControls ((hootsLeaving old hoots ++ hootsComing old hoots).filter fun l => !(s.line l).ctlPending) s t
  frame : t = { s with lc := { s.lc with lines := t.lc.lines }, cu := t.cu, pu := t.pu }

theorem not_leaving_of_coming {old hoots : List LineId} {l : LineId} (h : l ∈ hootsComing old hoots) :
    l ∉ hootsLeaving old hoots := by
  simp only [hootsComing, hootsLeaving, List.mem_filter, not_and] at *
  simp [h.1]

theorem rebridged_rebridges {old hoots : List LineId} (once_old : old.Nodup) (once : hoots.Nodup)
    (leaving : ∀ l ∈ hootsLeaving old hoots, (s.line l).type = .hoot ∧ (s.line l).state = .bridged)
    (coming : ∀ l ∈ hootsComing old hoots, (s.line l).type = .hoot ∧ (s.line l).state = .idle) :
    Rebridges g old hoots s (rebridged g old hoots s) := by
  have out := switched_foldl (ok := fun r => r.type = .hoot ∧ r.state = .bridged) unbridge_switches
    (hootsLeaving old hoots) s (once_old.filter _) leaving
  have kept (m : LineId) (hm : m ∈ hootsComing old hoots) := (out.line m).trans (if_neg (not_leaving_of_coming hm))
  have in_ := switched_foldl (ok := fun r => r.type = .hoot ∧ r.state = .idle) (bridge_switches g)
    (hootsComing old hoots) _ (once.filter _) fun l hl => by rw [kept l hl]; exact coming l hl
  refine ⟨fun m => ?_, out.events.trans in_.events, ?_, ?_⟩
  · rw [rebridged, in_.line, out.line]
    by_cases hm : m ∈ hootsComing old hoots
    · simp [hm, not_leaving_of_coming hm]
    · simp [hm]
  · have same := List.filter_congr (p := fun m => !(((hootsLeaving old hoots).foldl (fun s l => unbridge l s) s).line m).ctlPending)
      (q := fun m => !(s.line m).ctlPending) fun m hm => by rw [kept m hm]
    have both := out.controls.trans in_.controls
    rw [same, ← List.filter_append] at both
    exact both
  · rw [rebridged, in_.frame, out.frame]

/-! ## Steps that change the group's record alone -/

/-- A step that gives one group this record and posts these events. -/
structure FloorStep (g : GroupId) (r : GroupRec) (es : List Event) (s t : State) : Prop where
  group : t.group g = r
  others : OnlyGroup g s t
  events : Posts es s t
  ru : t.ru = s.ru

theorem modGroup_floorStep (s : State) (g : GroupId) (f : GroupRec → GroupRec) :
    FloorStep g (f (s.group g)) [] s (s.modGroup g f) :=
  ⟨modGroup_group_self s g f, fun h hg => by rw [modGroup_group, if_neg (Ne.symm hg)], posts_modGroup s g f, rfl⟩

/-- What stays of a group's holders and queue under a new membership (R61). -/
def GroupRec.membersKept (members : PosSet) (r : GroupRec) : GroupRec :=
  { r with holders := r.holders.filter fun e => inSet members e.pos, queue := r.queue.filter fun e => inSet members e.pos }

theorem membershipStep_floorStep (s : State) (g : GroupId) (members : PosSet) :
    FloorStep g ((s.group g).membersKept members)
      (((s.group g).holders.filter fun e => !inSet members e.pos).map (fun e => .floorRevoked g e.pos .membership) ++
        ((s.group g).queue.filter fun e => !inSet members e.pos).map fun e => .floorWithdrawn g e.pos .membership)
      s (membershipStep g members s) := by
  have kept := modGroup_floorStep s g fun r => { r with
    holders := r.holders.filter (fun e => !!inSet members e.pos), queue := r.queue.filter (fun e => !!inSet members e.pos) }
  refine ⟨?_, fun h hg => ?_, (kept.events.trans (posts_postAll _ _)).trans (posts_postAll _ _), by simp⟩
  · simp only [membershipStep, postAll_group, modGroup_group_self, Bool.not_not, GroupRec.membersKept]
  · simp only [membershipStep, postAll_group]
    exact kept.others h hg

/-- The newest grants beyond the limit are gone (R62). -/
theorem limitStep_floorStep (s : State) (g : GroupId) (most : Nat) :
    FloorStep g { s.group g with holders := (s.group g).holders.take most }
      (((s.group g).holders.drop most).reverse.map fun e => .floorRevoked g e.pos .limit) s (limitStep g most s) := by
  have kept := modGroup_floorStep s g fun r => { r with holders := r.holders.take most }
  refine ⟨?_, fun h hg => ?_, kept.events.trans (posts_postAll _ _), by simp⟩
  · simp only [limitStep, postAll_group, modGroup_group_self]
  · simp only [limitStep, postAll_group]
    exact kept.others h hg

/-! ## The floor under its new configuration -/

/-- The holders that stay under a new membership and limit. -/
def GroupRec.kept (members : PosSet) (most : Nat) (r : GroupRec) : List FloorEntry :=
  (r.holders.filter fun e => inSet members e.pos).take most
/-- The requests that stay under a new membership. -/
def GroupRec.waiting (members : PosSet) (r : GroupRec) : List FloorEntry := r.queue.filter fun e => inSet members e.pos
/-- How many of these are granted a place. -/
def GroupRec.granted (members : PosSet) (most : Nat) (r : GroupRec) : Nat :=
  min (r.waiting members).length (most - (r.kept members most).length)

/-- The steps of R61, R62 and R54. -/
def floorSettled (g : GroupId) (members : PosSet) (most : Nat) (s : State) : State :=
  grantPass g (limitStep g most (membershipStep g members s))

/-- The group's record once its floor is settled. -/
def GroupRec.settled (members : PosSet) (most : Nat) (s : State) (r : GroupRec) : GroupRec :=
  let n := r.granted members most
  { r with
    holders := r.kept members most ++ ((r.waiting members).take n).map (grantedEntry s r.talkLimit)
    queue := (r.waiting members).drop n
    hangDeadline := if n = 0 then r.hangDeadline else none }

/-- The events of the three steps. -/
def GroupRec.settledEvents (g : GroupId) (members : PosSet) (most : Nat) (r : GroupRec) : List Event :=
  ((r.holders.filter fun e => !inSet members e.pos).map fun e => .floorRevoked g e.pos .membership) ++
    ((r.queue.filter fun e => !inSet members e.pos).map fun e => .floorWithdrawn g e.pos .membership) ++
    (((r.holders.filter fun e => inSet members e.pos).drop most).reverse.map fun e => .floorRevoked g e.pos .limit) ++
    (((r.waiting members).take (r.granted members most)).map fun e => .floorGrant g e.pos)

/-- What the three steps do together. -/
structure Settles (g : GroupId) (members : PosSet) (most : Nat) (s t : State) : Prop where
  group : t.group g = (s.group g).settled members most s
  others : OnlyGroup g s t
  events : Posts ((s.group g).settledEvents g members most) s t
  ru : t.ru = ruTold (s.group g).recorder
    ((((s.group g).waiting members).take ((s.group g).granted members most)).map (·.pos)) s

theorem floorSettled_settles (members : PosSet) {most : Nat} (limit : (s.group g).maxTalkers = most) :
    Settles g members most s (floorSettled g members most s) := by
  obtain ⟨group1, others1, events1, ru1⟩ := membershipStep_floorStep s g members
  obtain ⟨group2, others2, events2, ru2⟩ := limitStep_floorStep (membershipStep g members s) g most
  obtain ⟨group3, others3, events3, ru3⟩ := grantPass_grants (limitStep g most (membershipStep g members s)) g
  rw [group1] at group2 events2
  rw [group2] at group3 events3 ru3
  have now : (limitStep g most (membershipStep g members s)).now = s.now := by simp
  subst limit
  refine ⟨?_, fun h hg => by rw [floorSettled, others3 h hg, others2 h hg, others1 h hg], ?_, ?_⟩
  · rw [floorSettled, group3, grantedEntry_congr now]
    rfl
  · exact (events1.trans events2).trans events3
  · rw [floorSettled, ru3]
    exact ruTold_congr (ru2.trans ru1) _ _

/-- Nothing stays and nothing waits: then nothing is left of the floor. -/
theorem kept_waiting_eq_nil {members : PosSet} {r : GroupRec}
    (silent : ¬∃ e ∈ r.holders ++ r.queue, inSet members e.pos = true) (most : Nat) :
    r.kept members most = [] ∧ r.waiting members = [] := by
  simp only [List.mem_append, not_exists, not_and] at silent
  constructor
  · rw [GroupRec.kept, List.filter_eq_nil_iff.2 fun e he => silent e (.inl he), List.take_nil]
  · exact List.filter_eq_nil_iff.2 fun e he => silent e (.inr he)

theorem granted_eq_zero {members : PosSet} {r : GroupRec}
    (silent : ¬∃ e ∈ r.holders ++ r.queue, inSet members e.pos = true) (most : Nat) : r.granted members most = 0 := by
  rw [GroupRec.granted, (kept_waiting_eq_nil silent most).2]
  exact Nat.zero_min _

/-- Where something stays or waits, a place is held: the limit leaves one, or the pass gives one. -/
theorem settled_holders_ne_nil {members : PosSet} {r : GroupRec} {most : Nat} (pos : 0 < most)
    (talk : ∃ e ∈ r.holders ++ r.queue, inSet members e.pos = true) (s : State) :
    (r.settled members most s).holders ≠ [] := by
  obtain ⟨e, he, stays⟩ := talk
  rw [GroupRec.settled, ne_eq, List.append_eq_nil_iff, not_and]
  intro none_
  rcases List.mem_append.1 he with held | queued
  · have : e ∈ r.holders.filter fun e => inSet members e.pos := List.mem_filter.2 ⟨held, stays⟩
    rw [(List.take_eq_nil_iff.1 none_).resolve_left (by omega)] at this
    cases this
  · have some_ : 0 < (r.waiting members).length := List.length_pos_of_mem (List.mem_filter.2 ⟨queued, stays⟩)
    have granted : 0 < r.granted members most := by
      rw [GroupRec.granted, none_, List.length_nil]
      omega
    rw [List.map_eq_nil_iff, List.take_eq_nil_iff]
    rintro (zero | none_)
    · omega
    · simp [none_] at some_

/-- Who talks under a new configuration (R63). -/
theorem settled_hasTalkers (members : PosSet) {most : Nat} (pos : 0 < most) (s : State) (r : GroupRec) :
    (r.settled members most s).hasTalkers = true ↔
      r.hootLines ≠ [] ∨ ∃ e ∈ r.holders ++ r.queue, inSet members e.pos = true := by
  have hoots : (r.settled members most s).hootLines = r.hootLines := rfl
  rw [GroupRec.hasTalkers, hoots]
  by_cases talk : ∃ e ∈ r.holders ++ r.queue, inSet members e.pos = true
  · exact iff_of_true (by simp [settled_holders_ne_nil pos talk s]) (.inr talk)
  · obtain ⟨kept, waiting⟩ := kept_waiting_eq_nil talk most
    have none_ : (r.settled members most s).holders = [] := by simp [GroupRec.settled, kept, waiting]
    rw [none_, or_iff_left talk]
    simp

/-! ## The hang step (R60 step 8, R65) -/

theorem hangStep_talks (recorded : Bool) (talks : (s.group g).hasTalkers = true) :
    hangStep g recorded s = s.modGroup g fun r => { r with hangDeadline := none } := by
  rw [hangStep, if_pos talks]

theorem hangStep_keeps {recorded : Bool} (silent : (s.group g).hasTalkers = false)
    (h : recorded = false ∨ (s.group g).hangDeadline ≠ none) : hangStep g recorded s = s := by
  unfold hangStep
  dsimp only
  rw [if_neg (by simp [silent]), if_neg]
  rintro ⟨on, none_⟩
  rcases h with off | some_
  · simp [off] at on
  · exact some_ none_

theorem hangStep_starts (silent : (s.group g).hasTalkers = false) (idle : (s.group g).hangDeadline = none) {d : ChanId}
    (recorder : (s.group g).recorder = some d) (time : 0 < (s.group g).hangTime) : hangStep g true s =
      s.modGroup g fun r => { r with hangDeadline := some (s.now + BitVec.ofNat 32 r.hangTime) } := by
  simp [hangStep, startHang, silent, idle, recorder, time]

theorem hangStep_ends (silent : (s.group g).hasTalkers = false) (idle : (s.group g).hangDeadline = none) {d : ChanId}
    (recorder : (s.group g).recorder = some d) (time : (s.group g).hangTime = 0) : hangStep g true s =
      (sessionEnd d .groupSilent s).modGroup g fun r => { r with recorder := none } := by
  simp [hangStep, startHang, silent, idle, recorder, time, endGroupSession]

end Sys2Proof.Machine

namespace Sys2Proof.Machine

variable {s : State} {g : GroupId}

/-! # An accepted GROUP_SET -/

/-! ## The recording step (R63) -/

theorem modGroup_same {f : GroupRec → GroupRec} (h : f (s.group g) = s.group g) : s.modGroup g f = s := by
  have rows : s.fc.groups.modify g f = s.fc.groups := Table.ext_get fun k => by
    rw [Table.get_modify]
    split
    · next e => subst e; exact h
    · rfl
  rw [State.modGroup, rows]

/-- The group has this recorder, and the Recorder Unit is this. -/
def groupRecorded (s : State) (g : GroupId) (ru : RecUnit) (recorder : Option ChanId) : State :=
  { s.modGroup g fun r => { r with recorder := recorder } with ru := ru }

theorem groupRecorded_same (s : State) (g : GroupId) : groupRecorded s g s.ru (s.group g).recorder = s := by
  unfold groupRecorded; rw [modGroup_same rfl]

@[simp] theorem groupRecorded_line (s : State) (g : GroupId) (ru : RecUnit) (recorder : Option ChanId) (l : LineId) :
    (groupRecorded s g ru recorder).line l = s.line l := rfl

theorem groupRecorded_group (s : State) (g h : GroupId) (ru : RecUnit) (recorder : Option ChanId) :
    (groupRecorded s g ru recorder).group h = if g = h then { s.group g with recorder := recorder } else s.group h :=
  modGroup_group ..

theorem posts_groupRecorded (s : State) (g : GroupId) (ru : RecUnit) (recorder : Option ChanId) :
    Posts [] s (groupRecorded s g ru recorder) := .of_eq rfl rfl fun _ => rfl

theorem allocateGroup_of_lowest {d : ChanId} (low : LowestFree s d) (ps : List PosId) :
    allocateGroup g ps s = some (groupRecorded s g (openSession d (.group g) ps s).ru (some d)) := by
  rw [allocateGroup, allocate_of_lowest low]; rfl

theorem allocateGroup_of_noneFree (none_ : NoneFree s) (ps : List PosId) : allocateGroup g ps s = none := by
  rw [allocateGroup, allocate_of_noneFree none_]; rfl

/-- Under its new configuration the group has talkers. -/
def WillTalk (members : PosSet) (hoots : List LineId) (r : GroupRec) : Prop :=
  hoots ≠ [] ∨ ∃ e ∈ r.holders ++ r.queue, inSet members e.pos = true

/-- A channel is asked for (R63). -/
def AsksChannel (members : PosSet) (hoots : List LineId) (policy : Policy) (r : GroupRec) : Prop :=
  r.recorder = none ∧ WillTalk members hoots r ∧
    ((r.holders = [] ∧ r.hootLines = [] ∧ policy ≠ .none) ∨ policy = .required)

theorem hasTalkers_eq_false {r : GroupRec} : r.hasTalkers = false ↔ r.holders = [] ∧ r.hootLines = [] := by
  simp [GroupRec.hasTalkers]

theorem willTalk_iff {members : PosSet} {hoots : List LineId} {r : GroupRec} :
    (!hoots.isEmpty || r.holders.any (fun e => inSet members e.pos) || r.queue.any fun e => inSet members e.pos) = true ↔
      WillTalk members hoots r := by
  simp [WillTalk, or_and_right, exists_or, or_assoc]

/-- The recording step, case by case (R63). -/
theorem recordingStep_eq (members : PosSet) (hoots : List LineId) (most : Nat) (policy : Policy)
    (open_ : (s.group g).recorder = none ∧ WillTalk members hoots (s.group g)) :
    recordingStep g members hoots most policy s =
      if (s.group g).hasTalkers = false then groupCheck g policy [] s
      else if policy = .required then groupCheck g .required (((s.group g).kept members most).map (·.pos)) s
      else some (s, .ok) := by
  unfold recordingStep
  dsimp only
  rw [if_neg]
  · rfl
  · rintro (has | silent)
    · simp [open_.1] at has
    · rw [willTalk_iff.2 open_.2] at silent
      cases silent

theorem recordingStep_of_settled {members : PosSet} {hoots : List LineId} {policy : Policy}
    (settled : ¬AsksChannel members hoots policy (s.group g)) (most : Nat) :
    recordingStep g members hoots most policy s = some (s, .ok) := by
  by_cases open_ : (s.group g).recorder = none ∧ WillTalk members hoots (s.group g)
  · rw [recordingStep_eq members hoots most policy open_]
    have not_required : policy ≠ .required := fun required => settled ⟨open_.1, open_.2, .inr required⟩
    split
    · next silent =>
      obtain ⟨holders, hootLines⟩ := hasTalkers_eq_false.1 silent
      have : policy = .none := by_contra fun other => settled ⟨open_.1, open_.2, .inl ⟨holders, hootLines, other⟩⟩
      rw [this]
      rfl
    · rfl
  · unfold recordingStep
    dsimp only
    rw [if_pos]
    by_cases none_ : (s.group g).recorder = none
    · exact .inr (Bool.eq_false_iff.2 fun talk => open_ ⟨none_, willTalk_iff.1 talk⟩)
    · exact .inl (Option.isSome_iff_ne_none.2 none_)

theorem kept_eq_nil {r : GroupRec} (holders : r.holders = []) (members : PosSet) (most : Nat) : r.kept members most = [] := by
  simp [GroupRec.kept, holders]

theorem recordingStep_of_lowest {members : PosSet} {hoots : List LineId} {policy : Policy}
    (asks : AsksChannel members hoots policy (s.group g)) {d : ChanId} (low : LowestFree s d) (most : Nat) :
    recordingStep g members hoots most policy s =
      some (groupRecorded s g (openSession d (.group g) (((s.group g).kept members most).map (·.pos)) s).ru (some d), .ok) := by
  obtain ⟨none_, talk, why⟩ := asks
  rw [recordingStep_eq members hoots most policy ⟨none_, talk⟩]
  split
  · next silent =>
    rw [kept_eq_nil (hasTalkers_eq_false.1 silent).1, List.map_nil]
    cases policy with
    | none => simp at why
    | optional => simp only [groupCheck, allocateGroup_of_lowest low]
    | required => simp only [groupCheck, allocateGroup_of_lowest low, Option.map_some]
  · next talks =>
    have required : policy = .required := why.resolve_left fun silent =>
      talks (hasTalkers_eq_false.2 ⟨silent.1, silent.2.1⟩)
    rw [if_pos required]
    simp only [groupCheck, allocateGroup_of_lowest low, Option.map_some]

theorem recordingStep_of_noneFree {members : PosSet} {hoots : List LineId} {policy : Policy}
    (asks : AsksChannel members hoots policy (s.group g)) (optional : policy ≠ .required) (none_ : NoneFree s) (most : Nat) :
    recordingStep g members hoots most policy s = some (s, .okUnrecorded) := by
  obtain ⟨noRecorder, talk, why⟩ := asks
  obtain ⟨holders, hootLines, recorded⟩ := why.resolve_right optional
  rw [recordingStep_eq members hoots most policy ⟨noRecorder, talk⟩, if_pos (hasTalkers_eq_false.2 ⟨holders, hootLines⟩)]
  cases policy with
  | none => exact absurd rfl recorded
  | optional => simp only [groupCheck, allocateGroup_of_noneFree none_]
  | required => exact absurd rfl optional

theorem exists_lowestFree (some_ : ¬NoneFree s) : ∃ d, LowestFree s d := by
  obtain ⟨c, free⟩ := not_forall_not.1 some_
  obtain ⟨d, lowest, least⟩ := wellFounded_lt.has_min {c : ChanId | (s.chan c).state = .free} ⟨c, free⟩
  exact ⟨d, lowest, fun e lt free => least e free lt⟩

/-! ## The steps after it (R60) -/

/-- A group's record under a new configuration. -/
def GroupRec.configured (c : GroupArgs) (hoots : List LineId) (policy : Policy) (r : GroupRec) : GroupRec :=
  { r with members := c.members, hootLines := hoots, maxTalkers := clampTalkers c.maxTalkers,
           queueTimeout := queueTimeoutFrames c.queueTimeout, talkLimit := talkLimitFrames c.talkLimit,
           policy := policy, hangTime := hangFrames c.hangTime }

/-- The steps of an accepted GROUP_SET up to the hang step. -/
def unhung (g : GroupId) (c : GroupArgs) (hoots : List LineId) (policy : Policy) (old : List LineId) (s : State) : State :=
  floorSettled g c.members (clampTalkers c.maxTalkers)
    (rebridged g old hoots (s.modGroup g (GroupRec.configured c hoots policy)))

theorem applyGroup_eq (c : GroupArgs) (hoots : List LineId) (policy : Policy) (old : GroupRec) (s : State) :
    applyGroup g c hoots policy old s = hangStep g old.recorder.isSome (unhung g c hoots policy old.hootLines s) := rfl

theorem groupSet_accepts {c : GroupArgs} {hoots : List LineId} {policy : Policy} {v : State} {st : Status}
    (args : hootArg c = some hoots) (once : hoots.Nodup) (pol : c.policy = policy.code) (ok : hootStatus g hoots s = none)
    (recording : recordingStep g c.members hoots (clampTalkers c.maxTalkers) policy s = some (v, st)) :
    groupSet (finByte g) c s = (applyGroup g c hoots policy (s.group g) v, st) := by
  simp only [groupSet, idArg_finByte_group, args, pol, policyArg_code, if_pos once, ok, recording]

theorem hootStatus_eq_none {hoots : List LineId} (ok : ∀ l ∈ hoots, (s.line l).type = .hoot ∧ (s.line l).state ≠ .outOfService ∧
    ((s.line l).state = .bridged → (s.line l).group = some g)) : hootStatus g hoots s = none := by
  have voice : hoots.any (fun l => (s.line l).type != .hoot) = false := by
    simpa using fun l hl => (ok l hl).1
  have taken : hoots.any (fun l => (s.line l).state == .bridged && (s.line l).group != some g) = false := by
    simpa using fun l hl => (ok l hl).2.2
  have out : hoots.any (fun l => (s.line l).state == .outOfService) = false := by
    simpa using fun l hl => (ok l hl).2.1
  simp [hootStatus, voice, taken, out]

/-- What the steps of an accepted GROUP_SET up to the hang step do, from the record `r` of the group on. -/
structure Unhung (g : GroupId) (c : GroupArgs) (hoots : List LineId) (r : GroupRec) (old : List LineId) (s t : State) :
    Prop where
  group : t.group g = r.settled c.members (clampTalkers c.maxTalkers) s
  others : OnlyGroup g s t
  line : ∀ m, t.line m =
    if m ∈ hootsComing old hoots then (s.line m).bridgedIn g
    else if m ∈ hootsLeaving old hoots then (s.line m).unbridged else s.line m
  events : Posts (((hootsLeaving old hoots).map (fun l => .lineState l .idle .unbridged) ++
    (hootsComing old hoots).map fun l => .lineState l .bridged .bridged) ++
    r.settledEvents g c.members (clampTalkers c.maxTalkers)) s t
  controls : AskedControls ((hootsLeaving old hoots ++ hootsComing old hoots).filter fun l => !(s.line l).ctlPending) s t
  ru : t.ru = ruTold r.recorder (((r.waiting c.members).take (r.granted c.members (clampTalkers c.maxTalkers))).map (·.pos)) s
  frame : t = { s with lc := { s.lc with lines := t.lc.lines }, fc := t.fc, ru := t.ru, cu := t.cu, pu := t.pu }

theorem floorSettled_frame (g : GroupId) (members : PosSet) (most : Nat) (s : State) :
    floorSettled g members most s = { s with
      fc := (floorSettled g members most s).fc
      ru := (floorSettled g members most s).ru
      cu := (floorSettled g members most s).cu
      pu := (floorSettled g members most s).pu } := by
  apply State.ext_parts <;> simp [floorSettled]

theorem unhung_unhung {c : GroupArgs} {hoots old : List LineId} {policy : Policy} (once_old : old.Nodup) (once : hoots.Nodup)
    (leaving : ∀ l ∈ hootsLeaving old hoots, (s.line l).type = .hoot ∧ (s.line l).state = .bridged)
    (coming : ∀ l ∈ hootsComing old hoots, (s.line l).type = .hoot ∧ (s.line l).state = .idle) :
    Unhung g c hoots ((s.group g).configured c hoots policy) old s (unhung g c hoots policy old s) := by
  have config := modGroup_floorStep s g (GroupRec.configured c hoots policy)
  have bridges := rebridged_rebridges (g := g) (s := s.modGroup g (GroupRec.configured c hoots policy)) once_old once leaving coming
  generalize eq : rebridged g old hoots (s.modGroup g (GroupRec.configured c hoots policy)) = v at bridges
  have group (h : GroupId) : v.group h = (s.modGroup g (GroupRec.configured c hoots policy)).group h := by
    rw [bridges.frame]; rfl
  have now : v.now = s.now := by rw [bridges.frame]; rfl
  have ru : v.ru = s.ru := by rw [bridges.frame]; rfl
  have settles := floorSettled_settles (s := v) (g := g) c.members (most := clampTalkers c.maxTalkers)
    (by rw [group, config.group]; rfl)
  have settled (r : GroupRec) : r.settled c.members (clampTalkers c.maxTalkers) v =
      r.settled c.members (clampTalkers c.maxTalkers) s := by
    rw [GroupRec.settled, GroupRec.settled, grantedEntry_congr now]
  obtain ⟨group', others, events, told⟩ := settles
  rw [group, config.group] at group' events told
  have frame := floorSettled_frame g c.members (clampTalkers c.maxTalkers) v
  rw [unhung, eq]
  refine ⟨by rw [group', settled], fun h hg => ?_, fun m => ?_, ?_, ?_, ?_, ?_⟩
  · rw [others h hg, group, config.others h hg]
  · rw [frame]; exact bridges.line m
  · exact (config.events.trans bridges.events).trans events
  · have floor := events.asks.controls fun l => by rw [frame]; rfl
    simpa using ((AskedControls.of_eq (s := s) (t := s.modGroup g (GroupRec.configured c hoots policy)) rfl).trans
      bridges.controls).trans floor
  · rw [told]; exact ruTold_congr ru _ _
  · rw [frame, bridges.frame]; rfl

/-! ## The whole command -/

/-- The recording step as the statement puts it: the recorder and the Recorder Unit after it, and the status. -/
theorem recordingStep_records {members : PosSet} {hoots : List LineId} {policy : Policy} {most : Nat}
    (may : AsksChannel members hoots policy (s.group g) → policy = .required → ¬NoneFree s) :
    ∃ ru recorder st, recordingStep g members hoots most policy s = some (groupRecorded s g ru recorder, st) ∧
      (st = .ok ∨ st = .okUnrecorded) ∧
      (st = .okUnrecorded ↔ AsksChannel members hoots policy (s.group g) ∧ NoneFree s) ∧
      (¬AsksChannel members hoots policy (s.group g) ∨ NoneFree s → recorder = (s.group g).recorder ∧ ru = s.ru) ∧
      ∀ d, AsksChannel members hoots policy (s.group g) → LowestFree s d →
        recorder = some d ∧ ru = (openSession d (.group g) (((s.group g).kept members most).map (·.pos)) s).ru := by
  by_cases asks : AsksChannel members hoots policy (s.group g)
  · by_cases full : NoneFree s
    · refine ⟨s.ru, (s.group g).recorder, .okUnrecorded, ?_, .inr rfl, by simp [asks, full], fun _ => ⟨rfl, rfl⟩,
        fun d _ low => absurd low.1 (full d)⟩
      rw [groupRecorded_same]
      exact recordingStep_of_noneFree asks (fun required => may asks required full) full most
    · obtain ⟨d, low⟩ := exists_lowestFree full
      refine ⟨_, _, .ok, recordingStep_of_lowest asks low most, .inl rfl, by simp [full],
        fun h => absurd h (by simp [asks, full]), fun e _ low' => ?_⟩
      obtain rfl : d = e := Option.some.inj ((freeChannel_of_lowest low).symm.trans (freeChannel_of_lowest low'))
      exact ⟨rfl, rfl⟩
  · refine ⟨s.ru, (s.group g).recorder, .ok, ?_, .inl rfl, by simp [asks], fun _ => ⟨rfl, rfl⟩, fun d h => absurd h asks⟩
    rw [groupRecorded_same]
    exact recordingStep_of_settled asks most

theorem hootLines_nodup (hoot : HootLaw s) (g : GroupId) : (s.group g).hootLines.Nodup :=
  (List.nodup_flatMap.1 hoot.once).1 g (List.mem_finRange g)

theorem leaving_bridged (lines : LineLaw s) (hoot : HootLaw s) (run : s.running = true) {hoots : List LineId} :
    ∀ l ∈ hootsLeaving (s.group g).hootLines hoots, (s.line l).type = .hoot ∧ (s.line l).state = .bridged := by
  intro l hl
  have listed := (List.mem_filter.1 hl).1
  exact ⟨hoot.type g l listed, (lines.bridged l).1 (by rw [hoot.listed run g l listed]; rfl)⟩

theorem coming_idle (hoot : HootLaw s) {hoots : List LineId} (ok : ∀ l ∈ hoots, (s.line l).type = .hoot ∧
      (s.line l).state ≠ .outOfService ∧ ((s.line l).state = .bridged → (s.line l).group = some g)) :
    ∀ l ∈ hootsComing (s.group g).hootLines hoots, (s.line l).type = .hoot ∧ (s.line l).state = .idle := by
  intro l hl
  obtain ⟨mem, new⟩ := List.mem_filter.1 hl
  obtain ⟨type, service, there⟩ := ok l mem
  refine ⟨type, ((hoot.calls l type).resolve_left service).resolve_right fun bridged => ?_⟩
  exact absurd (hoot.bridged g l (there bridged)) (by simpa using new)

/-- The end of a group's session takes its recorder (R65). -/
theorem endGroupSession_group (s : State) (g h : GroupId) (cause : SessionCause) : (endGroupSession g cause s).group h =
    if g = h then { s.group g with recorder := none } else s.group h := by
  unfold endGroupSession
  split
  · next none_ => split <;> simp_all [← none_]
  · simp [modGroup_group]

theorem endGroupSession_ru (s : State) (g : GroupId) (cause : SessionCause) :
    (endGroupSession g cause s).ru = ruAfterEnd s (s.group g).recorder cause := by
  unfold endGroupSession ruAfterEnd
  split <;> simp_all

/-- The hang step changes nothing but the recorder and the hang deadline of its group. -/
theorem hangStep_group (recorded : Bool) (s : State) (g h : GroupId) : (hangStep g recorded s).group h =
    if g = h then { s.group g with
      recorder := ((hangStep g recorded s).group g).recorder
      hangDeadline := ((hangStep g recorded s).group g).hangDeadline }
    else s.group h := by
  unfold hangStep startHang
  by_cases same : g = h
  · subst same
    rw [if_pos rfl]
    dsimp only
    split_ifs <;> simp [endGroupSession_group]
  · rw [if_neg same]
    dsimp only
    split_ifs <;> simp [modGroup_group, endGroupSession_group, same]

theorem bridgedIn_of_idle {r : LineRec} (idle : r.state = .idle) (g : GroupId) :
    r.bridgedIn g = { r with state := .bridged, group := some g, ctlPending := true } := by
  simp [LineRec.bridgedIn, LineRec.entered, nearEndMoves, idle, LineState.nearEnd]

theorem unbridged_of_bridged {r : LineRec} (bridged : r.state = .bridged) :
    r.unbridged = { r with state := .idle, group := none, ctlPending := true } := by
  simp [LineRec.unbridged, LineRec.entered, nearEndMoves, bridged, LineState.nearEnd]

theorem hangStep_of_talk {x : State} {r : GroupRec} {members : PosSet} {most : Nat} (group : x.group g = r.settled members most s)
    (pos : 0 < most) (talk : r.hootLines ≠ [] ∨ ∃ e ∈ r.holders ++ r.queue, inSet members e.pos = true) (recorded : Bool) :
    ((hangStep g recorded x).group g).recorder = r.recorder ∧ ((hangStep g recorded x).group g).hangDeadline = none ∧
      (hangStep g recorded x).ru = x.ru := by
  rw [hangStep_talks recorded (by rw [group]; exact (settled_hasTalkers members pos s r).2 talk), modGroup_group_self, group]
  exact ⟨rfl, rfl, rfl⟩

/-- A group without talkers keeps its hang and its recorder up to the hang step. -/
theorem settled_of_silent {r : GroupRec} {members : PosSet} (silent : ¬∃ e ∈ r.holders ++ r.queue, inSet members e.pos = true)
    (most : Nat) (s : State) : (r.settled members most s).hangDeadline = r.hangDeadline := by
  simp [GroupRec.settled, granted_eq_zero silent]

/-- Settles O33: the laws tell which lines are bridged and unbridged; the floor's three steps are `Settles`, and the hang step
turns on whether the group talks under its new configuration. -/
theorem groupSetApplies : Obligations.GroupSetApplies := by
  intro g a hoots policy s c r stays most kept waiting n old new willTalk fresh told lines hoot holds args once pol ok may
  have run : s.running = true := (holds_iff.1 holds).1
  have pos : 0 < most := by simp only [most]; omega
  obtain ⟨ru, recorder, st, recording, status, unrecorded, same, given⟩ := recordingStep_records (most := most) may
  have act := groupSet_accepts args once pol (hootStatus_eq_none ok) recording
  rw [applyGroup_eq] at act
  have leaving := leaving_bridged (g := g) lines hoot run (hoots := hoots)
  have coming := coming_idle hoot ok
  obtain ⟨group, others, line, events, controls, told_ru, frame⟩ :=
    unhung_unhung (s := groupRecorded s g ru recorder) (c := a) (policy := policy) (hootLines_nodup hoot g) once leaving coming
  rw [groupRecorded_group, if_pos rfl] at group events told_ru
  generalize hx : unhung g a hoots policy (s.group g).hootLines (groupRecorded s g ru recorder) = x at *
  generalize hR : GroupRec.configured a hoots policy { s.group g with recorder := recorder } = R at *
  have R_recorder : R.recorder = recorder := by rw [← hR]; rfl
  have R_hang : R.hangDeadline = r.hangDeadline := by rw [← hR]; rfl
  have R_talk : (R.hootLines ≠ [] ∨ ∃ e ∈ R.holders ++ R.queue, inSet a.members e.pos = true) ↔ willTalk := by rw [← hR]; rfl
  have y_group := hangStep_group r.recorder.isSome x g
  have y_talk (talk : willTalk) := hangStep_of_talk group pos (R_talk.2 talk) r.recorder.isSome
  have told_eq (d : ChanId) (u : State) : told d u = ruTold (some d) ((waiting.take n).map (·.pos)) u := by
    simp only [told, ruTold, Option.elim_some, List.foldl_map]
  have x_ru {d : ChanId} {u : State} (hd : recorder = some d) (hu : u.ru = ru) : x.ru = told d u := by
    rw [told_eq, told_ru, R_recorder, hd, ← hR]
    exact (ruTold_congr hu _ _).symm
  have x_silent (silent : ¬willTalk) : (x.group g).hasTalkers = false ∧ (x.group g).hangDeadline = r.hangDeadline ∧
      (x.group g).recorder = r.recorder ∧ x.ru = s.ru ∧ (x.group g).hangTime = 1000 * min a.hangTime.toNat 60 := by
    have no_one : ¬∃ e ∈ R.holders ++ R.queue, inSet a.members e.pos = true := fun e => silent (R_talk.1 (.inr e))
    obtain ⟨same_recorder, same_ru⟩ := same (.inl fun asks => silent asks.2.1)
    rw [group]
    refine ⟨Bool.eq_false_iff.2 fun talk => silent (R_talk.1 ((settled_hasTalkers a.members pos _ R).1 talk)),
      (settled_of_silent no_one _ _).trans R_hang, R_recorder.trans same_recorder, ?_, ?_⟩
    · rw [told_ru, granted_eq_zero no_one, List.take_zero, List.map_nil, ruTold_nil]
      exact same_ru
    · rw [← hR]; rfl
  refine ⟨complete st (hangStep g r.recorder.isSome x), st, runCommand_next holds act, unrecorded, status, ?_, fun h hg => ?_,
    fun d asks low => ?_, fun d u asks alloc => ?_, fun d recorded talk => ?_, fun none_ settled => ?_, fun talk => ?_,
    fun silent none_ => ?_, fun d silent recorded => ⟨fun hang => ?_, fun idle time => ?_, fun idle time => ?_⟩, fun l => ?_, ?_,
    ?_, ?_⟩
  · rw [complete_group, y_group, if_pos rfl, group, ← hR]
    exact ⟨rfl, rfl, rfl, rfl, rfl, rfl, rfl, rfl, rfl⟩
  · rw [complete_group, hangStep_group, if_neg (Ne.symm hg), others h hg, groupRecorded_group, if_neg (Ne.symm hg)]
  · rw [complete_group, (y_talk asks.2.1).1, R_recorder, (given d asks low).1]
  · obtain ⟨e, low⟩ := exists_lowestFree fun none_ => by rw [allocate_of_noneFree none_] at alloc; cases alloc
    rw [allocate_of_lowest low] at alloc
    obtain ⟨rfl, rfl⟩ := Prod.mk.inj (Option.some.inj alloc)
    obtain ⟨rec_eq, ru_eq⟩ := given e asks low
    rw [complete_group, complete_ru, (y_talk asks.2.1).1, (y_talk asks.2.1).2.2, R_recorder]
    exact ⟨rec_eq, x_ru rec_eq ru_eq.symm⟩
  · obtain ⟨rec_eq, ru_eq⟩ := same (.inl fun asks => Option.some_ne_none d (recorded.symm.trans asks.1))
    rw [complete_group, complete_ru, (y_talk talk).1, (y_talk talk).2.2, R_recorder]
    exact ⟨rec_eq.trans recorded, x_ru (rec_eq.trans recorded) ru_eq.symm⟩
  · obtain ⟨rec_eq, ru_eq⟩ := same settled
    rw [complete_group, complete_ru]
    by_cases talk : willTalk
    · rw [(y_talk talk).1, (y_talk talk).2.2, told_ru, R_recorder, rec_eq]
      exact ⟨none_, by rw [none_]; exact ru_eq⟩
    · obtain ⟨quiet, -, kept_rec, kept_ru, -⟩ := x_silent talk
      rw [hangStep_keeps quiet (.inl (by simp [none_]))]
      exact ⟨kept_rec.trans none_, kept_ru⟩
  · exact (y_talk talk).2.1
  · obtain ⟨quiet, kept_hang, -⟩ := x_silent silent
    rw [complete_group, hangStep_keeps quiet (.inl (by simp [none_]))]
    exact kept_hang
  · obtain ⟨quiet, kept_hang, kept_rec, kept_ru, -⟩ := x_silent silent
    rw [complete_group, complete_ru, hangStep_keeps quiet (.inr (kept_hang ▸ hang))]
    exact ⟨kept_rec.trans recorded, kept_hang, kept_ru⟩
  · obtain ⟨quiet, kept_hang, kept_rec, kept_ru, hang_time⟩ := x_silent silent
    have starts := hangStep_starts quiet (kept_hang.trans idle) (kept_rec.trans recorded) (by rw [hang_time]; omega)
    rw [complete_group, complete_ru, recorded, Option.isSome_some, starts, modGroup_group_self]
    refine ⟨kept_rec.trans recorded, kept_ru, ?_⟩
    rw [hang_time, frame]; rfl
  · obtain ⟨quiet, kept_hang, kept_rec, kept_ru, hang_time⟩ := x_silent silent
    have ends := hangStep_ends quiet (kept_hang.trans idle) (kept_rec.trans recorded) (by simp [hang_time, time])
    rw [complete_group, complete_ru, recorded, Option.isSome_some, ends, modGroup_group_self, sessionEnd_group]
    exact ⟨rfl, kept_hang.trans idle, sessionEnd_ru_congr kept_ru (by rw [frame]; rfl) d _⟩
  · rw [complete_line, hangStep_line, line]
    change (if l ∈ new then (s.line l).bridgedIn g else if l ∈ old then (s.line l).unbridged else s.line l) = _
    split
    · next h => exact bridgedIn_of_idle (coming l h).2 g
    · split
      · next h => exact unbridged_of_bridged (leaving l h).2
      · rfl
  · have quiet : Posts [] x (hangStep g r.recorder.isSome x) := .of_eq (by simp) (by simp) fun l => by simp
    have all := (((posts_groupRecorded s g ru recorder).trans events).trans quiet).answers st
    rw [← hR] at all
    simp only [GroupRec.settledEvents, List.nil_append, List.append_nil, List.append_assoc] at all ⊢
    exact all
  · have quiet : AskedControls [] x (complete st (hangStep g r.recorder.isSome x)) :=
      (AskedControls.of_eq (by simp)).trans ((asks_complete _ st).controls fun l => by simp)
    have all := controls.trans quiet
    rw [List.append_nil] at all
    exact all.drop
  · apply State.ext_parts
    case lc => rw [complete_lc, hangStep_lc, frame]; rfl
    all_goals simp
    all_goals rw [frame]; rfl

end Sys2Proof.Machine

namespace Sys2Proof.Machine

variable {s t : State} {g : GroupId}

/-! # Entry into RUNNING: the hoot lines of all groups (R47) -/

/-- A group with hoot lines is given a channel, if its policy asks for one and one is FREE. -/
def hootRecorded (g : GroupId) (s : State) : State := ((groupCheck g (s.group g).policy [] s).map (·.1)).getD s

def bridgeHoots (g : GroupId) (ls : List LineId) (s : State) : State := ls.foldl (fun s l => bridge g l s) s

theorem bridgeGroup_eq (g : GroupId) (s : State) : bridgeGroup g s =
    if (s.group g).hootLines = [] then s else bridgeHoots g (s.group g).hootLines (hootRecorded g s) := by
  unfold bridgeGroup hootRecorded
  dsimp only
  cases groupCheck g (s.group g).policy [] s <;> rfl

theorem hootRecorded_of_none (policy : (s.group g).policy = .none) : hootRecorded g s = s := by
  simp [hootRecorded, groupCheck, policy]

theorem hootRecorded_of_lowest (policy : (s.group g).policy ≠ .none) {d : ChanId} (low : LowestFree s d) :
    hootRecorded g s = groupRecorded s g (openSession d (.group g) [] s).ru (some d) := by
  unfold hootRecorded
  cases kind : (s.group g).policy with
  | none => exact absurd kind policy
  | optional => simp [groupCheck, allocateGroup_of_lowest low]
  | required => simp [groupCheck, allocateGroup_of_lowest low]

theorem hootRecorded_of_noneFree (none_ : NoneFree s) : hootRecorded g s = s := by
  unfold hootRecorded
  cases (s.group g).policy <;> simp [groupCheck, allocateGroup_of_noneFree none_]

/-- The recording at entry gives the group a recorder, or does nothing; the counters of the Recording Log stay. -/
theorem hootRecorded_recorded (g : GroupId) (s : State) : ∃ ru recorder, hootRecorded g s = groupRecorded s g ru recorder ∧
    ru.produced = s.ru.produced ∧ ru.consumed = s.ru.consumed ∧ ru.frameNo = s.ru.frameNo := by
  have idle : hootRecorded g s = s → ∃ ru recorder, hootRecorded g s = groupRecorded s g ru recorder ∧
      ru.produced = s.ru.produced ∧ ru.consumed = s.ru.consumed ∧ ru.frameNo = s.ru.frameNo := fun eq =>
    ⟨s.ru, (s.group g).recorder, eq.trans (groupRecorded_same s g).symm, rfl, rfl, rfl⟩
  by_cases policy : (s.group g).policy = .none
  · exact idle (hootRecorded_of_none policy)
  · by_cases full : NoneFree s
    · exact idle (hootRecorded_of_noneFree full)
    · obtain ⟨d, low⟩ := exists_lowestFree full
      exact ⟨_, _, hootRecorded_of_lowest policy low, rfl, rfl, rfl⟩

/-- The hoot lines of some groups have been bridged, each in the group that lists it. -/
structure HootsBridged (gs : List GroupId) (s t : State) : Prop where
  listed : ∀ g ∈ gs, ∀ l ∈ (s.group g).hootLines, t.line l = (s.line l).bridgedIn g
  unlisted : ∀ l, (∀ g ∈ gs, l ∉ (s.group g).hootLines) → t.line l = s.line l
  hoots : ∀ g, (t.group g).hootLines = (s.group g).hootLines
  events : Posts (gs.flatMap fun g => (s.group g).hootLines.map fun l => .lineState l .bridged .bridged) s t
  log : t.ru.produced = s.ru.produced ∧ t.ru.consumed = s.ru.consumed ∧ t.ru.frameNo = s.ru.frameNo
  frame : t = { s with lc := { s.lc with lines := t.lc.lines }, fc := t.fc, ru := t.ru, cu := t.cu, pu := t.pu }

theorem bridgeGroup_bridges (once : (s.group g).hootLines.Nodup)
    (ok : ∀ l ∈ (s.group g).hootLines, (s.line l).type = .hoot ∧ (s.line l).state = .idle) :
    HootsBridged [g] s (bridgeGroup g s) := by
  rw [bridgeGroup_eq]
  split
  · next none_ => exact ⟨by simp [none_], fun _ _ => rfl, fun _ => rfl, by simpa [none_] using Posts.refl s, ⟨rfl, rfl, rfl⟩, rfl⟩
  · obtain ⟨ru, recorder, eq, log⟩ := hootRecorded_recorded g s
    rw [eq]
    have switched := switched_foldl (ok := fun r => r.type = .hoot ∧ r.state = .idle) (bridge_switches g)
      (s.group g).hootLines (groupRecorded s g ru recorder) once ok
    generalize hv : bridgeHoots g (s.group g).hootLines (groupRecorded s g ru recorder) = v
    rw [bridgeHoots] at hv
    rw [hv] at switched
    obtain ⟨line, events, -, frame⟩ := switched
    refine ⟨fun h hh l hl => ?_, fun l hl => ?_, fun h => ?_, ?_, ?_, ?_⟩
    · obtain rfl := List.mem_singleton.1 hh
      rw [line, if_pos hl, groupRecorded_line]
    · rw [line, if_neg (hl g (List.mem_singleton_self g)), groupRecorded_line]
    · have : v.group h = (groupRecorded s g ru recorder).group h := by rw [frame]; rfl
      rw [this, groupRecorded_group]
      split
      · next e => subst e; rfl
      · rfl
    · simpa using (posts_groupRecorded s g ru recorder).trans events
    · rw [frame]; exact log
    · rw [frame]; rfl

theorem bridgeGroups_bridges : ∀ (gs : List GroupId) (s : State), gs.Nodup → (gs.flatMap fun g => (s.group g).hootLines).Nodup →
    (∀ g ∈ gs, ∀ l ∈ (s.group g).hootLines, (s.line l).type = .hoot ∧ (s.line l).state = .idle) →
    HootsBridged gs s (gs.foldl (fun s g => bridgeGroup g s) s)
  | [], s, _, _, _ => ⟨by simp, fun _ _ => rfl, fun _ => rfl, .refl s, ⟨rfl, rfl, rfl⟩, rfl⟩
  | g :: gs, s, nodup, once, ok => by
    obtain ⟨fresh, nodup⟩ := List.nodup_cons.1 nodup
    rw [List.flatMap_cons, List.nodup_append] at once
    obtain ⟨once_g, once_gs, apart⟩ := once
    have first := bridgeGroup_bridges (g := g) once_g (ok g (List.mem_cons_self ..))
    have kept (h : GroupId) (hh : h ∈ gs) (l : LineId) (hl : l ∈ (s.group h).hootLines) : (bridgeGroup g s).line l = s.line l :=
      first.unlisted l fun k hk mem => by
        obtain rfl := List.mem_singleton.1 hk
        exact apart l mem l (List.mem_flatMap.2 ⟨h, hh, hl⟩) rfl
    have same : (fun h => ((bridgeGroup g s).group h).hootLines) = fun h => (s.group h).hootLines := funext first.hoots
    have rest := bridgeGroups_bridges gs (bridgeGroup g s) nodup (by rw [same]; exact once_gs) fun h hh l hl => by
      rw [first.hoots] at hl
      rw [kept h hh l hl]
      exact ok h (List.mem_cons_of_mem _ hh) l hl
    rw [List.foldl_cons]
    refine ⟨fun h hh l hl => ?_, fun l hl => ?_, fun h => (rest.hoots h).trans (first.hoots h), ?_, ?_, ?_⟩
    · rcases List.mem_cons.1 hh with rfl | hh
      · rw [rest.unlisted l fun k hk mem => ?_, first.listed h (List.mem_singleton_self h) l hl]
        rw [first.hoots] at mem
        exact apart l hl l (List.mem_flatMap.2 ⟨k, hk, mem⟩) rfl
      · rw [rest.listed h hh l (by rwa [first.hoots]), kept h hh l hl]
    · rw [rest.unlisted l fun k hk => by rw [first.hoots]; exact hl k (List.mem_cons_of_mem _ hk),
        first.unlisted l fun k hk => hl k (by simp_all)]
    · have := first.events.trans rest.events
      simpa [first.hoots] using this
    · exact ⟨rest.log.1.trans first.log.1, rest.log.2.1.trans first.log.2.1, rest.log.2.2.trans first.log.2.2⟩
    · rw [rest.frame, first.frame]

/-! ## The recorder channels of the groups -/

@[simp] theorem bridgeHoots_fc (g : GroupId) (ls : List LineId) (s : State) : (bridgeHoots g ls s).fc = s.fc :=
  foldl_keeps (·.fc) _ (fun s l => bridge_fc s g l) ls s
@[simp] theorem bridgeHoots_ru (g : GroupId) (ls : List LineId) (s : State) : (bridgeHoots g ls s).ru = s.ru :=
  foldl_keeps (·.ru) _ (fun s l => bridge_ru s g l) ls s
@[simp] theorem bridgeHoots_ft (g : GroupId) (ls : List LineId) (s : State) : (bridgeHoots g ls s).ft = s.ft :=
  foldl_keeps (·.ft) _ (fun s l => bridge_ft s g l) ls s

/-- The group has hoot lines and a policy that asks for a channel. -/
def recordedHoots (s : State) (g : GroupId) : Bool := !(s.group g).hootLines.isEmpty && (s.group g).policy != .none

/-- The parts of the state that tell which group records on which channel. -/
def SameRecording (s t : State) : Prop := t.fc = s.fc ∧ t.ru = s.ru ∧ t.ft = s.ft

theorem bridgeGroup_of_unrecorded (h : recordedHoots s g = false) : SameRecording s (bridgeGroup g s) := by
  rw [bridgeGroup_eq]
  split
  · exact ⟨rfl, rfl, rfl⟩
  · next hoots =>
    have policy : (s.group g).policy = .none := by simpa [recordedHoots, hoots] using h
    rw [hootRecorded_of_none policy]
    exact ⟨bridgeHoots_fc .., bridgeHoots_ru .., bridgeHoots_ft ..⟩

theorem bridgeGroup_of_recorded (h : recordedHoots s g = true) {c : ChanId} (low : LowestFree s c) :
    SameRecording (groupRecorded s g (openSession c (.group g) [] s).ru (some c)) (bridgeGroup g s) := by
  obtain ⟨hoots, policy⟩ : (s.group g).hootLines ≠ [] ∧ (s.group g).policy ≠ .none := by simpa [recordedHoots] using h
  rw [bridgeGroup_eq, if_neg hoots, hootRecorded_of_lowest policy low]
  exact ⟨bridgeHoots_fc .., bridgeHoots_ru .., bridgeHoots_ft ..⟩

/-- The group records on a channel in a session opened at the entry, in which no position has taken part. -/
structure RecordsOn (s : State) (g : GroupId) (c : ChanId) (t : State) : Prop where
  group : t.group g = { s.group g with recorder := some c }
  active : (t.chan c).state = .active
  subject : (t.chan c).subject = some (.group g)
  session : ∃ x : Session, (t.chan c).session = some x ∧ x.subject = .group g ∧ x.channel = c ∧ x.previous = none ∧
    x.parties = [] ∧ x.startFrame = s.ru.frameNo ∧ x.startTime = s.ft.floor

/-- Of the groups `gs`, in number order, those that record have been given the first channels, in this order. -/
structure ChannelsGiven (gs : List GroupId) (s t : State) : Prop where
  rest : ∀ g, ¬(g ∈ gs ∧ recordedHoots s g = true) → t.group g = s.group g
  given : ∀ g ∈ gs, recordedHoots s g = true →
    ∃ c, c.val = (gs.filter fun h => decide (h < g) && recordedHoots s h).length ∧ RecordsOn s g c t
  free : ∀ c, (t.chan c).state = .free ↔ (gs.filter (recordedHoots s)).length ≤ c.val
  clock : t.ru.frameNo = s.ru.frameNo ∧ t.ft = s.ft

theorem openSession_chan (s : State) (c d : ChanId) (x : Subject) (ps : List PosId) : (openSession c x ps s).chan d =
    if c = d then ((openSession c x ps s).chan c) else s.chan d := by
  split
  · next e => rw [e]
  · next e => exact (modChan_chan s c d _).trans (if_neg e)

/-- The next group in number order. -/
theorem ChannelsGiven.step {gs : List GroupId} (h : ChannelsGiven gs s t) (later : ∀ k ∈ gs, k < g) (room : gs.length < 32) :
    ChannelsGiven (gs ++ [g]) s (bridgeGroup g t) := by
  have fresh : g ∉ gs := fun mem => lt_irrefl g (later g mem)
  have same_g : t.group g = s.group g := h.rest g fun x => fresh x.1
  have recorded_g : recordedHoots t g = recordedHoots s g := by simp [recordedHoots, same_g]
  have index {k : GroupId} (hk : k ∈ gs) : ((gs ++ [g]).filter fun h => decide (h < k) && recordedHoots s h) =
      gs.filter fun h => decide (h < k) && recordedHoots s h := by
    simp [List.filter_append, not_lt.2 (later k hk).le]
  cases rec_ : recordedHoots s g with
  | false =>
    obtain ⟨fc, ru, ft⟩ := bridgeGroup_of_unrecorded (recorded_g.trans rec_)
    have group (k : GroupId) : (bridgeGroup g t).group k = t.group k := by simp only [State.group, fc]
    have chan (c : ChanId) : (bridgeGroup g t).chan c = t.chan c := by simp only [State.chan, ru]
    refine ⟨fun k hk => (group k).trans (h.rest k fun x => hk ⟨List.mem_append_left _ x.1, x.2⟩), fun k hk rec_k => ?_,
      fun c => ?_, by rw [ru]; exact h.clock.1, ft.trans h.clock.2⟩
    · have mem : k ∈ gs := (List.mem_append.1 hk).resolve_right fun x => by
        rw [List.mem_singleton.1 x, rec_] at rec_k; cases rec_k
      obtain ⟨c, at_, on⟩ := h.given k mem rec_k
      exact ⟨c, by rw [index mem]; exact at_, (group k).trans on.group, by rw [chan]; exact on.active,
        by rw [chan]; exact on.subject, by rw [chan]; exact on.session⟩
    · rw [chan, h.free c]
      simp [List.filter_append, rec_]
  | true =>
    have few : (gs.filter (recordedHoots s)).length < 32 := lt_of_le_of_lt (List.length_filter_le ..) room
    have low : LowestFree t ⟨(gs.filter (recordedHoots s)).length, few⟩ :=
      ⟨(h.free _).2 le_rfl, fun d lt free => absurd ((h.free d).1 free) (not_le.2 lt)⟩
    obtain ⟨fc, ru, ft⟩ := bridgeGroup_of_recorded (recorded_g.trans rec_) low
    generalize hc : (⟨(gs.filter (recordedHoots s)).length, few⟩ : ChanId) = c at low fc ru ft
    have group (k : GroupId) : (bridgeGroup g t).group k = if g = k then { s.group g with recorder := some c } else t.group k := by
      have same : (bridgeGroup g t).group k = (groupRecorded t g (openSession c (.group g) [] t).ru (some c)).group k := by
        simp only [State.group, fc]
      rw [same, groupRecorded_group, same_g]
    have chan (d : ChanId) : (bridgeGroup g t).chan d =
        if c = d then (openSession c (.group g) [] t).chan c else t.chan d := by
      rw [← openSession_chan]
      simp only [State.chan, ru]
      rfl
    have opened : (openSession c (.group g) [] t).chan c = { t.chan c with
        state := .active, subject := some (.group g), overflowing := false, segPending := false
        current := (t.chan c).startBuf, session := some (newSession t c (.group g) none [])
        closeRecord := none, closeDone := false, frameSeen := false, placed := none } := modChan_chan_self ..
    refine ⟨fun k hk => ?_, fun k hk rec_k => ?_, fun d => ?_, by rw [ru]; exact h.clock.1, ft.trans h.clock.2⟩
    · have other : g ≠ k := fun e => hk ⟨by simp [e], e ▸ rec_⟩
      rw [group, if_neg other]
      exact h.rest k fun x => hk ⟨List.mem_append_left _ x.1, x.2⟩
    · rcases List.mem_append.1 hk with mem | mem
      · obtain ⟨d, at_, on⟩ := h.given k mem rec_k
        have other : c ≠ d := fun e => by have := low.1; rw [e, on.active] at this; cases this
        refine ⟨d, by rw [index mem]; exact at_, ?_, ?_, ?_, ?_⟩
        · rw [group, if_neg fun e => fresh (by rw [e]; exact mem), on.group]
        all_goals rw [chan, if_neg other]
        exacts [on.active, on.subject, on.session]
      · obtain rfl := List.mem_singleton.1 mem
        refine ⟨c, ?_, by rw [group, if_pos rfl], ?_, ?_, ?_⟩
        · rw [← hc, List.filter_append]
          have all : gs.filter (fun h => decide (h < k) && recordedHoots s h) = gs.filter (recordedHoots s) :=
            List.filter_congr fun m hm => by simp [later m hm]
          simp [all]
        all_goals rw [chan, if_pos rfl, opened]
        refine ⟨_, rfl, rfl, rfl, rfl, rfl, h.clock.1, ?_⟩
        simp [newSession, h.clock.2]
    · rw [chan, List.filter_append, List.length_append]
      have one : ([g].filter (recordedHoots s)).length = 1 := by simp [rec_]
      rw [one]
      split
      · next e =>
        subst e
        rw [opened, ← hc]
        simp
      · next e =>
        have : d.val ≠ c.val := fun x => e (Fin.ext x.symm)
        rw [h.free d]
        rw [← hc] at this
        simp only at this
        omega

/-- All groups, in number order, where every channel is FREE. -/
theorem bridgeGroups_channels (s t : State) (gs : List GroupId) : ∀ pre : List GroupId, (pre ++ gs).Pairwise (· < ·) →
    (pre ++ gs).length ≤ 32 → ChannelsGiven pre s t →
    ChannelsGiven (pre ++ gs) s (gs.foldl (fun s g => bridgeGroup g s) t) := by
  induction gs generalizing t with
  | nil => intro pre _ _ h; simpa using h
  | cons g gs ih =>
    intro pre sorted room h
    have split_ : pre ++ g :: gs = (pre ++ [g]) ++ gs := by simp
    rw [split_] at sorted room ⊢
    have later : ∀ k ∈ pre, k < g := fun k hk =>
      (List.pairwise_append.1 (List.pairwise_append.1 sorted).1).2.2 k hk g (List.mem_singleton_self g)
    exact ih (bridgeGroup g t) (pre ++ [g]) sorted room (h.step later (by simp at room; omega))

theorem channelsGiven_nil (free : ∀ c, (s.chan c).state = .free) : ChannelsGiven [] s s :=
  ⟨fun _ _ => rfl, by simp, fun c => by simp [free c], rfl, rfl⟩

theorem bridgeGroups_given (free : ∀ c, (s.chan c).state = .free) :
    ChannelsGiven (List.finRange 16) s (bridgeGroups s) :=
  bridgeGroups_channels s s (List.finRange 16) [] (List.pairwise_lt_finRange 16) (by simp) (channelsGiven_nil free)

end Sys2Proof.Machine

namespace Sys2Proof.Machine

variable {s t u : State}

/-! # The END section (R180) -/

/-! ## Every line's control write is marked (R8) -/

theorem posts_markControls (ls : List LineId) : ∀ s : State, Posts [] s (ls.foldl (fun s l => markControl l s) s) := by
  induction ls with
  | nil => exact .refl
  | cons l ls ih => exact fun s => (posts_markControl s l).trans (ih _)

theorem markControls_line (ls : List LineId) (m : LineId) : ∀ s : State, (ls.foldl (fun s l => markControl l s) s).line m =
    if m ∈ ls then { s.line m with ctlPending := true } else s.line m := by
  induction ls with
  | nil => simp
  | cons l ls ih =>
    intro s
    rw [List.foldl_cons, ih, markControl_line]
    by_cases h : l = m
    · subst h; simp
    · simp [h, Ne.symm h]

theorem markLines_line (s : State) (m : LineId) : (markLines s).line m = { s.line m with ctlPending := true } := by
  rw [markLines, markControls_line, if_pos (List.mem_finRange m)]

theorem markControl_frame (l : LineId) (s : State) :
    markControl l s = { s with lc := { s.lc with lines := (markControl l s).lc.lines }, pu := (markControl l s).pu } := by
  unfold markControl; split <;> rfl

theorem markControls_frame (ls : List LineId) : ∀ s : State, ls.foldl (fun s l => markControl l s) s = { s with
    lc := { s.lc with lines := (ls.foldl (fun s l => markControl l s) s).lc.lines }
    pu := (ls.foldl (fun s l => markControl l s) s).pu } := by
  induction ls with
  | nil => exact fun _ => rfl
  | cons l ls ih => exact fun s => (ih (markControl l s)).trans (by rw [List.foldl_cons, markControl_frame l s])

theorem markLines_frame (s : State) :
    markLines s = { s with lc := { s.lc with lines := (markLines s).lc.lines }, pu := (markLines s).pu } := by
  unfold markLines
  generalize List.finRange 96 = ls
  exact markControls_frame ls s

/-! ## Own accesses asked for stay asked for -/

/-- Of the path unit only own accesses were asked for. -/
def Asked (s t : State) : Prop := ∃ more : List OwnAccess, t.pu = { s.pu with own := s.pu.own ++ more }

theorem Asked.mem (h : Asked s t) {a : OwnAccess} (ha : a ∈ s.pu.own) : a ∈ t.pu.own := by
  obtain ⟨more, pu⟩ := h
  rw [pu]
  exact List.mem_append_left _ ha

theorem Posts.asked {es : List Event} (h : Posts es s t) : Asked s t := by
  obtain ⟨more, -, pu, -⟩ := h.asks.own
  exact ⟨more, pu⟩

theorem Asked.trans (h : Asked s t) (k : Asked t u) : Asked s u := by
  obtain ⟨more, pu⟩ := h
  obtain ⟨more', pu'⟩ := k
  exact ⟨more ++ more', by rw [pu', pu]; simp⟩

theorem asked_requestOwn (p : Purpose) (a : Addr) (d : List Byte) (s : State) : Asked s (requestOwn p a d s) :=
  ⟨_, requestOwn_pu s p a d⟩

/-- A write that is asked for waits behind nothing. -/
theorem mem_requestOwn {p : Purpose} (write : p.isRead = false) (a : Addr) (d : List Byte) (s : State) :
    ⟨p, a, d, 0⟩ ∈ (requestOwn p a d s).pu.own := by
  simp [requestOwn, write]

/-- A line that was not marked has its control word asked for once it is. -/
theorem Asks.mem_control {writes : List OwnAccess} (h : Asks writes s t) {l : LineId} (off : (s.line l).ctlPending = false)
    (on : (t.line l).ctlPending = true) : controlWrite s l ∈ t.pu.own := by
  obtain ⟨⟨more, marked, pu, -, controls, -, mem⟩, -⟩ := h
  have : controlWrite s l ∈ more.filter fun a => a.purpose.kind == .lineControl := by
    rw [controls]
    exact List.mem_map_of_mem ((mem l).2 ⟨off, on⟩)
  rw [pu]
  exact List.mem_append_right _ (List.mem_filter.1 this).1

/-! ## Events leave the command side of the unit alone -/

theorem afterEvents_keeps {β : Type} (get : CmdUnit → β) (h : ∀ (c : CmdUnit) keep e, get (c.takeEvent keep e).unit = get c)
    (es : List Event) : ∀ c : CmdUnit, get (c.afterEvents es) = get c := by
  induction es with
  | nil => exact fun _ => rfl
  | cons e es ih => exact fun c => (ih _).trans (h c _ e)

/-! ## Taking the END section -/

/-- The state in which the image's last bytes have arrived. -/
def imageHeld (data : List Byte) (u : State) : State := { u with ld := { u.ld with buf := u.ld.buf ++ data } }

theorem loadStep_of_end (expected : s.ld.expected = 9) (room : s.ld.cursor + 8 ≤ 65536) (held : 8 ≤ s.ld.buf.length)
    (ident : leAt s.ld.buf 0 4 = 9) (length : leAt s.ld.buf 4 4 = 8) : loadStep s = .finish (s.ld.cursor + 8) := by
  have header : headerFault s.ld.cursor 9 9 8 = none := by
    rw [headerFault, if_neg (by simp only [Config.imageLimit]; omega), if_neg (by simp [sectionLength])]
  unfold loadStep
  dsimp only
  rw [if_neg (by simp only [Config.imageLimit]; omega), if_neg (by omega), ident, length, expected, header]
  rfl

theorem configReadResponse_of_end {data : List Byte} {a : OwnAccess} (back : Returns Purpose.isImageRead 0 a s u)
    (loading : s.ld.op = .loading) (expected : s.ld.expected = 9) (room : s.ld.cursor + 8 ≤ 65536)
    (held : 8 ≤ (s.ld.buf ++ data).length) (ident : leAt (s.ld.buf ++ data) 0 4 = 9) (length : leAt (s.ld.buf ++ data) 4 4 = 8) :
    exec (.configReadResponse false data) s = .next (enterRunning (s.ld.cursor + 8) (imageHeld data u)) := by
  have ld : u.ld = s.ld := by rw [back.removed]
  have step : loadStep (imageHeld data u) = .finish (s.ld.cursor + 8) := by
    have := loadStep_of_end (s := imageHeld data u) (by simpa [imageHeld, ld]) (by rw [← ld] at room; exact room)
      (by simpa [imageHeld, ld] using held) (by simpa [imageHeld, ld]) (by simpa [imageHeld, ld])
    simpa [imageHeld, ld] using this
  have image : imageBytes data u = enterRunning (s.ld.cursor + 8) (imageHeld data u) := by
    change takeSections (9 + 1) (imageHeld data u) = _
    rw [takeSections, step]
  change execConfigReadResponse false data s = _
  simp only [execConfigReadResponse, back.takeFlight, loading, if_true, Bool.false_eq_true, if_false, image]

/-! ## The steps of the entry -/

/-- The entry up to the bridging of hoot lines. -/
def entered (s : State) : State := writeZeroIndices (releaseFault (markLines (enterCounts (enterPath s))))

theorem enterRunning_eq (length : Nat) (s : State) :
    enterRunning length s = startTimer (writeStatus .running .none length (bridgeGroups (entered s))) := rfl

theorem asked_writeZeroIndices (s : State) : Asked s (writeZeroIndices s) :=
  ((asked_requestOwn ..).trans (asked_requestOwn ..)).trans (asked_requestOwn ..)

theorem mem_writeZeroIndices {p : Purpose} {offset : Nat}
    (h : (p, offset) ∈ [(Purpose.commandTaken 0, 4), (.eventProduced 0, 8), (.logProduced 0, 16)]) (s : State) :
    ⟨p, s.pu.regions.control.getD 0 + BitVec.ofNat 36 offset, [0, 0, 0, 0], 0⟩ ∈ (writeZeroIndices s).pu.own := by
  have zero : wordBytes 0 = [0, 0, 0, 0] := by decide
  unfold writeZeroIndices requestLogWord requestEventWord
  rw [zero]
  simp only [List.mem_cons, Prod.mk.injEq, List.not_mem_nil, or_false] at h
  rcases h with ⟨rfl, rfl⟩ | ⟨rfl, rfl⟩ | ⟨rfl, rfl⟩
  · exact ((asked_requestOwn ..).trans (asked_requestOwn ..)).mem (mem_requestOwn rfl ..)
  · exact (asked_requestOwn ..).mem (mem_requestOwn rfl ..)
  · exact mem_requestOwn rfl ..

/-- What stands at the entry before hoot lines are bridged. -/
structure Entered (s t : State) : Prop where
  line : ∀ l, t.line l = { s.line l with ctlPending := true }
  cu : t.cu = { s.cu with
    posted := 0, taken := 0, execution := .idle, evProduced := 0, evConsumed := 0
    fault := { s.cu.fault with asserted := false } }
  path : ∃ own, t.pu = { s.pu with
    regions := s.ld.regions, shadows := .zero, assembly := .replicate 120 .empty
    queues := .replicate 120 [], store := .replicate 160 [], own := own }
  controls : ∀ l, (s.line l).ctlPending = false →
    ⟨.lineControl l, s.ld.regions.signal.getD 0 + BitVec.ofNat 36 (1024 + 4 * l.val), [], 0⟩ ∈ t.pu.own
  indices : ∀ p offset, (p, offset) ∈ [(Purpose.commandTaken 0, 4), (.eventProduced 0, 8), (.logProduced 0, 16)] →
    ⟨p, s.ld.regions.control.getD 0 + BitVec.ofNat 36 offset, [0, 0, 0, 0], 0⟩ ∈ t.pu.own
  frame : t = { s with
    lc := { s.lc with lines := t.lc.lines }
    cu := t.cu
    pu := t.pu
    ld := { s.ld with op := .running }
    ru := { s.ru with frameNo := 0, produced := 0, consumed := 0 }
    me := { s.me with phase := .replicate 3 0, last := s.me.last.map fun r => { r with kind := .none } } }

theorem entered_entered (s : State) : Entered s (entered s) := by
  have marks := posts_markControls (List.finRange 96) (enterCounts (enterPath s))
  have lines := markLines_line (enterCounts (enterPath s))
  have frame := markLines_frame (enterCounts (enterPath s))
  rw [← markLines.eq_1] at marks
  unfold entered
  generalize markLines (enterCounts (enterPath s)) = m at *
  obtain ⟨more, pu⟩ := marks.asked
  obtain ⟨more', pu'⟩ := asked_writeZeroIndices (releaseFault m)
  refine ⟨lines, ?_, ⟨_, by rw [pu']; exact congrArg (fun p : PathUnit => { p with own := p.own ++ more' }) pu⟩, fun l off => ?_,
    fun p offset h => ?_, ?_⟩
  · exact congrArg (fun c : CmdUnit => { c with fault := { c.fault with asserted := false } }) (marks.unit)
  · exact (asked_writeZeroIndices (releaseFault m)).mem (marks.asks.mem_control off (by rw [lines]))
  · have := mem_writeZeroIndices h (releaseFault m)
    have regions : (releaseFault m).pu.regions = s.ld.regions := by rw [show (releaseFault m).pu = m.pu from rfl, pu]; rfl
    rwa [regions] at this
  · have : writeZeroIndices (releaseFault m) = { m with
      cu := (writeZeroIndices (releaseFault m)).cu, pu := (writeZeroIndices (releaseFault m)).pu } := rfl
    rw [this, frame]
    rfl

/-- Outside RUNNING the listed lines are idle hoot lines, each listed once: they can be bridged. -/
theorem bridgeGroups_hootsBridged {v : State} (group : ∀ g, v.group g = s.group g)
    (line : ∀ l, v.line l = { s.line l with ctlPending := true }) (hoot : HootLaw s) (off : s.running = false) :
    HootsBridged (List.finRange 16) v (bridgeGroups v) := by
  refine bridgeGroups_bridges (List.finRange 16) v (List.nodup_finRange 16) ?_ fun g _ l hl => ?_
  · simp only [group]
    exact hoot.once
  · rw [group] at hl
    rw [line]
    exact ⟨hoot.type g l hl, hoot.outside off g l hl⟩

/-- Settles O57: the steps of the entry in order; of the last two the status word alone is asked for and the timer starts. -/
theorem endSectionStartsRunning : Obligations.EndSectionStartsRunning := by
  intro data a s u back loading expected room held ident length lines hoot _
  have off : s.running = false := by simp [State.running, loading]
  obtain ⟨v_line, v_cu, ⟨own, v_pu⟩, controls, indices, v_frame⟩ := entered_entered (imageHeld data u)
  have u_eq := back.removed
  have u_group (g : GroupId) : (imageHeld data u).group g = s.group g := by rw [u_eq]; rfl
  have u_line (l : LineId) : (imageHeld data u).line l = s.line l := by rw [u_eq]; rfl
  have u_ld : (imageHeld data u).ld.regions = s.ld.regions := by rw [u_eq]; rfl
  have answer := configReadResponse_of_end back loading expected room held ident length
  rw [enterRunning_eq] at answer
  generalize hv : entered (imageHeld data u) = v at *
  have v_group (g : GroupId) : v.group g = s.group g := by rw [v_frame]; exact u_group g
  simp only [u_line] at v_line controls
  simp only [u_ld] at controls indices v_pu
  have bridged := bridgeGroups_hootsBridged v_group v_line hoot off
  have given (free : ∀ c, (v.chan c).state = .free) := bridgeGroups_given free
  generalize bridgeGroups v = b at *
  obtain ⟨listed, unlisted, -, events, log, b_frame⟩ := bridged
  simp only [v_group] at listed unlisted events
  have b_asked := events.asked
  obtain ⟨more, b_pu⟩ := b_asked
  generalize ht : startTimer (writeStatus .running .none (s.ld.cursor + 8) b) = t at *
  have t_line (l : LineId) : t.line l = b.line l := by rw [← ht]; rfl
  have t_group (g : GroupId) : t.group g = b.group g := by rw [← ht]; rfl
  have t_chan (c : ChanId) : t.chan c = b.chan c := by rw [← ht]; rfl
  have t_asked : Asked b t := ht ▸ asked_requestOwn ..
  have t_own {x : OwnAccess} (hx : x ∈ v.pu.own) : x ∈ t.pu.own := t_asked.mem (events.asked.mem hx)
  obtain ⟨last, t_pu⟩ := t_asked
  rw [b_pu, v_pu] at t_pu
  have t_cu : t.cu = b.cu := by rw [← ht]; rfl
  rw [events.unit, v_cu, show (imageHeld data u).cu = s.cu by rw [u_eq]; rfl] at t_cu
  have t_me : t.me = v.me := by rw [← ht]; show b.me = _; rw [b_frame]
  have t_ft : t.ft = (startTimer v).ft := by rw [← ht]; show (startTimer b).ft = _; rw [b_frame]; rfl
  have v_me : v.me = { s.me with phase := .replicate 3 0, last := s.me.last.map fun r => { r with kind := .none } } := by
    rw [v_frame, u_eq]; rfl
  have v_ft : v.ft = s.ft := by rw [v_frame, u_eq]; rfl
  have v_ru : v.ru = { s.ru with frameNo := 0, produced := 0, consumed := 0 } := by rw [v_frame, u_eq]; rfl
  have t_ru : t.ru = b.ru := by rw [← ht]; rfl
  rw [← t_ru, v_ru] at log
  have keeps {β : Type} (get : CmdUnit → β) (h : ∀ (c : CmdUnit) keep e, get (c.takeEvent keep e).unit = get c) := afterEvents_keeps get h
  refine ⟨t, answer, ?_, by rw [t_pu], by rw [t_pu]; rfl, fun i => ⟨by rw [t_pu]; simp, by rw [t_pu]; simp [Assembly.empty],
    by rw [t_me, v_me]; simp⟩, fun j => by rw [t_pu]; simp, fun l => ⟨?_, fun none_ => ?_, fun g hl => ?_⟩, t_cu,
    fun l off => t_own (controls l off), fun p offset h => t_own (indices p offset h), fun free g => ?_,
    by rw [t_cu, keeps (·.posted) (by simp)], by rw [t_cu, keeps (·.taken) (by simp)],
    by rw [t_cu, keeps (·.execution) (by simp)], by rw [t_cu, keeps (·.evConsumed) (by simp)],
    by rw [t_cu, keeps (·.fault) (by simp)], by rw [t_cu, keeps (·.fault) (by simp)], by rw [t_cu, keeps (·.fault) (by simp)],
    log.1, log.2.1, log.2.2, fun x => by rw [t_me, v_me]; simp, ?_, ?_, ?_, ?_⟩
  · rw [← ht]
    show b.running = true
    rw [b_frame, v_frame]
    rfl
  · rw [t_line]
    by_cases hl : ∃ g, l ∈ (s.group g).hootLines
    · obtain ⟨g, hl⟩ := hl
      rw [listed g (List.mem_finRange g) l hl, v_line]
      rfl
    · rw [unlisted l fun g _ hg => hl ⟨g, hg⟩, v_line]
  · rw [t_line, unlisted l fun g _ => none_ g, v_line]
  · rw [t_line, listed g (List.mem_finRange g) l hl, v_line]
    simp [LineRec.bridgedIn, LineRec.entered]
  · have free_v (c : ChanId) : (v.chan c).state = .free := by
      have : v.chan c = s.chan c := by simp only [State.chan, v_ru]
      rw [this, free c]
    obtain ⟨rest, given, -, -⟩ := given free_v
    have recorded_eq (h : GroupId) : recordedHoots v h = (!(s.group h).hootLines.isEmpty && (s.group h).policy != .none) := by
      rw [recordedHoots, v_group]
    refine ⟨fun silent => ?_, fun rec_ => ?_⟩
    · rw [t_group, rest g fun h => ?_, v_group]
      have := h.2
      rw [recorded_eq] at this
      exact absurd (silent.symm.trans this) (by simp)
    · obtain ⟨c, index, group, active, subject, x, session, facts⟩ := given g (List.mem_finRange g) ((recorded_eq g).trans rec_)
      simp only [recorded_eq] at index
      obtain ⟨of_group, on, previous, parties, frame, time⟩ := facts
      refine ⟨c, x, index, by rw [t_group, group, v_group], by rw [t_chan]; exact active, by rw [t_chan]; exact subject,
        by rw [t_chan]; exact session, of_group, on, previous, parties, by rw [frame, v_ru], by rw [time, v_ft]⟩
  · rw [t_ft, startTimer, v_ft]
    rfl
  · have asked : ⟨.statusWord .running, anchorAddr b.ld.sel + 4, statusWordBytes .running .none (s.ld.cursor + 8), 0⟩ ∈ t.pu.own := by
      rw [← ht]
      exact mem_requestOwn rfl ..
    have sel : b.ld.sel = s.ld.sel := by rw [b_frame]; show v.ld.sel = _; rw [v_frame, u_eq]; rfl
    exact ⟨_, asked, rfl, by rw [sel], rfl⟩
  · rw [← ht]
    show b.mp = _
    rw [b_frame, v_frame, u_eq]
    rfl
  · rw [← ht]
    show b.rc = _
    rw [b_frame, v_frame, u_eq]
    rfl

end Sys2Proof.Machine

namespace Sys2Proof.Machine

variable {s t u : State}

/-! # The counts of the positions follow the rings (R30) -/

/-- Two tests that differ at one element at most pick as many elements, but for that one. -/
theorem length_filter_update {α : Type} {P Q : α → Bool} {a : α} (same : ∀ b, b ≠ a → P b = Q b) :
    ∀ as : List α, as.Nodup → a ∈ as → (as.filter Q).length + (P a).toNat = (as.filter P).length + (Q a).toNat
  | b :: as, nodup, mem => by
    obtain ⟨fresh, nodup⟩ := List.nodup_cons.1 nodup
    by_cases h : b = a
    · subst h
      have rest : as.filter P = as.filter Q := List.filter_congr fun c hc => same c fun e => fresh (e ▸ hc)
      cases hp : P b <;> cases hq : Q b <;> simp [hp, hq, rest]
    · have ih := length_filter_update same as nodup ((List.mem_cons.1 mem).resolve_left (Ne.symm h))
      have := same b h
      cases hq : Q b <;> simp only [List.filter_cons, this, hq, if_true, Bool.false_eq_true, if_false, List.length_cons] <;> omega

/-- What one line's ring adds to a position's count. -/
def ringShown (ring : Option RingRec) (p : PosId) (which : RingRec → Bool) : Bool :=
  ring.any fun r => inSet r.shown p && which r

theorem shownAt_update {l : LineId} (others : ∀ m, m ≠ l → t.ring m = s.ring m) (p : PosId) (which : RingRec → Bool) :
    (shownAt t p which).length + (ringShown (s.ring l) p which).toNat =
      (shownAt s p which).length + (ringShown (t.ring l) p which).toNat :=
  length_filter_update (P := fun m => ringShown (s.ring m) p which) (Q := fun m => ringShown (t.ring m) p which)
    (fun m hm => by rw [others m hm]) (List.finRange 96) (List.nodup_finRange 96) (List.mem_finRange l)

/-- The presentation set of a ring, empty where there is none; it counts as a recall if so marked. -/
def ShownAs (ring : Option RingRec) (isRecall : Bool) (shown : PosSet) : Prop :=
  (ring = none → shown = 0) ∧ ∀ r, ring = some r → r.shown = shown ∧ (r.phase == .recall) = isRecall

theorem ShownAs.count {ring : Option RingRec} {b : Bool} {shown : PosSet} (h : ShownAs ring b shown) (p : PosId) :
    ringShown ring p (fun _ => true) = inSet shown p ∧
      ringShown ring p (fun r => r.phase == .recall) = (inSet shown p && b) := by
  cases ring with
  | none => rw [h.1 rfl, inSet_zero]; exact ⟨rfl, rfl⟩
  | some r =>
    obtain ⟨same, phase⟩ := h.2 r rfl
    simp [ringShown, same, phase]

/-- A step that takes one line's ring from one presentation set to another keeps the alert law. -/
theorem RingMoves.alertLaw {l : LineId} {b : Bool} {old new : PosSet} {ring : Option RingRec} {es : List Event}
    (moves : RingMoves l b old new ring es s t) (before : ShownAs (s.ring l) b old) (after : ShownAs ring b new)
    (law : AlertLaw s) : AlertLaw t := by
  obtain ⟨rings, recalls, alert⟩ := law
  have all (p : PosId) := shownAt_update moves.others p fun _ => true
  have recall_ (p : PosId) := shownAt_update moves.others p fun r => r.phase == .recall
  simp only [moves.ring, (before.count _).1, (before.count _).2, (after.count _).1, (after.count _).2, ← rings, ← recalls]
    at all recall_
  refine ⟨fun p => ?_, fun p => ?_, fun p => ?_⟩
  · have := all p
    rw [moves.counts p, movedCounts]
    cases ho : inSet old p <;> cases hn : inSet new p <;> simp [ho, hn] at this ⊢ <;> omega
  · have := recall_ p
    rw [moves.counts p, movedCounts]
    cases ho : inSet old p <;> cases hn : inSet new p <;> cases b <;> simp [ho, hn] at this ⊢ <;> omega
  · have := alert p
    rw [moves.counts p, movedCounts]
    cases ho : inSet old p <;> cases hn : inSet new p <;> simp [this]

theorem AlertLaw.congr (h : AlertLaw s) (rc : t.rc = s.rc) : AlertLaw t := by
  have ring (l : LineId) : t.ring l = s.ring l := by simp only [State.ring, rc]
  have posRing (p : PosId) : t.posRing p = s.posRing p := by simp only [State.posRing, rc]
  have shown (p : PosId) (which : RingRec → Bool) : shownAt t p which = shownAt s p which := by
    unfold shownAt; simp only [ring]
  exact ⟨fun p => by rw [posRing, shown, h.rings], fun p => by rw [posRing, shown, h.recalls], fun p => by rw [posRing, h.alert]⟩

theorem shownAs_none (b : Bool) : ShownAs none b 0 := ⟨fun _ => rfl, nofun⟩

theorem shownAs_self (r : RingRec) : ShownAs (some r) (r.phase == .recall) r.shown :=
  ⟨nofun, fun _ h => Option.some.inj h ▸ ⟨rfl, rfl⟩⟩

theorem alertLaw_endRing (law : AlertLaw s) (l : LineId) (cause : RingCause) (pos : Option PosId) :
    AlertLaw (endRing l cause pos s) := by
  cases ring : s.ring l with
  | none => rwa [endRing_of_none s ring]
  | some r => exact (endRing_moves s ring cause pos).alertLaw (ring ▸ shownAs_self r) (shownAs_none _) law

theorem newRing_phase (s : State) (l : LineId) : ((newRing s l).1.phase == .recall) = false := by
  unfold newRing
  dsimp only
  split
  · rfl
  · split <;> rfl

theorem alertLaw_startRing (law : AlertLaw s) {l : LineId} (none_ : s.ring l = none) : AlertLaw (startRing l s) :=
  (startRing_moves s l).alertLaw (none_ ▸ shownAs_none false) (newRing_phase s l ▸ shownAs_self _) law

theorem alertLaw_clearedLine (law : AlertLaw s) (l : LineId) (cause : LineCause) (st : LineState) :
    AlertLaw (clearedLine s l cause st) := by
  have empty : AlertLaw (emptyLine s l) := law.congr (by simp [emptyLine])
  have stopped : AlertLaw (stopRing (emptyLine s l) l cause) := by
    unfold stopRing
    split
    · exact alertLaw_endRing empty ..
    · exact empty
  exact stopped.congr (by simp [clearedLine])

theorem alertLaw_enterRinging (law : AlertLaw s) {l : LineId} (none_ : s.ring l = none) : AlertLaw (enterRinging l s) :=
  alertLaw_startRing (law.congr (by simp)) (by simpa using none_)

end Sys2Proof.Machine

namespace Sys2Proof.Machine

variable {s t u : State}

/-! # RESTART: the lines (R28, R43) -/

/-! ## Sessions that end -/

/-- A channel after RESTART has ended its session, if it has one (R153, R160). -/
def Channel.restarted (ch : Channel) (s : State) : Channel :=
  match ch.session with
  | none => ch
  | some x => ch.drained x .restart s

theorem Channel.restarted_restarted (ch : Channel) (s t : State) : (ch.restarted s).restarted t = ch.restarted s := by
  unfold Channel.restarted
  cases h : ch.session <;> simp [h, Channel.drained]

/-- The sessions on the channels `ends` have ended with cause RESTART; nothing else has changed in the Recorder Unit. -/
structure SessionsEnd (ends : ChanId → Prop) (s t : State) : Prop where
  ended : ∀ c, ends c → t.chan c = (s.chan c).restarted s
  kept : ∀ c, ¬ends c → t.chan c = s.chan c
  unit : t.ru = { s.ru with channels := t.ru.channels }
  clock : t.ft = s.ft

theorem Channel.restarted_congr (ch : Channel) (frame : t.ru.frameNo = s.ru.frameNo) (clock : t.ft = s.ft) :
    ch.restarted t = ch.restarted s := by
  unfold Channel.restarted
  cases ch.session <;> simp [Channel.drained, endedSession, frame, clock]

theorem SessionsEnd.none (ru : t.ru = s.ru) (clock : t.ft = s.ft) : SessionsEnd (fun _ => False) s t :=
  ⟨fun _ h => h.elim, fun c _ => by simp only [State.chan, ru], by rw [ru], clock⟩

theorem SessionsEnd.trans {ends ends' : ChanId → Prop} (h : SessionsEnd ends s t) (k : SessionsEnd ends' t u) :
    SessionsEnd (fun c => ends c ∨ ends' c) s u := by
  have again (ch : Channel) : ch.restarted t = ch.restarted s := ch.restarted_congr (by rw [h.unit]) h.clock
  refine ⟨fun c hc => ?_, fun c hc => ?_, by rw [k.unit, h.unit], k.clock.trans h.clock⟩
  · by_cases first : ends c
    · by_cases second : ends' c
      · rw [k.ended c second, h.ended c first, Channel.restarted_restarted]
      · rw [k.kept c second, h.ended c first]
    · rw [k.ended c (hc.resolve_left first), h.kept c first, again]
  · rw [k.kept c fun x => hc (.inr x), h.kept c fun x => hc (.inl x)]

theorem SessionsEnd.congr {ends ends' : ChanId → Prop} (h : SessionsEnd ends s t) (same : ∀ c, ends c ↔ ends' c) :
    SessionsEnd ends' s t := by
  rwa [← show ends = ends' from funext fun c => propext (same c)]

theorem sessionEnd_chan (s : State) (c : ChanId) : (sessionEnd c .restart s).chan c = (s.chan c).restarted s := by
  unfold Channel.restarted
  cases h : (s.chan c).session with
  | none => rw [sessionEnd_of_none s h]
  | some x => rw [sessionEnd_of_some s h, modChan_chan_self]

/-- The end of the session on the recorder of a line or group. -/
theorem sessionsEnd_of_ru {recorder : Option ChanId} (ru : t.ru = ruAfterEnd s recorder .restart) (clock : t.ft = s.ft) :
    SessionsEnd (fun c => recorder = some c) s t := by
  cases recorder with
  | none => exact (SessionsEnd.none ru clock).congr (by simp)
  | some d =>
    have chan (c : ChanId) : t.chan c = (sessionEnd d .restart s).chan c := by simp only [State.chan, ru]; rfl
    refine ⟨fun c hc => ?_, fun c hc => ?_, ?_, clock⟩
    · obtain rfl := Option.some.inj hc
      rw [chan, sessionEnd_chan]
    · rw [chan, sessionEnd_onlyChan s d .restart c fun e => hc (by rw [e])]
    · rw [ru]; exact ruAfterEnd_channels ..

/-! ## One line -/

/-- The line carries a call, which RESTART clears (R28). -/
def LineRec.onCall (r : LineRec) : Bool :=
  match r.state with
  | .ringing | .connected | .held => true
  | .idle | .bridged | .outOfService => false

/-- The line rings anew once it is cleared (R4). -/
def LineRec.again (r : LineRec) : Bool := r.type != .hoot && r.ringInd == .ringing

/-- What RESTART makes of a line's record. -/
def LineRec.restarted (r : LineRec) : LineRec :=
  if r.onCall then { r with
    state := if r.again then .ringing else .idle
    owners := [], privacy := false, heldBy := none, recorder := none, recallDeadline := none
    ctlPending := r.ctlPending || r.state.nearEnd == .offHook }
  else r

/-- What RESTART makes of a line's ring. -/
def restartedRing (s : State) (l : LineId) : Option RingRec :=
  if (s.line l).onCall then if (s.line l).again then some (newRing s l).1 else none else s.ring l

theorem restartLine_eq (l : LineId) (s : State) :
    restartLine l s = if (s.line l).onCall then clearLine l .restart .idle s else s := by
  unfold restartLine LineRec.onCall
  cases (s.line l).state <;> rfl

theorem clearLine_restart (l : LineId) (s : State) : clearLine l .restart .idle s =
    if (s.line l).again then enterRinging l (clearedLine s l .restart .idle) else clearedLine s l .restart .idle := by
  rw [clearLine_eq, levelRule_clearedLine]
  simp [LineRec.again]

/-- What one line's share of RESTART does, and those of several lines one after the other. -/
structure LinesRestarted (ls : List LineId) (s t : State) : Prop where
  line : ∀ l, t.line l = if l ∈ ls then (s.line l).restarted else s.line l
  freed : ∀ h, (∃ l ∈ ls, (s.line l).onCall = true ∧ h ∈ (s.line l).owners) → t.handset h = { s.handset h with binding := none }
  bound : ∀ h, (¬∃ l ∈ ls, (s.line l).onCall = true ∧ h ∈ (s.line l).owners) → t.handset h = s.handset h
  ring : ∀ l, t.ring l = if l ∈ ls then restartedRing s l else s.ring l
  alerts : AlertLaw s → AlertLaw t
  sessions : SessionsEnd (fun c => ∃ l ∈ ls, (s.line l).onCall = true ∧ (s.line l).recorder = some c) s t
  events : ∃ es, Posts es s t
  frame : t = { s with lc := { t.lc with maps := s.lc.maps }, rc := t.rc, ru := t.ru, cu := t.cu, pu := t.pu }

theorem linesRestarted_nil (s : State) : LinesRestarted [] s s :=
  ⟨fun _ => rfl, by simp, fun _ _ => rfl, fun _ => rfl, id, (SessionsEnd.none rfl rfl).congr (by simp), ⟨[], .refl s⟩, rfl⟩

theorem restarted_of_onCall {r : LineRec} (on : r.onCall = true) :
    (if r.again then (r.cleared .idle).entered .ringing else r.cleared .idle) = r.restarted := by
  have moves : nearEndMoves r .idle = (r.state.nearEnd == .offHook) := by
    rw [nearEndMoves]; cases r.state <;> rfl
  rw [LineRec.restarted, if_pos on, ← moves]
  split <;> simp_all [LineRec.cleared, LineRec.entered, LineRec.emptied, nearEndMoves, LineState.nearEnd]

/-- A new ring is read from the line's settings, the maps and the frame counter. -/
theorem newRing_congr {l : LineId} (preferred : (t.line l).preferred = (s.line l).preferred)
    (delay : (t.line l).ringDelay = (s.line l).ringDelay) (maps : t.lc.maps = s.lc.maps) (ft : t.ft = s.ft) :
    newRing t l = newRing s l := by
  have appears (p : PosId) : t.appears p l = s.appears p l := by simp only [State.appears, State.map, maps]
  have now : t.now = s.now := by simp only [State.now, ft]
  unfold newRing appearing
  simp only [preferred, delay, appears, now]

theorem clearedLine_maps (s : State) (l : LineId) (cause : LineCause) (st : LineState) :
    (clearedLine s l cause st).lc.maps = s.lc.maps := by rw [clearedLine_frame]

theorem clearedLine_ft (s : State) (l : LineId) (cause : LineCause) (st : LineState) :
    (clearedLine s l cause st).ft = s.ft := by rw [clearedLine_frame]

theorem newRing_clearedLine (s : State) (l : LineId) (cause : LineCause) (st : LineState) :
    newRing (clearedLine s l cause st) l = newRing s l := by
  refine newRing_congr ?_ ?_ (clearedLine_maps ..) (clearedLine_ft ..) <;> rw [clearedLine_line, if_pos rfl] <;> rfl

theorem clearLine_restart_line (s : State) (l m : LineId) (on : (s.line l).onCall = true) :
    (clearLine l .restart .idle s).line m = if l = m then (s.line l).restarted else s.line m := by
  rw [clearLine_restart, ← restarted_of_onCall on]
  split
  · rw [enterRinging_line, clearedLine_line, clearedLine_line, if_pos rfl]
    split <;> rfl
  · exact clearedLine_line ..

theorem clearLine_restart_ring (s : State) (l m : LineId) (rings : (s.ring l).isSome = true → (s.line l).state = .ringing)
    (on : (s.line l).onCall = true) :
    (clearLine l .restart .idle s).ring m = if l = m then restartedRing s l else s.ring m := by
  have gone : (clearedLine s l .restart .idle).ring m = if l = m then none else s.ring m := by
    rw [clearedLine_ring]
    by_cases e : l = m
    · subst e
      by_cases state : (s.line l).state = .ringing
      · simp [state]
      · have : s.ring l = none := Option.not_isSome_iff_eq_none.1 fun some_ => state (rings some_)
        simp [this]
    · simp [e]
  rw [clearLine_restart, restartedRing, if_pos on]
  split
  · rw [enterRinging_ring, newRing_setLineState, newRing_clearedLine, gone]
    split <;> rfl
  · exact gone

theorem clearLine_restart_alerts (s : State) (l : LineId) (rings : (s.ring l).isSome = true → (s.line l).state = .ringing)
    (law : AlertLaw s) : AlertLaw (clearLine l .restart .idle s) := by
  have cleared := alertLaw_clearedLine law l .restart .idle
  rw [clearLine_restart]
  split
  · refine alertLaw_enterRinging cleared ?_
    rw [clearedLine_ring]
    split
    · rfl
    · next h => exact Option.not_isSome_iff_eq_none.1 fun some_ => h ⟨rfl, rings some_⟩
  · exact cleared

theorem clearedLine_events (s : State) (l : LineId) (cause : LineCause) (st : LineState)
    (rings : (s.line l).state = .ringing → (s.ring l).isSome = true) : ∃ es, Posts es s (clearedLine s l cause st) := by
  by_cases state : (s.line l).state = .ringing
  · obtain ⟨ring, hr⟩ := Option.isSome_iff_exists.1 (rings state)
    exact ⟨_, posts_clearedLine_ringing s state hr cause st⟩
  · exact ⟨_, posts_clearedLine s state cause st⟩

theorem enterRinging_frame (s : State) (l : LineId) : enterRinging l s = { s with
    lc := { s.lc with lines := (enterRinging l s).lc.lines }
    rc := (enterRinging l s).rc
    cu := (enterRinging l s).cu
    pu := (enterRinging l s).pu } := by
  apply State.ext_parts
  case lc => exact LineCtl.eq_of_lines (by simp) (by simp)
  all_goals simp

theorem clearLine_restart_frame (s : State) (l : LineId) : let t := clearLine l .restart .idle s
    t = { s with lc := { t.lc with maps := s.lc.maps }, rc := t.rc, ru := { s.ru with channels := t.ru.channels },
                 cu := t.cu, pu := t.pu } ∧
      t.ru = (clearedLine s l .restart .idle).ru ∧ t.lc.handsets = (clearedLine s l .restart .idle).lc.handsets := by
  have frame := clearedLine_frame s l .restart .idle
  simp only [clearLine_restart]
  generalize clearedLine s l .restart .idle = u at *
  split
  · refine ⟨?_, by simp, by simp⟩
    rw [enterRinging_frame, frame]
  · exact ⟨frame, rfl, rfl⟩

/-- One line's share of RESTART (R28). -/
theorem restartLine_restarts {l : LineId} (rings : (s.ring l).isSome = true ↔ (s.line l).state = .ringing) :
    LinesRestarted [l] s (restartLine l s) := by
  rw [restartLine_eq]
  split
  · next on =>
    obtain ⟨frame, ru, handsets⟩ := clearLine_restart_frame s l
    have handset (h : Handset) : (clearLine l .restart .idle s).handset h =
        if h ∈ (s.line l).owners then { s.handset h with binding := none } else s.handset h := by
      rw [← clearedLine_handset s l .restart .idle]
      simp only [State.handset, handsets]
    refine ⟨fun m => ?_, fun h hh => ?_, fun h hh => ?_, fun m => ?_, clearLine_restart_alerts s l rings.1, ?_, ?_, ?_⟩
    · rw [clearLine_restart_line s l m on]
      by_cases e : l = m
      · subst e; simp
      · simp [e, Ne.symm e]
    · rw [handset, if_pos (by simpa [on] using hh)]
    · rw [handset, if_neg (by simpa [on] using hh)]
    · rw [clearLine_restart_ring s l m rings.1 on]
      by_cases e : l = m
      · subst e; simp
      · simp [e, Ne.symm e]
    · exact (sessionsEnd_of_ru (recorder := (s.line l).recorder) (ru.trans (clearedLine_ru s l .restart .idle))
        (by rw [frame])).congr (by simp [on])
    · obtain ⟨es, cleared⟩ := clearedLine_events s l .restart .idle rings.2
      rw [clearLine_restart]
      split
      · exact ⟨_, cleared.trans (enterRinging_moves _ l).events⟩
      · exact ⟨es, cleared⟩
    · rw [frame]
  · next off =>
    have off : (s.line l).onCall = false := by simpa using off
    refine ⟨fun m => ?_, fun h hh => ?_, fun _ _ => rfl, fun m => ?_, id, ?_, ⟨[], .refl s⟩, rfl⟩
    · split
      · next hm => rw [List.mem_singleton.1 hm, LineRec.restarted, off]; rfl
      · rfl
    · simp [off] at hh
    · split
      · next hm => rw [List.mem_singleton.1 hm, restartedRing, off]; rfl
      · rfl
    · exact (SessionsEnd.none rfl rfl).congr (by simp [off])

/-- One line more, ahead of others. -/
theorem LinesRestarted.cons {l : LineId} {ls : List LineId} (fresh : l ∉ ls) (first : LinesRestarted [l] s t)
    (rest : LinesRestarted ls t u) : LinesRestarted (l :: ls) s u := by
  have other {m : LineId} (hm : m ∈ ls) : m ∉ [l] := fun x => fresh (List.mem_singleton.1 x ▸ hm)
  have kept {m : LineId} (hm : m ∈ ls) : t.line m = s.line m := by rw [first.line, if_neg (other hm)]
  have maps : t.lc.maps = s.lc.maps := by rw [first.frame]
  have ft : t.ft = s.ft := by rw [first.frame]
  have split_ (P : LineId → Prop) : (∃ m ∈ l :: ls, P m) ↔ (∃ m ∈ [l], P m) ∨ ∃ m ∈ ls, P m := by simp
  have same {P : LineRec → Prop} : (∃ m ∈ ls, P (t.line m)) ↔ ∃ m ∈ ls, P (s.line m) :=
    exists_congr fun m => and_congr_right fun hm => by rw [kept hm]
  refine ⟨fun m => ?_, fun h hh => ?_, fun h hh => ?_, fun m => ?_, fun law => rest.alerts (first.alerts law), ?_, ?_, ?_⟩
  · rw [rest.line, first.line]
    by_cases hm : m ∈ ls
    · rw [if_pos hm, if_pos (List.mem_cons_of_mem _ hm), if_neg (other hm)]
    · simp [hm]
  · rw [split_] at hh
    by_cases later : ∃ m ∈ ls, (s.line m).onCall = true ∧ h ∈ (s.line m).owners
    · rw [rest.freed h ((same (P := fun r => r.onCall = true ∧ h ∈ r.owners)).2 later)]
      by_cases now : ∃ m ∈ [l], (s.line m).onCall = true ∧ h ∈ (s.line m).owners
      · rw [first.freed h now]
      · rw [first.bound h now]
    · rw [rest.bound h (mt (same (P := fun r => r.onCall = true ∧ h ∈ r.owners)).1 later), first.freed h (hh.resolve_right later)]
  · rw [split_, not_or] at hh
    rw [rest.bound h (mt (same (P := fun r => r.onCall = true ∧ h ∈ r.owners)).1 hh.2), first.bound h hh.1]
  · rw [rest.ring, first.ring]
    by_cases hm : m ∈ ls
    · have ring : t.ring m = s.ring m := by rw [first.ring, if_neg (other hm)]
      have new : newRing t m = newRing s m := newRing_congr (by rw [kept hm]) (by rw [kept hm]) maps ft
      simp [hm, restartedRing, kept hm, ring, new]
    · simp [hm]
  · refine (first.sessions.trans rest.sessions).congr fun c => ?_
    rw [split_, same (P := fun r => r.onCall = true ∧ r.recorder = some c)]
  · obtain ⟨es, now⟩ := first.events
    obtain ⟨es', later⟩ := rest.events
    exact ⟨es ++ es', now.trans later⟩
  · rw [rest.frame, first.frame]

/-- Lines one after the other. -/
theorem restartLines_restarts : ∀ (ls : List LineId) (s : State), ls.Nodup →
    (∀ l ∈ ls, (s.ring l).isSome = true ↔ (s.line l).state = .ringing) →
    LinesRestarted ls s (ls.foldl (fun s l => restartLine l s) s)
  | [], s, _, _ => linesRestarted_nil s
  | l :: ls, s, nodup, rings => by
    obtain ⟨fresh, nodup⟩ := List.nodup_cons.1 nodup
    have first := restartLine_restarts (rings l (List.mem_cons_self ..))
    have other {m : LineId} (hm : m ∈ ls) : m ∉ [l] := fun x => fresh (List.mem_singleton.1 x ▸ hm)
    exact first.cons fresh (restartLines_restarts ls (restartLine l s) nodup fun m hm => by
      rw [first.line, first.ring, if_neg (other hm), if_neg (other hm)]
      exact rings m (List.mem_cons_of_mem _ hm))

/-- The test of a line at its turn is that of the line at the start: no other line's share reaches it. -/
theorem restartLines_eq_foldl (s : State) (rings : ∀ l, (s.ring l).isSome = true ↔ (s.line l).state = .ringing) :
    ∀ (ls : List LineId) (t : State), ls.Nodup → (∀ l ∈ ls, t.line l = s.line l ∧ t.ring l = s.ring l) →
      ls.foldl (fun v l => restartLine l v) t =
        ls.foldl (fun v l => if (s.line l).onCall then clearLine l .restart .idle v else v) t
  | [], _, _, _ => rfl
  | l :: ls, t, nodup, same => by
    obtain ⟨fresh, nodup⟩ := List.nodup_cons.1 nodup
    obtain ⟨line, ring⟩ := same l (List.mem_cons_self ..)
    have first := restartLine_restarts (s := t) (l := l) (by rw [line, ring]; exact rings l)
    have other {m : LineId} (hm : m ∈ ls) : m ∉ [l] := fun x => fresh (List.mem_singleton.1 x ▸ hm)
    have step : restartLine l t = if (s.line l).onCall then clearLine l .restart .idle t else t := by
      rw [restartLine_eq, line]
    rw [List.foldl_cons, List.foldl_cons, ← step]
    exact restartLines_eq_foldl s rings ls (restartLine l t) nodup fun m hm => by
      rw [first.line, first.ring, if_neg (other hm), if_neg (other hm)]
      exact same m (List.mem_cons_of_mem _ hm)

end Sys2Proof.Machine

namespace Sys2Proof.Machine

variable {s t u : State}

/-! # RESTART: the groups (R68) -/

/-- What RESTART makes of a group's record. -/
def GroupRec.restarted (r : GroupRec) : GroupRec :=
  { r with holders := [], queue := [], hangDeadline := none, recorder := if r.hootLines = [] then none else r.recorder }

/-- The events of a group's share. -/
def GroupRec.restartEvents (g : GroupId) (r : GroupRec) : List Event :=
  (r.holders.map fun e => .floorRevoked g e.pos .restart) ++ r.queue.map fun e => .floorWithdrawn g e.pos .restart

/-- What the shares of several groups do, one after the other. -/
structure GroupsRestarted (gs : List GroupId) (s t : State) : Prop where
  group : ∀ g, t.group g = if g ∈ gs then (s.group g).restarted else s.group g
  events : Posts (gs.flatMap fun g => (s.group g).restartEvents g) s t
  sessions : SessionsEnd (fun c => ∃ g ∈ gs, (s.group g).hootLines = [] ∧ (s.group g).recorder = some c) s t
  frame : t = { s with fc := t.fc, ru := t.ru, cu := t.cu, pu := t.pu }

/-- A group's floor is emptied, its events posted. -/
def floorEmptied (g : GroupId) (s : State) : State :=
  postAll ((s.group g).queue.map fun e => .floorWithdrawn g e.pos .restart)
    (postAll ((s.group g).holders.map fun e => .floorRevoked g e.pos .restart)
      (s.modGroup g fun r => { r with holders := [], queue := [], hangDeadline := none }))

theorem restartGroup_eq (g : GroupId) (s : State) : restartGroup g s =
    if (s.group g).hootLines = [] then endGroupSession g .restart (floorEmptied g s) else floorEmptied g s := rfl

theorem floorEmptied_group (g h : GroupId) (s : State) : (floorEmptied g s).group h =
    if g = h then { s.group g with holders := [], queue := [], hangDeadline := none } else s.group h := by
  simp only [floorEmptied, postAll_group, modGroup_group]

theorem posts_floorEmptied (g : GroupId) (s : State) : Posts ((s.group g).restartEvents g) s (floorEmptied g s) :=
  ((posts_modGroup s g _).trans (posts_postAll ..)).trans (posts_postAll ..)

theorem posts_endGroupSession (s : State) (g : GroupId) (cause : SessionCause) : Posts [] s (endGroupSession g cause s) :=
  .of_eq (by simp) (by simp) fun l => by simp

theorem restartGroup_restarts (g : GroupId) (s : State) : GroupsRestarted [g] s (restartGroup g s) := by
  rw [restartGroup_eq]
  split
  · next silent =>
    refine ⟨fun h => ?_, ?_, ?_, ?_⟩
    · rw [endGroupSession_group, floorEmptied_group, floorEmptied_group, if_pos rfl]
      by_cases e : g = h
      · subst e; simp [GroupRec.restarted, silent]
      · simp [e, Ne.symm e]
    · simpa using (posts_floorEmptied g s).trans (posts_endGroupSession _ g .restart)
    · have ru : (endGroupSession g .restart (floorEmptied g s)).ru = ruAfterEnd s (s.group g).recorder .restart := by
        rw [endGroupSession_ru, floorEmptied_group, if_pos rfl]
        exact ruAfterEnd_congr (by simp [floorEmptied]) (by simp [floorEmptied]) _ _
      exact (sessionsEnd_of_ru ru (by simp [floorEmptied])).congr (by simp [silent])
    · apply State.ext_parts <;> simp [floorEmptied]
  · next hoots =>
    refine ⟨fun h => ?_, by simpa using posts_floorEmptied g s, ?_, ?_⟩
    · rw [floorEmptied_group]
      by_cases e : g = h
      · subst e; simp [GroupRec.restarted, hoots]
      · simp [e, Ne.symm e]
    · exact (SessionsEnd.none (by simp [floorEmptied]) (by simp [floorEmptied])).congr (by simp [hoots])
    · apply State.ext_parts <;> simp [floorEmptied]

theorem GroupsRestarted.cons {g : GroupId} {gs : List GroupId} (fresh : g ∉ gs) (first : GroupsRestarted [g] s t)
    (rest : GroupsRestarted gs t u) : GroupsRestarted (g :: gs) s u := by
  have other {h : GroupId} (hh : h ∈ gs) : h ∉ [g] := fun x => fresh (List.mem_singleton.1 x ▸ hh)
  have kept {h : GroupId} (hh : h ∈ gs) : t.group h = s.group h := by rw [first.group, if_neg (other hh)]
  refine ⟨fun h => ?_, ?_, ?_, by rw [rest.frame, first.frame]⟩
  · rw [rest.group, first.group]
    by_cases hh : h ∈ gs
    · rw [if_pos hh, if_pos (List.mem_cons_of_mem _ hh), if_neg (other hh)]
    · simp [hh]
  · have same : (gs.flatMap fun g => (t.group g).restartEvents g) = gs.flatMap fun g => (s.group g).restartEvents g :=
      List.flatMap_congr fun h hh => by rw [kept hh]
    have both := first.events.trans rest.events
    rw [same] at both
    simpa using both
  · refine (first.sessions.trans rest.sessions).congr fun c => ?_
    have same : (∃ h ∈ gs, (t.group h).hootLines = [] ∧ (t.group h).recorder = some c) ↔
        ∃ h ∈ gs, (s.group h).hootLines = [] ∧ (s.group h).recorder = some c :=
      exists_congr fun h => and_congr_right fun hh => by rw [kept hh]
    rw [same]
    simp

theorem restartGroups_restarts : ∀ (gs : List GroupId) (s : State), gs.Nodup →
    GroupsRestarted gs s (gs.foldl (fun s g => restartGroup g s) s)
  | [], s, _ => ⟨fun _ => rfl, .refl s, (SessionsEnd.none rfl rfl).congr (by simp), rfl⟩
  | g :: gs, s, nodup => by
    obtain ⟨fresh, nodup⟩ := List.nodup_cons.1 nodup
    exact (restartGroup_restarts g s).cons fresh (restartGroups_restarts gs (restartGroup g s) nodup)

/-! # RESTART as a whole (R173) -/

/-- Where no line is newly marked, exactly these accesses are asked for. -/
theorem Asks.exact {writes : List OwnAccess} (h : Asks writes s t) (same : ∀ l, (t.line l).ctlPending = (s.line l).ctlPending) :
    t.pu = { s.pu with own := s.pu.own ++ writes } := by
  obtain ⟨⟨more, marked, pu, plain, controls, -, mem⟩, -⟩ := h
  have none_ : marked = [] := List.eq_nil_iff_forall_not_mem.2 fun l hl => by
    obtain ⟨off, on⟩ := (mem l).1 hl
    rw [same, off] at on
    cases on
  rw [none_, List.map_nil, List.filter_eq_nil_iff] at controls
  rw [pu, ← plain, List.filter_eq_self.2 fun a ha => by simpa using controls a ha]

/-- The Fault Record once RESTART has released FAULTn, if a memory fault asserted it (R170). -/
def FaultRecord.released (f : FaultRecord) : FaultRecord := { f with asserted := f.asserted && f.cause != .memoryError }

theorem releaseMemoryFault_eq (s : State) :
    releaseMemoryFault s = { s with cu := { s.cu with fault := s.cu.fault.released } } := by
  unfold releaseMemoryFault FaultRecord.released
  split
  · next h => simp [h]
  · next h =>
    have : (s.cu.fault.cause != .memoryError) = true := by simpa using h
    rw [this, Bool.and_true]

/-- The shares of the units behind the floor (R105, R118, R170). -/
def flushed (s : State) : State := releaseMemoryFault (forgetFrames (flushPath s))

theorem restart_eq (s : State) : restart s = (flushed (restartGroups (restartLines s)), .ok) := rfl

/-- What is left of the path unit. -/
def PathUnit.flushed (p : PathUnit) : PathUnit :=
  { p with
    queues := .replicate 120 []
    totals := .build fun i =>
      let t := p.totals.get i
      { t with flushed := t.flushed + BitVec.ofNat 32 (p.queues.get i).length }
    assembly := .replicate 120 .empty
    store := .replicate 160 [] }

theorem flushed_eq (s : State) : flushed s = { s with
    pu := s.pu.flushed
    me := { s.me with last := s.me.last.map fun r => { r with kind := .none } }
    cu := { s.cu with fault := s.cu.fault.released } } := by
  rw [flushed, releaseMemoryFault_eq]; rfl

theorem completionWrites_congr (control : t.pu.regions = s.pu.regions) (c : CmdUnit) (st : Status) :
    completionWrites t c st = completionWrites s c st := by simp only [completionWrites, controlAddr, control]

theorem afterEvents_fault (c : CmdUnit) (es : List Event) : (c.afterEvents es).fault = c.fault :=
  afterEvents_keeps (·.fault) (by simp) es c

theorem afterEvents_taken (c : CmdUnit) (es : List Event) : (c.afterEvents es).taken = c.taken :=
  afterEvents_keeps (·.taken) (by simp) es c

theorem restartedRing_of_idle {l : LineId} (off : (s.line l).onCall = false) : restartedRing s l = s.ring l := by
  simp [restartedRing, off]
theorem restartedRing_of_silent {l : LineId} (on : (s.line l).onCall = true) (silent : (s.line l).again = false) :
    restartedRing s l = none := by simp [restartedRing, on, silent]
theorem restartedRing_of_again {l : LineId} (on : (s.line l).onCall = true) (rings : (s.line l).again = true) :
    restartedRing s l = some (newRing s l).1 := by simp [restartedRing, on, rings]

/-- RESTART leaves no ring in phase RECALL. -/
theorem restartedRing_phase (lines : LineLaw s) (l : LineId) {r : RingRec} (ring : restartedRing s l = some r) :
    (r.phase == .recall) = false := by
  unfold restartedRing at ring
  split at ring
  · split at ring
    · cases ring; exact newRing_phase s l
    · cases ring
  · next off =>
    have ringing : (s.line l).state = .ringing := (lines.rings l).1 (by rw [ring]; rfl)
    simp [LineRec.onCall, ringing] at off

/-- Settles O37: the lines' shares are `LinesRestarted`, the groups' `GroupsRestarted`; the other units' are `flushed`. -/
theorem restartEmptiesThePart : Obligations.RestartEmptiesThePart := by
  intro s holds lines cleared again ends released floor
  have rings (l : LineId) := lines.rings l
  have byLines : LinesRestarted (List.finRange 96) s (restartLines s) :=
    restartLines_restarts _ s (List.nodup_finRange 96) fun l _ => rings l
  have byGroups : GroupsRestarted (List.finRange 16) (restartLines s) (restartGroups (restartLines s)) :=
    restartGroups_restarts _ _ (List.nodup_finRange 16)
  have answer : exec .restart s = .next (complete .ok (flushed (restartGroups (restartLines s)))) :=
    runCommand_next holds (restart_eq s)
  have folded : restartLines s =
      (List.finRange 96).foldl (fun v l => if cleared l then clearLine l .restart .idle v else v) s :=
    restartLines_eq_foldl s rings (List.finRange 96) s (List.nodup_finRange 96) fun l _ => ⟨rfl, rfl⟩
  generalize restartLines s = v at *
  generalize restartGroups v = w at *
  have v_group (g : GroupId) : v.group g = s.group g := by rw [byLines.frame]; rfl
  obtain ⟨v_es, v_posts⟩ := byLines.events
  obtain ⟨v_more, v_pu⟩ := v_posts.asked
  have w_line (l : LineId) : w.line l = (s.line l).restarted := by
    have : w.line l = v.line l := by rw [byGroups.frame]; rfl
    rw [this, byLines.line, if_pos (List.mem_finRange l)]
  have w_handset (h : Handset) : w.handset h = { s.handset h with binding := none } := by
    have same : w.handset h = v.handset h := by rw [byGroups.frame]; rfl
    rw [same]
    by_cases on : ∃ l ∈ List.finRange 96, (s.line l).onCall = true ∧ h ∈ (s.line l).owners
    · exact byLines.freed h on
    · have free : (s.handset h).binding = none := by
        rw [Option.eq_none_iff_forall_ne_some]
        intro l bound
        have owner := (lines.bound h l).1 bound
        have connected := (lines.owned l).1 (List.ne_nil_of_mem owner)
        exact on ⟨l, List.mem_finRange l, by simp [LineRec.onCall, connected], owner⟩
      rw [byLines.bound h on, ← free]
  have w_ring (l : LineId) : w.ring l = restartedRing s l := by
    have : w.ring l = v.ring l := by rw [byGroups.frame]; rfl
    rw [this, byLines.ring, if_pos (List.mem_finRange l)]
  have w_group (g : GroupId) : w.group g = (s.group g).restarted := by
    rw [byGroups.group, if_pos (List.mem_finRange g), v_group]
  have w_alerts (law : AlertLaw s) : AlertLaw w := (byLines.alerts law).congr (by rw [byGroups.frame])
  have w_sessions : SessionsEnd ends s w := (byLines.sessions.trans byGroups.sessions).congr fun c => by
    simp only [List.mem_finRange, true_and, v_group]
    exact Iff.rfl
  have w_cu : w.cu = v.cu.afterEvents floor := by
    have := byGroups.events.unit
    simp only [v_group] at this
    exact this
  have w_pu : w.pu = { v.pu with own := v.pu.own ++ v.cu.slotWrites floor } := by
    have := byGroups.events.asks.exact fun l => by rw [byGroups.frame]; rfl
    simp only [v_group] at this
    exact this
  have fault : w.cu.fault = s.cu.fault := by
    rw [w_cu, afterEvents_fault, v_posts.unit, afterEvents_fault]
  have done : (complete .ok (flushed w)).cu = { v.cu.afterEvents floor with fault := released }.afterDone .ok := by
    rw [complete_cu, flushed_eq, fault, w_cu]
    rfl
  have done_exact := (asks_complete (flushed w) .ok).exact fun l => by simp
  rw [completionWrites_congr (s := s) (by rw [flushed_eq, w_pu, v_pu]; rfl)] at done_exact
  have done_own : (complete .ok (flushed w)).pu.own = v.pu.own ++ v.cu.slotWrites floor ++
      completionWrites s { v.cu.afterEvents floor with fault := released } .ok := by
    rw [done_exact, flushed_eq, fault, w_cu, w_pu]
    rfl
  have done_pu : (complete .ok (flushed w)).pu = { w.pu.flushed with own := (complete .ok (flushed w)).pu.own } := by
    rw [done_exact, flushed_eq]
  generalize ht : complete .ok (flushed w) = t at *
  have t_line (l : LineId) : t.line l = (s.line l).restarted := by rw [← ht, complete_line, flushed_eq]; exact w_line l
  have t_ring (l : LineId) : t.ring l = restartedRing s l := by rw [← ht, complete_ring, flushed_eq]; exact w_ring l
  have t_group (g : GroupId) : t.group g = (s.group g).restarted := by rw [← ht, complete_group, flushed_eq]; exact w_group g
  have t_alerts (law : AlertLaw s) : AlertLaw t := (w_alerts law).congr (by rw [← ht, complete_rc, flushed_eq])
  have t_chan (c : ChanId) : t.chan c = w.chan c := by rw [← ht, complete_chan, flushed_eq]; rfl
  refine ⟨t, v, answer, folded, fun h => ?_, fun l => ?_, fun l off => ?_, fun l on silent => ?_, fun l on rings_again => ?_,
    fun law => ⟨t_alerts law, fun p => ?_⟩, fun g => ?_, fun c x end_ session => ?_, fun c keep => ?_, fun i => ?_, fun j => ?_,
    done, ?_, ?_, ?_, ?_, done_own, ?_⟩
  · rw [← ht, complete_handset, flushed_eq]
    exact w_handset h
  · rw [t_line]; rfl
  · exact (t_ring l).trans (restartedRing_of_idle off)
  · exact (t_ring l).trans (restartedRing_of_silent on silent)
  · refine ⟨(newRing s l).1, (t_ring l).trans (restartedRing_of_again on rings_again), fun p preferred appears delay => ?_,
      fun general => ?_⟩
    · rw [newRing_preferred s preferred appears delay]
    · rw [newRing_general s general]
      exact ⟨rfl, fun p => inSet_appearing s l p⟩
  · rw [(t_alerts law).recalls p, List.length_eq_zero_iff, shownAt, List.filter_eq_nil_iff]
    intro l _
    rw [t_ring]
    cases ring : restartedRing s l with
    | none => simp
    | some r => simp [restartedRing_phase lines l ring]
  · rw [t_group]
    exact ⟨rfl, rfl, rfl, rfl⟩
  · rw [t_chan, w_sessions.ended c end_, Channel.restarted, session]
    rfl
  · rw [t_chan]
    by_cases end_ : ends c
    · rw [w_sessions.ended c end_, Channel.restarted, keep.resolve_left (not_not.2 end_)]
    · exact w_sessions.kept c end_
  · have pu := done_pu
    have me : t.me = { s.me with last := s.me.last.map fun r => { r with kind := .none } } := by
      rw [← ht, complete_me, flushed_eq, byGroups.frame, byLines.frame]
    rw [pu, me, w_pu, v_pu]
    simp [PathUnit.flushed, Assembly.empty]
  · rw [done_pu]; simp [PathUnit.flushed]
  · rw [done]
    simp [CmdUnit.afterDone]
  · rw [done]; rfl
  · rw [done]
    simp [CmdUnit.afterDone, afterEvents_taken, v_posts.unit]
  · exact ⟨v_more ++ (v.cu.slotWrites floor ++ completionWrites s { v.cu.afterEvents floor with fault := released } .ok),
      by rw [done_own, v_pu]; simp⟩
  · have lc : t.lc = { w.lc with lines := t.lc.lines } := by rw [← ht, complete_lc, flushed_eq]
    have ru : t.ru = w.ru := by rw [← ht, complete_ru, flushed_eq]
    apply State.ext_parts
    case lc => rw [lc, byGroups.frame, byLines.frame]
    case me => rw [← ht, complete_me, flushed_eq, byGroups.frame, byLines.frame]
    case pu => rw [done_pu, w_pu, v_pu]; rfl
    case ru => rw [ru, w_sessions.unit]
    case mp => rw [← ht, complete_mp, flushed_eq, byGroups.frame, byLines.frame]
    case ft => rw [← ht, complete_ft, flushed_eq, byGroups.frame, byLines.frame]
    case ld => rw [← ht, complete_ld, flushed_eq, byGroups.frame, byLines.frame]
    case handed => rw [← ht, complete_handed, flushed_eq, byGroups.frame, byLines.frame]
    case draws => rw [← ht, complete_draws, flushed_eq, byGroups.frame, byLines.frame]
    case pending => rw [← ht, complete_pending, flushed_eq, byGroups.frame, byLines.frame]
    all_goals rfl

end Sys2Proof.Machine

namespace Sys2Proof.Machine

variable {s t u : State} {l : LineId}

/-! # What the laws of the lines read (R1, R9, R27, R29) -/

/-- A line's record but for its control mark, which no law reads and the path unit clears. -/
def LineRec.bare (r : LineRec) : LineRec := { r with ctlPending := false }

section
variable {a b : LineRec} (same : a.bare = b.bare)
include same

theorem LineRec.state_of_bare : a.state = b.state := (congrArg LineRec.state same :)
theorem LineRec.type_of_bare : a.type = b.type := (congrArg LineRec.type same :)
theorem LineRec.owners_of_bare : a.owners = b.owners := (congrArg LineRec.owners same :)
theorem LineRec.heldBy_of_bare : a.heldBy = b.heldBy := (congrArg LineRec.heldBy same :)
theorem LineRec.recallDeadline_of_bare : a.recallDeadline = b.recallDeadline := (congrArg LineRec.recallDeadline same :)
theorem LineRec.group_of_bare : a.group = b.group := (congrArg LineRec.group same :)
theorem LineRec.missed_of_bare : a.missed = b.missed := (congrArg LineRec.missed same :)
theorem LineRec.farEnd_of_bare : a.farEnd = b.farEnd := (congrArg LineRec.farEnd same :)
theorem LineRec.ringInd_of_bare : a.ringInd = b.ringInd := (congrArg LineRec.ringInd same :)

end

/-- The line laws' share of one line. -/
structure LineOk (s : State) (l : LineId) : Prop where
  bound : ∀ h : Handset, (s.handset h).binding = some l ↔ h ∈ (s.line l).owners
  once : (s.line l).owners.Nodup
  owned : (s.line l).owners ≠ [] ↔ (s.line l).state = .connected
  places : (s.line l).owners.length ≤ Config.ownerPlaces
  held : (s.line l).heldBy.isSome = true ↔ (s.line l).state = .held
  timed : (s.line l).recallDeadline.isSome = true → (s.line l).state = .held
  bridged : (s.line l).group.isSome = true ↔ (s.line l).state = .bridged
  rings : (s.ring l).isSome = true ↔ (s.line l).state = .ringing
  missed : (s.line l).missed ≤ Config.missedMax

theorem lineLaw_iff : LineLaw s ↔ (∀ l, LineOk s l) ∧
    (s.running = false → ∀ l, (s.line l).state = .idle ∨ (s.line l).state = .outOfService) where
  mp law := ⟨fun l => ⟨fun h => law.bound h l, law.once l, law.owned l, law.places l, law.held l, law.timed l,
    law.bridged l, law.rings l, law.missed l⟩, law.outside⟩
  mpr := fun ⟨ok, outside⟩ => ⟨fun h l => (ok l).bound h, fun l => (ok l).once, fun l => (ok l).owned, fun l => (ok l).places,
    fun l => (ok l).held, fun l => (ok l).timed, fun l => (ok l).bridged, fun l => (ok l).rings, fun l => (ok l).missed, outside⟩

theorem LineLaw.ok (law : LineLaw s) (l : LineId) : LineOk s l := (lineLaw_iff.1 law).1 l

/-- One line's share of the laws reads that line's record, its ring and the handsets bound to it. -/
theorem LineOk.congr (ok : LineOk s l) (line : (t.line l).bare = (s.line l).bare)
    (ring : (t.ring l).isSome = (s.ring l).isSome)
    (bound : ∀ h, (t.handset h).binding = some l ↔ (s.handset h).binding = some l) : LineOk t l := by
  have state := LineRec.state_of_bare line
  have owners := LineRec.owners_of_bare line
  refine ⟨fun h => ?_, ?_, ?_, ?_, ?_, ?_, ?_, ?_, ?_⟩
  · rw [bound, owners]; exact ok.bound h
  · rw [owners]; exact ok.once
  · rw [owners, state]; exact ok.owned
  · rw [owners]; exact ok.places
  · rw [LineRec.heldBy_of_bare line, state]; exact ok.held
  · rw [LineRec.recallDeadline_of_bare line, state]; exact ok.timed
  · rw [LineRec.group_of_bare line, state]; exact ok.bridged
  · rw [ring, state]; exact ok.rings
  · rw [LineRec.missed_of_bare line]; exact ok.missed

/-! # Steps beside the lines -/

/-- Nothing that the laws of the lines read has changed. -/
structure Aside (s t : State) : Prop where
  line : ∀ l, (t.line l).bare = (s.line l).bare
  ring : ∀ l, (t.ring l).isSome = (s.ring l).isSome
  bound : ∀ h, (t.handset h).binding = (s.handset h).binding
  hoots : ∀ g, (t.group g).hootLines = (s.group g).hootLines
  ld : t.ld = s.ld

theorem Aside.refl (s : State) : Aside s s := ⟨fun _ => rfl, fun _ => rfl, fun _ => rfl, fun _ => rfl, rfl⟩

theorem Aside.trans (a : Aside s t) (b : Aside t u) : Aside s u :=
  ⟨fun l => (b.line l).trans (a.line l), fun l => (b.ring l).trans (a.ring l), fun h => (b.bound h).trans (a.bound h),
    fun g => (b.hoots g).trans (a.hoots g), b.ld.trans a.ld⟩

/-- A step that leaves the Line Controller, the Ring Presenter, the groups and the loader alone. -/
theorem Aside.of_eq (lc : t.lc = s.lc) (rc : t.rc = s.rc) (fc : t.fc = s.fc) (ld : t.ld = s.ld) : Aside s t :=
  ⟨fun l => by rw [State.line, lc]; rfl, fun l => by rw [State.ring, rc]; rfl, fun h => by rw [State.handset, lc]; rfl,
    fun g => by rw [State.group, fc]; rfl, ld⟩

/-- A step of the Talk Floor Controller that leaves every hoot line list alone. -/
theorem Aside.of_hoots (lc : t.lc = s.lc) (rc : t.rc = s.rc) (ld : t.ld = s.ld)
    (hoots : ∀ g, (t.group g).hootLines = (s.group g).hootLines) : Aside s t :=
  ⟨fun l => by rw [State.line, lc]; rfl, fun l => by rw [State.ring, rc]; rfl, fun h => by rw [State.handset, lc]; rfl,
    hoots, ld⟩

theorem Aside.foldl {α : Type} {f : State → α → State} (step : ∀ s a, Aside s (f s a)) (as : List α) (s : State) :
    Aside s (as.foldl f s) := by
  induction as generalizing s with
  | nil => exact .refl s
  | cons a as ih => exact (step s a).trans (ih (f s a))

theorem Aside.running (a : Aside s t) : t.running = s.running := by simp [State.running, a.ld]

theorem Aside.lineLaw (a : Aside s t) (law : LineLaw s) : LineLaw t :=
  lineLaw_iff.2 ⟨fun l => (law.ok l).congr (a.line l) (a.ring l) fun h => by rw [a.bound],
    fun out l => by rw [LineRec.state_of_bare (a.line l)]; exact law.outside (a.running ▸ out) l⟩

theorem hootLinesOf_congr (hoots : ∀ g, (t.group g).hootLines = (s.group g).hootLines) : hootLinesOf t = hootLinesOf s :=
  List.flatMap_congr fun g _ => hoots g

theorem Aside.hootLaw (a : Aside s t) (law : HootLaw s) : HootLaw t where
  once := by rw [hootLinesOf_congr a.hoots]; exact law.once
  type g l h := by rw [LineRec.type_of_bare (a.line l)]; exact law.type g l (a.hoots g ▸ h)
  listed run g l h := by rw [LineRec.group_of_bare (a.line l)]; exact law.listed (a.running ▸ run) g l (a.hoots g ▸ h)
  bridged g l h := by rw [a.hoots]; exact law.bridged g l (LineRec.group_of_bare (a.line l) ▸ h)
  calls l h := by rw [LineRec.state_of_bare (a.line l)]; exact law.calls l (LineRec.type_of_bare (a.line l) ▸ h)
  outside out g l h := by rw [LineRec.state_of_bare (a.line l)]; exact law.outside (a.running ▸ out) g l (a.hoots g ▸ h)
  unread out early := by
    rw [hootLinesOf_congr a.hoots]; exact law.unread (a.running ▸ out) (a.ld ▸ early)

/-! # Steps on one line -/

/-- The laws hold of line `l` after the step, and of no other line has anything they read changed. -/
structure LineStep (l : LineId) (s t : State) : Prop where
  lines : ∀ m, m ≠ l → (t.line m).bare = (s.line m).bare
  rings : ∀ m, m ≠ l → (t.ring m).isSome = (s.ring m).isSome
  others : ∀ h m, m ≠ l → ((t.handset h).binding = some m ↔ (s.handset h).binding = some m)
  ok : LineOk t l
  ld : t.ld = s.ld

/-- A line of type HOOT carries no call. -/
def Quiet (r : LineRec) : Prop := r.type = .hoot → r.state = .outOfService ∨ r.state = .idle ∨ r.state = .bridged

/-- Such a step, of a line that neither joins nor leaves a group by it. -/
structure CallStep (l : LineId) (s t : State) : Prop extends LineStep l s t where
  hoots : ∀ g, (t.group g).hootLines = (s.group g).hootLines
  group : (t.line l).group = (s.line l).group
  typed : (s.line l).group.isSome = true → (t.line l).type = (s.line l).type
  quiet : Quiet (s.line l) → Quiet (t.line l)

theorem LineStep.trans (a : LineStep l s t) (b : LineStep l t u) : LineStep l s u :=
  ⟨fun m h => (b.lines m h).trans (a.lines m h), fun m h => (b.rings m h).trans (a.rings m h),
    fun h m hm => (b.others h m hm).trans (a.others h m hm), b.ok, b.ld.trans a.ld⟩

theorem CallStep.trans (a : CallStep l s t) (b : CallStep l t u) : CallStep l s u where
  toLineStep := a.toLineStep.trans b.toLineStep
  hoots g := (b.hoots g).trans (a.hoots g)
  group := b.group.trans a.group
  typed h := (b.typed (by rw [a.group]; exact h)).trans (a.typed h)
  quiet h := b.quiet (a.quiet h)

theorem LineStep.aside (a : LineStep l s t) (b : Aside t u) : LineStep l s u where
  lines m h := (b.line m).trans (a.lines m h)
  rings m h := (b.ring m).trans (a.rings m h)
  others h m hm := by rw [b.bound]; exact a.others h m hm
  ok := a.ok.congr (b.line l) (b.ring l) fun h => by rw [b.bound]
  ld := b.ld.trans a.ld

theorem CallStep.aside (a : CallStep l s t) (b : Aside t u) : CallStep l s u where
  toLineStep := a.toLineStep.aside b
  hoots g := (b.hoots g).trans (a.hoots g)
  group := (LineRec.group_of_bare (b.line l)).trans a.group
  typed h := (LineRec.type_of_bare (b.line l)).trans (a.typed h)
  quiet h := by
    have := a.quiet h
    rwa [Quiet, ← LineRec.type_of_bare (b.line l), ← LineRec.state_of_bare (b.line l)] at this

theorem LineStep.running (a : LineStep l s t) : t.running = s.running := by simp [State.running, a.ld]

theorem LineStep.lineLaw (step : LineStep l s t) (run : s.running = true) (law : LineLaw s) : LineLaw t := by
  refine lineLaw_iff.2 ⟨fun m => ?_, fun out => ?_⟩
  · by_cases e : m = l
    · subst e; exact step.ok
    · exact (law.ok m).congr (step.lines m e) (step.rings m e) fun h => step.others h m e
  · rw [step.running, run] at out
    cases out

theorem CallStep.hootLaw (step : CallStep l s t) (run : s.running = true) (law : HootLaw s) : HootLaw t := by
  have inside : t.running = true := step.running.trans run
  have group (m : LineId) : (t.line m).group = (s.line m).group := by
    by_cases e : m = l
    · subst e; exact step.group
    · exact LineRec.group_of_bare (step.lines m e)
  refine ⟨?_, fun g m h => ?_, fun _ g m h => ?_, fun g m h => ?_, fun m h => ?_, fun out => ?_, fun out => ?_⟩
  · rw [hootLinesOf_congr step.hoots]; exact law.once
  · rw [step.hoots] at h
    by_cases e : m = l
    · subst e
      rw [step.typed (by rw [law.listed run g m h]; rfl)]
      exact law.type g m h
    · rw [LineRec.type_of_bare (step.lines m e)]
      exact law.type g m h
  · rw [group]; exact law.listed run g m (step.hoots g ▸ h)
  · rw [step.hoots]; exact law.bridged g m (group m ▸ h)
  · by_cases e : m = l
    · subst e; exact step.quiet (law.calls m) h
    · rw [LineRec.state_of_bare (step.lines m e)]
      exact law.calls m (LineRec.type_of_bare (step.lines m e) ▸ h)
  · rw [inside] at out; cases out
  · rw [inside] at out; cases out

/-! ## Most steps: beside the lines, or on one line in RUNNING -/

/-- A step that keeps the laws of the lines without touching a group's hoot lines. -/
inductive CallMove (s t : State) : Prop
  | aside (step : Aside s t)
  | call (l : LineId) (run : s.running = true) (step : CallStep l s t)

theorem CallMove.then (a : CallMove s t) (b : Aside t u) : CallMove s u := by
  cases a with
  | aside step => exact .aside (step.trans b)
  | call l run step => exact .call l run (step.aside b)

theorem CallMove.lineLaw (a : CallMove s t) (law : LineLaw s) : LineLaw t := by
  cases a with
  | aside step => exact step.lineLaw law
  | call l run step => exact step.lineLaw run law

theorem CallMove.hootLaw (a : CallMove s t) (law : HootLaw s) : HootLaw t := by
  cases a with
  | aside step => exact step.hootLaw law
  | call l run step => exact step.hootLaw run law

/-! ## Arrivals and host commands -/

theorem aside_complete (s : State) (st : Status) : Aside s (complete st s) := .of_eq rfl rfl rfl rfl

/-- What a property that survives steps beside the lines has to survive of a host command is its act. -/
theorem runCommand_keeps {P : State → Prop} {c : Instr} {act : State → State × Status}
    (steady : ∀ {u v}, Aside u v → P u → P v) (here : P s) (acts : s.running = true → P (act s).1)
    (next : runCommand c act s = .next t) : P t := by
  unfold runCommand at next
  split at next
  · next holds =>
    cases next
    have run : s.running = true := by
      simp only [State.holds, Bool.and_eq_true] at holds
      obtain ⟨⟨run, -⟩, -⟩ := holds
      exact run
    exact steady (aside_complete (act s).1 (act s).2) (acts run)
  · cases next; exact here

theorem inRunning_keeps {P : State → Prop} {act : State → State} (here : P s) (acts : s.running = true → P (act s))
    (next : inRunning act s = .next t) : P t := by
  unfold inRunning at next
  split at next
  · next run => cases next; exact acts run
  · cases next; exact here

end Sys2Proof.Machine

namespace Sys2Proof.Machine

variable {s t u : State}

/-! # The steps that touch no line -/

/-! ## Shared operations -/

theorem aside_post (e : Event) (s : State) : Aside s (post e s) := .of_eq (by simp) (by simp) (by simp) (by simp)
theorem aside_postAll (es : List Event) (s : State) : Aside s (postAll es s) := .of_eq (by simp) (by simp) (by simp) (by simp)
theorem aside_drain (s : State) : Aside s (drain s) := .of_eq (by simp) (by simp) (by simp) (by simp)
theorem aside_takeHanded (h : Handed) (s : State) : Aside s (takeHanded h s) := .of_eq rfl rfl rfl rfl
theorem aside_requestOwn (p : Purpose) (a : Addr) (d : List Byte) (s : State) : Aside s (requestOwn p a d s) :=
  .of_eq rfl rfl rfl rfl
theorem aside_memoryFault (a : OwnAccess) (s : State) : Aside s (memoryFault a s) := .of_eq (by simp) (by simp) (by simp) (by simp)
theorem aside_faultIf (error : Bool) (a : OwnAccess) (s : State) : Aside s (faultIf error a s) :=
  .of_eq (by simp) (by simp) (by simp) (by simp)

/-- A response takes its access out of flight and does nothing else. -/
theorem takeFlight_aside {which : Purpose → Bool} {k : Nat} {a : OwnAccess} (h : takeFlight which k s = some (a, u)) :
    Aside s u := by
  unfold takeFlight at h
  split at h
  · cases h
  · cases h; exact .of_eq rfl rfl rfl rfl

theorem aside_controlWordWriteResponse (k : Nat) (error : Bool) (s : State) : Aside s (controlWordWriteResponse k error s) := by
  unfold controlWordWriteResponse
  split
  · exact .refl s
  · next back => exact (takeFlight_aside back).trans (aside_faultIf ..)

theorem aside_indexWordWriteResponse (k : Nat) (error : Bool) (s : State) : Aside s (indexWordWriteResponse k error s) := by
  unfold indexWordWriteResponse
  split
  · exact .refl s
  · next back => exact (takeFlight_aside back).trans (aside_faultIf ..)

/-- A step beside the lines, after changes of other parts. -/
theorem Aside.after (b : Aside t u) (lc : t.lc = s.lc) (rc : t.rc = s.rc) (fc : t.fc = s.fc) (ld : t.ld = s.ld) : Aside s u :=
  (Aside.of_eq lc rc fc ld).trans b

/-! ## The Recorder Unit -/

theorem aside_modChan (c : ChanId) (f : Channel → Channel) (s : State) : Aside s (s.modChan c f) := .of_eq rfl rfl rfl rfl
theorem aside_sessionEnd (c : ChanId) (cause : SessionCause) (s : State) : Aside s (sessionEnd c cause s) :=
  .of_eq (by simp) (by simp) (by simp) (by simp)
theorem aside_partyArrival (c : ChanId) (p : PosId) (s : State) : Aside s (partyArrival c p s) := .of_eq rfl rfl rfl rfl

theorem aside_recorderSet (chan : Byte) (baseA ceilA baseB ceilB : Addr) (s : State) :
    Aside s (recorderSet chan baseA ceilA baseB ceilB s).1 := by
  unfold recorderSet
  split
  · exact .refl s
  · split
    · split
      · exact aside_modChan ..
      · exact .refl s
    · exact .refl s

theorem aside_recordReturn (chan buffer : Byte) (s : State) : Aside s (recordReturn chan buffer s).1 := by
  unfold recordReturn
  split
  · split
    · exact .refl s
    · exact aside_modChan ..
  · exact .refl s

theorem aside_recorderFrames (s : State) : Aside s (recorderFrames s) := by
  unfold recorderFrames
  split
  · exact .refl s
  · exact .of_eq (by simp) (by simp) (by simp) (by simp)

theorem aside_sessionSegment (c : ChanId) (s : State) : Aside s (sessionSegment c s) := by
  unfold sessionSegment
  split
  · exact aside_recorderFrames s
  · exact .refl s

theorem aside_logConsumed (v : Word) (s : State) : Aside s (logConsumed v s) := by
  unfold logConsumed
  split
  · exact .of_eq rfl rfl rfl rfl
  · exact .of_eq (by simp) (by simp) (by simp) (by simp)

theorem aside_frameReturned (c : ChanId) (b : Buf) (frame number : Word) (error : Bool) (s : State) :
    Aside s (frameReturned c b frame number error s) := .of_eq (by simp) (by simp) (by simp) (by simp)

theorem aside_frameWriteResponse (k : Nat) (error : Bool) (s : State) : Aside s (frameWriteResponse k error s) := by
  unfold frameWriteResponse
  split
  · exact .refl s
  · next a u back =>
    split
    · exact ((takeFlight_aside back).trans (aside_faultIf ..)).trans (aside_frameReturned ..)
    · exact .refl s

theorem aside_logWriteResponse (k : Nat) (error : Bool) (s : State) : Aside s (logWriteResponse k error s) := by
  unfold logWriteResponse
  split
  · exact .refl s
  · next a u back =>
    have told := (takeFlight_aside back).trans (aside_faultIf error a u)
    dsimp only
    split
    · split
      · exact told.trans (aside_requestOwn ..)
      · exact told
    · exact told.trans (.of_eq (by simp) (by simp) (by simp) (by simp))
    · exact .refl s

/-! ## The Frame Timer and the Mixing Engine -/

theorem aside_frameEvent (s : State) : Aside s (frameEvent s) := .of_eq rfl rfl rfl rfl
theorem aside_reachTime (n : Nat) (s : State) : Aside s (reachTime n s) := .of_eq rfl rfl rfl rfl
theorem aside_takeReference (n good : Nat) (s : State) : Aside s (takeReference n good s) := .of_eq rfl rfl rfl rfl
theorem aside_lock (n : Nat) (s : State) : Aside s (lock n s) :=
  (aside_post ..).after rfl rfl rfl rfl

theorem aside_frameInPulse (n : Nat) (s : State) : Aside s (frameInPulse n s) := by
  refine (aside_reachTime n s).trans ?_
  unfold frameInPulse
  dsimp only
  split
  · exact .of_eq rfl rfl rfl rfl
  · exact aside_takeReference ..
  · split
    · exact aside_takeReference ..
    · split
      · split
        · exact aside_lock ..
        · exact aside_takeReference ..
      · exact aside_takeReference ..

theorem aside_pulseWatchExpiry (s : State) : Aside s (pulseWatchExpiry s) := by
  unfold pulseWatchExpiry
  split
  · exact .refl s
  · next e _ =>
    refine (aside_reachTime e s).trans ?_
    dsimp only
    split
    · exact .of_eq (by simp [frameEvent]) (by simp [frameEvent]) (by simp [frameEvent]) (by simp [frameEvent])
    · exact .of_eq rfl rfl rfl rfl
    · exact .refl _

theorem aside_freewheelExpiry (s : State) : Aside s (freewheelExpiry s) := by
  unfold freewheelExpiry
  split
  · exact .refl s
  · exact .of_eq rfl rfl rfl rfl

theorem aside_timeStep (new : FloorTime) (reason : StepReason) (s : State) : Aside s (timeStep new reason s) :=
  .of_eq (by simp [timeStep]) (by simp [timeStep]) (by simp [timeStep]) (by simp [timeStep])

theorem aside_timeSync (w : BitVec 128) (s : State) : Aside s (timeSync w s) := by
  unfold timeSync
  dsimp only
  split
  · exact (aside_timeStep ..).after rfl rfl rfl rfl
  · split
    · split
      · exact .of_eq rfl rfl rfl rfl
      · exact aside_timeStep ..
    · split
      · exact .of_eq rfl rfl rfl rfl
      · split
        · exact (aside_timeStep ..).after rfl rfl rfl rfl
        · exact .of_eq rfl rfl rfl rfl

theorem aside_frameEventMix (s : State) : Aside s (frameEventMix s) := by
  unfold frameEventMix
  split
  · exact .refl s
  · exact .of_eq rfl rfl rfl rfl

/-! ## The path unit -/

theorem aside_captureBeat (bytes : List (Nat × Byte)) (s : State) : Aside s (captureBeat bytes s) := by
  unfold captureBeat
  split
  · exact .refl s
  · split
    · unfold assemble
      dsimp only
      split <;> exact .of_eq rfl rfl rfl rfl
    · exact .refl s

theorem aside_acceptWrite (x : WriteTxn) (s : State) : Aside s (acceptWrite x s) :=
  ((Aside.of_eq rfl rfl rfl rfl : Aside s (forward (.write x) s)).trans
    (.foldl (fun s b => aside_captureBeat b s) (txnBytes x) _)).trans (.of_eq rfl rfl rfl rfl)

theorem aside_acceptRead (b : Burst) (s : State) : Aside s (acceptRead b s) := by
  unfold acceptRead
  split <;> exact .of_eq rfl rfl rfl rfl

/-- Issuing a line's control word clears its mark, which no law reads. -/
theorem aside_clearMark (a : OwnAccess) (s : State) : Aside s (clearMark a s) := by
  unfold clearMark
  split
  · exact ⟨fun m => by rw [modLine_line]; split <;> simp_all [LineRec.bare], fun _ => rfl, fun _ => rfl, fun _ => rfl, rfl⟩
  · exact .refl s

theorem aside_grantOwn (a : OwnAccess) (s : State) : Aside s (grantOwn a s) :=
  (aside_clearMark a _).after rfl rfl rfl rfl

/-! ## The Talk Floor Controller -/

theorem aside_modGroup (g : GroupId) (f : GroupRec → GroupRec) (s : State)
    (hoots : (f (s.group g)).hootLines = (s.group g).hootLines) : Aside s (s.modGroup g f) :=
  .of_hoots rfl rfl rfl fun h => by
    rw [modGroup_group]
    split
    · next e => rw [← e]; exact hoots
    · rfl

theorem aside_endGroupSession (g : GroupId) (cause : SessionCause) (s : State) : Aside s (endGroupSession g cause s) := by
  unfold endGroupSession
  split
  · exact .refl s
  · exact (aside_sessionEnd ..).trans (aside_modGroup _ _ _ rfl)

theorem aside_startHang (g : GroupId) (s : State) : Aside s (startHang g s) := by
  unfold startHang
  dsimp only
  split
  · exact .refl s
  · split
    · exact aside_modGroup _ _ _ rfl
    · exact aside_endGroupSession ..

theorem aside_hangExpiry (g : GroupId) (s : State) : Aside s (hangExpiry g s) := by
  unfold hangExpiry
  split
  · exact .refl s
  · split
    · exact (aside_modGroup _ _ _ rfl).trans (aside_endGroupSession ..)
    · exact .refl s

theorem aside_grantPlace (g : GroupId) (p : PosId) (standing : Bool) (s : State) : Aside s (grantPlace g p standing s) := by
  have granted := ((aside_modGroup g (fun r => { r with holders := r.holders ++ [⟨p, standing, deadlineIn s r.talkLimit⟩] }) s
    rfl).trans (aside_post (.floorGrant g p) _)).trans (aside_modGroup g (fun r => { r with hangDeadline := none }) _ rfl)
  unfold grantPlace
  dsimp only
  split
  · exact granted
  · exact granted.trans (aside_partyArrival ..)

theorem aside_grantPassN (n : Nat) (g : GroupId) (s : State) : Aside s (grantPassN n g s) := by
  induction n generalizing s with
  | zero => exact .refl s
  | succ n ih =>
    unfold grantPassN
    split
    · exact .refl s
    · split
      · exact ((aside_modGroup _ _ _ rfl).trans (aside_grantPlace ..)).trans (ih _)
      · exact .refl s

theorem aside_grantPass (g : GroupId) (s : State) : Aside s (grantPass g s) := aside_grantPassN ..

theorem aside_allocateGroup {g : GroupId} {parties : List PosId} (h : allocateGroup g parties s = some t) : Aside s t := by
  unfold allocateGroup at h
  cases a : allocate (.group g) parties s with
  | none => rw [a] at h; cases h
  | some x =>
    rw [a] at h
    cases h
    have opened : Aside s x.2 := by rw [allocate_frame a]; exact .of_eq rfl rfl rfl rfl
    exact opened.trans (aside_modGroup _ _ _ rfl)

theorem aside_groupCheck {g : GroupId} {policy : Policy} {parties : List PosId} {st : Status}
    (h : groupCheck g policy parties s = some (t, st)) : Aside s t := by
  unfold groupCheck at h
  split at h
  · cases h; exact .refl s
  · split at h
    · next a => cases h; exact aside_allocateGroup a
    · cases h; exact .refl s
  · obtain ⟨v, a, e⟩ := Option.map_eq_some_iff.1 h
    cases e
    exact aside_allocateGroup a

theorem aside_talkFull (g : GroupId) (p : PosId) (s : State) : Aside s (talkFull g p s).1 := by
  unfold talkFull
  dsimp only
  split
  · exact ((aside_modGroup _ _ _ rfl).trans (aside_post ..)).trans (aside_grantPlace ..)
  · split
    · exact aside_modGroup _ _ _ rfl
    · exact .refl s

theorem aside_talk (pos group : Byte) (s : State) : Aside s (talk pos group s).1 := by
  unfold talk
  split
  · dsimp only
    split_ifs
    · exact .refl s
    · exact .refl s
    · exact .refl s
    · exact .refl s
    · split
      · exact .refl s
      · next check => exact (aside_groupCheck check).trans (aside_grantPlace ..)
    · exact aside_grantPlace ..
    · exact aside_talkFull ..
  · exact .refl s

theorem aside_talkEnd (pos group : Byte) (s : State) : Aside s (talkEnd pos group s).1 := by
  unfold talkEnd
  split
  · dsimp only
    split_ifs
    · exact ((aside_modGroup _ _ _ rfl).trans (aside_grantPass ..)).trans (aside_startHang ..)
    · exact aside_modGroup _ _ _ rfl
    · exact .refl s
  · exact .refl s

theorem aside_queueTimeoutExpiry (g : GroupId) (s : State) : Aside s (queueTimeoutExpiry g s) := by
  unfold queueTimeoutExpiry
  split
  · exact .refl s
  · exact (aside_modGroup _ _ _ rfl).trans (aside_post ..)

theorem aside_talkLimitExpiry (g : GroupId) (s : State) : Aside s (talkLimitExpiry g s) := by
  unfold talkLimitExpiry
  split
  · exact .refl s
  · exact (((aside_modGroup _ _ _ rfl).trans (aside_post ..)).trans (aside_grantPass ..)).trans (aside_startHang ..)

/-! ## The Mix Planner -/

theorem aside_positionSet (pos micPad duck ringLevel recallLevel supervisor : Byte) (s : State) :
    Aside s (positionSet pos micPad duck ringLevel recallLevel supervisor s).1 := by
  unfold positionSet
  split
  · exact .of_eq rfl rfl rfl rfl
  · exact .refl s

theorem aside_speakerSet (pos chan kind subject flags volume : Byte) (s : State) :
    Aside s (speakerSet pos chan kind subject flags volume s).1 := by
  unfold speakerSet
  split
  · exact .of_eq rfl rfl rfl rfl
  · dsimp only
    split
    · exact .refl s
    · split
      · exact .refl s
      · exact .of_eq rfl rfl rfl rfl
  · exact .refl s

/-! ## The Command and Event Unit -/

theorem aside_commandPost (v : Word) (s : State) : Aside s (commandPost v s) := by
  unfold commandPost
  split
  · exact aside_post ..
  · exact .of_eq rfl rfl rfl rfl

theorem aside_commandFetch (s : State) : Aside s (commandFetch s) := by
  unfold commandFetch
  split
  · exact .of_eq rfl rfl rfl rfl
  · exact .refl s

theorem aside_fetched (a : OwnAccess) (error : Bool) (bs : List Byte) (s : State) : Aside s (fetched a error bs s) := by
  have current : Aside s (setCurrent bs s) := .of_eq rfl rfl rfl rfl
  refine current.trans ?_
  unfold fetched
  dsimp only
  split
  · exact (aside_memoryFault ..).trans (aside_complete ..)
  · split
    · exact aside_complete ..
    · exact .of_eq rfl rfl rfl rfl

theorem aside_commandFetchResponse (error : Bool) (slot : Table 32 Byte) (s : State) :
    Aside s (commandFetchResponse error slot s) := by
  unfold commandFetchResponse
  split
  · exact .refl s
  · next a u back =>
    split
    · exact (takeFlight_aside back).trans (aside_fetched ..)
    · exact takeFlight_aside back

theorem aside_eventConsumed (v : Word) (s : State) : Aside s (eventConsumed v s) := by
  unfold eventConsumed
  split
  · exact .of_eq rfl rfl rfl rfl
  · exact (aside_drain _).after rfl rfl rfl rfl

theorem aside_eventWriteResponse (k : Nat) (error : Bool) (s : State) : Aside s (eventWriteResponse k error s) := by
  unfold eventWriteResponse
  split
  · exact .refl s
  · next a u back =>
    have told := (takeFlight_aside back).trans (aside_faultIf error a u)
    dsimp only
    split
    · exact told.trans (aside_requestOwn ..)
    · exact told

theorem aside_writeSnapshot (target : Addr) (bs : List Byte) (s : State) : Aside s (writeSnapshot target bs s) :=
  .foldl (fun s _ => aside_requestOwn _ _ _ s) _ s

theorem aside_snapshotReturned (a : OwnAccess) (error : Bool) (s : State) : Aside s (snapshotReturned a error s) := by
  have told : Aside s { faultIf error a s with cu := { (faultIf error a s).cu with
      snapError := (faultIf error a s).cu.snapError || error } } :=
    (aside_faultIf error a s).trans (.of_eq rfl rfl rfl rfl)
  unfold snapshotReturned
  dsimp only
  split
  · exact told
  · exact told.trans (aside_complete ..)

theorem aside_snapshotWriteResponse (k : Nat) (error : Bool) (s : State) : Aside s (snapshotWriteResponse k error s) := by
  unfold snapshotWriteResponse
  split
  · exact .refl s
  · next back => exact (takeFlight_aside back).trans (aside_snapshotReturned ..)

end Sys2Proof.Machine

namespace Sys2Proof.Machine

variable {s t u : State} {l : LineId}

/-! # The steps on one line's call -/

/-- A step that leaves every handset's binding and every other line and ring alone. -/
theorem LineStep.of_lines (lines : OnlyLine l s t) (rings : ∀ m, m ≠ l → t.ring m = s.ring m)
    (handsets : ∀ h, t.handset h = s.handset h) (ld : t.ld = s.ld) (ok : LineOk t l) : LineStep l s t :=
  ⟨fun m h => by rw [lines m h], fun m h => by rw [rings m h], fun h m _ => by rw [handsets], ok, ld⟩

/-- The line laws of a line with no call: IDLE or OUT_OF_SERVICE, its record empty. -/
theorem LineOk.of_empty (bound : ∀ h, (t.handset h).binding ≠ some l) (owners : (t.line l).owners = [])
    (heldBy : (t.line l).heldBy = none) (deadline : (t.line l).recallDeadline = none) (group : (t.line l).group = none)
    (ring : t.ring l = none) (missed : (t.line l).missed ≤ Config.missedMax)
    (state : (t.line l).state = .idle ∨ (t.line l).state = .outOfService) : LineOk t l := by
  refine ⟨fun h => ?_, ?_, ?_, ?_, ?_, ?_, ?_, ?_, missed⟩
  · simp [owners, bound h]
  · simp [owners]
  · rcases state with e | e <;> simp [owners, e]
  · simp [owners]
  · rcases state with e | e <;> simp [heldBy, e]
  · simp [deadline]
  · rcases state with e | e <;> simp [group, e]
  · rcases state with e | e <;> simp [ring, e]

section
variable (ok : LineOk s l)
include ok

theorem LineOk.no_owners (off : (s.line l).state ≠ .connected) : (s.line l).owners = [] :=
  Classical.not_not.1 fun x => off (ok.owned.1 x)
theorem LineOk.not_held (off : (s.line l).state ≠ .held) : (s.line l).heldBy = none :=
  Option.not_isSome_iff_eq_none.1 fun x => off (ok.held.1 x)
theorem LineOk.no_deadline (off : (s.line l).state ≠ .held) : (s.line l).recallDeadline = none :=
  Option.not_isSome_iff_eq_none.1 fun x => off (ok.timed x)
theorem LineOk.no_group (off : (s.line l).state ≠ .bridged) : (s.line l).group = none :=
  Option.not_isSome_iff_eq_none.1 fun x => off (ok.bridged.1 x)
theorem LineOk.no_ring (off : (s.line l).state ≠ .ringing) : s.ring l = none :=
  Option.not_isSome_iff_eq_none.1 fun x => off (ok.rings.1 x)
theorem LineOk.unbound (off : (s.line l).state ≠ .connected) (h : Handset) : (s.handset h).binding ≠ some l := fun x => by
  simpa [ok.no_owners off] using (ok.bound h).1 x

end

/-! ## Rings begin (R4, R7) -/

/-- An IDLE line goes on to RINGING. -/
theorem enterRinging_step (ok : LineOk s l) (idle : (s.line l).state = .idle) (call : (s.line l).type ≠ .hoot) :
    CallStep l s (enterRinging l s) := by
  have line : (enterRinging l s).line l = (s.line l).entered .ringing := by rw [enterRinging_line, if_pos rfl]
  have handset (h : Handset) : (enterRinging l s).handset h = s.handset h := by simp
  have owners := ok.no_owners (by simp [idle])
  refine ⟨.of_lines (fun m h => by rw [enterRinging_line, if_neg (Ne.symm h)])
    (fun m h => by rw [enterRinging_ring, if_neg (Ne.symm h)]) handset (by simp)
    ⟨fun h => ?_, ?_, ?_, ?_, ?_, ?_, ?_, ?_, ?_⟩, fun g => by simp, by rw [line]; rfl, fun _ => by rw [line]; rfl,
    fun _ hoot => absurd (by rwa [line] at hoot) call⟩
  · rw [handset, line]; exact ok.bound h
  · rw [line]; exact ok.once
  · simp [line, owners]
  · rw [line]; exact ok.places
  · simp [line, ok.not_held (by simp [idle])]
  · simp [line, ok.no_deadline (by simp [idle])]
  · simp [line, ok.no_group (by simp [idle])]
  · simp [line, enterRinging_ring]
  · rw [line]; exact ok.missed

/-- The level rule (R4). -/
theorem levelRule_step (ok : LineOk s l) : CallStep l s (levelRule l s) ∨ levelRule l s = s := by
  unfold levelRule
  dsimp only
  split
  · next rings => exact .inl (enterRinging_step ok rings.2.1 rings.1)
  · exact .inr rfl

theorem CallStep.level (step : CallStep l s t) : CallStep l s (levelRule l t) := by
  rcases levelRule_step step.ok with next | same
  · exact step.trans next
  · rw [same]; exact step

/-! ## Lines with no call: settings and service (R23, R24) -/

/-- A line with no call takes LINE_SET's settings. -/
theorem withSettings_step (ok : LineOk s l) (state : (s.line l).state = .idle ∨ (s.line l).state = .outOfService)
    (ty : LineType) (pad : Byte) (pref : Option PosId) (delay : Byte) (pol : Policy) (recall_ : Half) :
    CallStep l s (s.modLine l (LineRec.withSettings ty pad pref delay pol recall_)) := by
  have line := modLine_line_self s l (LineRec.withSettings ty pad pref delay pol recall_)
  have off : (s.line l).state ≠ .bridged := by rcases state with e | e <;> simp [e]
  refine ⟨.of_lines (fun m h => by simp [Ne.symm h]) (fun _ _ => rfl) (fun _ => rfl) rfl ?_, fun _ => rfl,
    by rw [line]; rfl, fun bridged => absurd (ok.bridged.1 bridged) off, fun _ _ => ?_⟩
  · refine ⟨fun h => ?_, ?_, ?_, ?_, ?_, ?_, ?_, ?_, ?_⟩ <;> rw [line]
    · exact ok.bound h
    · exact ok.once
    · exact ok.owned
    · exact ok.places
    · exact ok.held
    · exact ok.timed
    · exact ok.bridged
    · exact ok.rings
    · exact ok.missed
  · rw [line]
    rcases state with e | e
    · exact .inr (.inl e)
    · exact .inl e

/-- A line with no call goes into service or out of it. -/
theorem service_step (ok : LineOk s l) (state : (s.line l).state = .idle ∨ (s.line l).state = .outOfService)
    {st : LineState} (after : st = .idle ∨ st = .outOfService) (cause : LineCause) :
    CallStep l s (setLineState l st cause s) := by
  have line := setLineState_line_self s l st cause
  have away {x : LineState} (i : x ≠ .idle) (o : x ≠ .outOfService) : (s.line l).state ≠ x := by
    rcases state with e | e <;> rw [e] <;> exact Ne.symm ‹_›
  have group := ok.no_group (away nofun nofun)
  refine ⟨.of_lines (setLineState_onlyLine s l st cause) (fun m _ => by simp) (fun h => by simp) (by simp)
    (.of_empty (fun h => ?_) ?_ ?_ ?_ ?_ ?_ ?_ ?_), fun g => by simp, by rw [line]; rfl,
    fun _ => by rw [line]; rfl, fun _ _ => ?_⟩
  · simpa using ok.unbound (away nofun nofun) h
  · rw [line]; exact ok.no_owners (away nofun nofun)
  · rw [line]; exact ok.not_held (away nofun nofun)
  · rw [line]; exact ok.no_deadline (away nofun nofun)
  · rw [line]; exact group
  · simpa using ok.no_ring (away nofun nofun)
  · rw [line]; exact ok.missed
  · rw [line]; exact after
  · rw [line]
    rcases after with e | e
    · exact .inr (.inl e)
    · exact .inl e

/-! ## Clearing (R3) -/

theorem clearedLine_step (ok : LineOk s l) (off : (s.line l).state ≠ .bridged) {st : LineState}
    (after : st = .idle ∨ st = .outOfService) (cause : LineCause) : CallStep l s (clearedLine s l cause st) := by
  have line : (clearedLine s l cause st).line l = (s.line l).cleared st := by rw [clearedLine_line, if_pos rfl]
  have freed (h : Handset) := clearedLine_handset s l cause st h
  have state : ((clearedLine s l cause st).line l).state = st := by rw [line]; rfl
  have group := ok.no_group off
  have fc : (clearedLine s l cause st).fc = s.fc := by simp [clearedLine, emptyLine]
  have ring : (clearedLine s l cause st).ring l = none := by
    rw [clearedLine_ring]
    split
    · rfl
    · next other => exact ok.no_ring fun e => other ⟨rfl, e⟩
  refine ⟨⟨fun m h => by rw [clearedLine_line, if_neg (Ne.symm h)],
    fun m h => by rw [clearedLine_ring, if_neg fun x => h x.1.symm], fun h m other => ?_,
    .of_empty (fun h bound => ?_) (by rw [line]; rfl) (by rw [line]; rfl) (by rw [line]; rfl) (by rw [line]; exact group) ring
      (by rw [line]; exact ok.missed) (by rw [state]; exact after), by simp [clearedLine, emptyLine]⟩,
    fun g => by rw [State.group, fc]; rfl, by rw [line]; rfl, fun _ => by rw [line]; rfl, fun _ _ => ?_⟩
  · rw [freed]
    split
    · next owner => simp [(ok.bound h).2 owner, Ne.symm other]
    · rfl
  · rw [freed] at bound
    split at bound
    · cases bound
    · next stranger => exact stranger ((ok.bound h).1 bound)
  · rw [state]
    rcases after with e | e
    · exact .inr (.inl e)
    · exact .inl e

theorem clearLine_step (ok : LineOk s l) (off : (s.line l).state ≠ .bridged) {st : LineState}
    (after : st = .idle ∨ st = .outOfService) (cause : LineCause) : CallStep l s (clearLine l cause st s) := by
  rw [clearLine_eq]
  exact (clearedLine_step ok off after cause).level

end Sys2Proof.Machine

namespace Sys2Proof.Machine

variable {s t u : State} {l : LineId} {h : Handset}

/-! # The commands and arrivals on one line, under the line laws -/

/-- An update of a line's record that none of the laws reads. -/
theorem modLine_step (ok : LineOk s l) {f : LineRec → LineRec} (type : (f (s.line l)).type = (s.line l).type)
    (state : (f (s.line l)).state = (s.line l).state) (owners : (f (s.line l)).owners = (s.line l).owners)
    (heldBy : (f (s.line l)).heldBy = (s.line l).heldBy) (deadline : (f (s.line l)).recallDeadline = (s.line l).recallDeadline)
    (group : (f (s.line l)).group = (s.line l).group) (missed : (f (s.line l)).missed ≤ Config.missedMax) :
    CallStep l s (s.modLine l f) := by
  have line := modLine_line_self s l f
  refine ⟨.of_lines (fun m hm => modLine_line_ne s l m f (Ne.symm hm)) (fun _ _ => rfl) (fun _ => rfl) rfl
    ⟨fun k => ?_, ?_, ?_, ?_, ?_, ?_, ?_, ?_, ?_⟩, fun _ => rfl, by rw [line, group], fun _ => by rw [line, type], fun quiet => ?_⟩
  · rw [line, owners]; exact ok.bound k
  · rw [line, owners]; exact ok.once
  · rw [line, owners, state]; exact ok.owned
  · rw [line, owners]; exact ok.places
  · rw [line, heldBy, state]; exact ok.held
  · rw [line, deadline, state]; exact ok.timed
  · rw [line, group, state]; exact ok.bridged
  · rw [line, state]; exact ok.rings
  · rw [line]; exact missed
  · rw [Quiet, line, type, state]; exact quiet

/-! ## SEIZE (R11 to R16) -/

/-- A free handset comes onto a line, behind the owners it has. -/
theorem Binds.callStep (binds : Binds h l s t) (ok : LineOk s l) (free : (s.handset h).binding = none)
    (call : (s.line l).type ≠ .hoot) (off : (s.line l).state ≠ .bridged) (room : (s.line l).owners.length < Config.ownerPlaces)
    (rings : t.ring l = none ∧ ∀ m, m ≠ l → t.ring m = s.ring m) (type : (t.line l).type = (s.line l).type)
    (state : (t.line l).state = .connected) (owners : (t.line l).owners = (s.line l).owners ++ [h])
    (heldBy : (t.line l).heldBy = none) (deadline : (t.line l).recallDeadline = none)
    (group : (t.line l).group = (s.line l).group) (missed : (t.line l).missed = (s.line l).missed) : CallStep l s t := by
  have stranger : h ∉ (s.line l).owners := fun owner => by simp [(ok.bound h).2 owner] at free
  have alone := ok.no_group off
  refine ⟨⟨fun m hm => by rw [binds.lines m hm], fun m hm => by rw [rings.2 m hm], fun k m hm => ?_,
    ⟨fun k => ?_, ?_, ?_, ?_, ?_, ?_, ?_, ?_, ?_⟩, binds.frame.ld⟩, fun g => by rw [State.group, binds.frame.fc]; rfl, group,
    fun _ => type, fun _ hoot => absurd (type ▸ hoot) call⟩
  · rw [binds.handset]
    split
    · next e => subst e; simp [free, Ne.symm hm]
    · rfl
  · rw [binds.handset, owners]
    split
    · next e => simp [e]
    · next e => rw [ok.bound]; simp [e]
  · rw [owners]
    exact List.nodup_append.2 ⟨ok.once, List.nodup_singleton h, fun a ha b hb => by
      rw [List.mem_singleton.1 hb]; exact fun e => stranger (e ▸ ha)⟩
  · simp [owners, state]
  · simpa [owners] using room
  · simp [heldBy, state]
  · simp [deadline]
  · simp [group, alone, state]
  · simp [rings.1, state]
  · rw [missed]; exact ok.missed

/-- The recorder check changes the line's recorder and the Recorder Unit alone. -/
theorem recorderCheck_given {p : PosId} {v : State} {st : Status} (check : recorderCheck l p s = some (v, st)) :
    ∃ ru rec_, v = recorderGiven s l ru rec_ := by
  have taken {c : ChanId} {x : State} (a : allocate (.line l) [p] s = some (c, x)) :
      (x.modLine l fun r => { r with recorder := some c }) = recorderGiven s l x.ru (some c) := by
    rw [allocate_frame a]; rfl
  unfold recorderCheck at check
  split at check
  · cases check; exact ⟨_, _, (recorderGiven_same s l).symm⟩
  all_goals split at check
  · next a => cases check; exact ⟨_, _, taken a⟩
  · cases check; exact ⟨_, _, (recorderGiven_same s l).symm⟩
  · next a => cases check; exact ⟨_, _, taken a⟩
  · cases check

theorem aside_lineParty (l : LineId) (p : PosId) (s : State) : Aside s (lineParty l p s) := by
  unfold lineParty
  split
  · exact .refl s
  · exact aside_partyArrival ..

section
variable (ok : LineOk s l) (run : s.running = true) (free : (s.handset h).binding = none) (call : (s.line l).type ≠ .hoot)
include ok free call

/-- What both kinds of answer share (R13). -/
theorem answer_step (state : (s.line l).state = .ringing) (ru : RecUnit) (rec_ : Option ChanId) :
    CallStep l s (takeLine h l .answered (endRing l .answered (some h.pos) (recorderGiven s l ru rec_))) := by
  have ends : Binds h l (recorderGiven s l ru rec_)
      (takeLine h l .answered (endRing l .answered (some h.pos) (recorderGiven s l ru rec_))) :=
    (takeLine_binds _ h l .answered).after (fun k => endRing_handset ..) (fun m _ => endRing_line ..) (callFrame_endRing ..)
  have owners := ok.no_owners (by simp [state])
  have line : (takeLine h l .answered (endRing l .answered (some h.pos) (recorderGiven s l ru rec_))).line l = _ :=
    (takeLine_line ..).trans (if_pos rfl)
  rw [endRing_line] at line
  have ring (m : LineId) : (takeLine h l .answered (endRing l .answered (some h.pos) (recorderGiven s l ru rec_))).ring m =
      if l = m then none else s.ring m := by
    rw [State.ring, takeLine_rc]
    exact endRing_ring ..
  refine (recorderGiven_binds ends).callStep ok free call (by simp [state]) (by simp [owners, Config.ownerPlaces])
    ⟨by rw [ring, if_pos rfl], fun m hm => by rw [ring, if_neg (Ne.symm hm)]⟩ ?_ ?_ ?_ ?_ ?_ ?_ ?_
  all_goals rw [line]; simp
  · exact owners
  · exact ok.not_held (by simp [state])
  · exact ok.no_deadline (by simp [state])

include run

theorem seizeIdle_move (state : (s.line l).state = .idle) : CallMove s (seizeIdle h l s).1 := by
  unfold seizeIdle
  cases check : recorderCheck l h.pos s with
  | none => exact .aside (.refl s)
  | some x =>
    obtain ⟨v, st⟩ := x
    obtain ⟨ru, rec_, rfl⟩ := recorderCheck_given check
    have binds := recorderGiven_binds (takeLine_binds (recorderGiven s l ru rec_) h l .seized)
    have owners := ok.no_owners (by simp [state])
    have line : (takeLine h l .seized (recorderGiven s l ru rec_)).line l = _ := (takeLine_line ..).trans (if_pos rfl)
    refine .call l run (binds.callStep ok free call (by simp [state]) (by simp [owners, Config.ownerPlaces]) ⟨?_, fun m _ => ?_⟩
      ?_ ?_ ?_ ?_ ?_ ?_ ?_)
    · rw [State.ring, takeLine_rc]; exact ok.no_ring (by simp [state])
    · rw [State.ring, takeLine_rc]; rfl
    all_goals rw [line]; simp
    · exact owners
    · exact ok.not_held (by simp [state])
    · exact ok.no_deadline (by simp [state])

theorem seizeRinging_move (state : (s.line l).state = .ringing) : CallMove s (seizeRinging h l s).1 := by
  unfold seizeRinging
  split
  · exact .aside (.refl s)
  · split_ifs
    · exact .aside (.refl s)
    · have step := answer_step ok free call state s.ru (s.line l).recorder
      rw [recorderGiven_same] at step
      exact .call l run (step.aside (aside_lineParty ..))
    · cases check : recorderCheck l h.pos s with
      | none => exact .aside (.refl s)
      | some x =>
        obtain ⟨v, st⟩ := x
        obtain ⟨ru, rec_, rfl⟩ := recorderCheck_given check
        exact .call l run (answer_step ok free call state ru rec_)

theorem seizeConnected_move (state : (s.line l).state = .connected) : CallMove s (seizeConnected h l s).1 := by
  unfold seizeConnected
  dsimp only
  split_ifs with priv full
  · exact .aside (.refl s)
  · exact .aside (.refl s)
  · have binds : Binds h l s ((bindHandset h l s).modLine l fun r => { r with owners := r.owners ++ [h] }) :=
      ⟨fun k => bindHandset_handset s h k l, fun m hm => modLine_line_ne _ l m _ (Ne.symm hm),
        rfl, rfl, rfl, rfl, rfl, rfl, rfl, rfl, rfl⟩
    have line : ((bindHandset h l s).modLine l fun r => { r with owners := r.owners ++ [h] }).line l = _ := modLine_line_self ..
    refine .call l run ((binds.callStep ok free call (by simp [state]) (Nat.not_le.1 full)
      ⟨ok.no_ring (by simp [state]), fun _ _ => rfl⟩ ?_ ?_ ?_ ?_ ?_ ?_ ?_).aside (aside_lineParty ..))
    all_goals rw [line]; simp [bindHandset]
    · exact state
    · exact ok.not_held (by simp [state])
    · exact ok.no_deadline (by simp [state])

theorem seizeHeld_move (state : (s.line l).state = .held) : CallMove s (seizeHeld h l s).1 := by
  unfold seizeHeld
  dsimp only
  split_ifs
  · exact .aside (.refl s)
  · have binds : Binds h l s (takeLine h l .retrieved (s.modLine l fun r => { r with recallDeadline := none, heldBy := none })) :=
      (takeLine_binds _ h l .retrieved).after (fun _ => rfl) (fun m hm => modLine_line_ne s l m _ (Ne.symm hm))
        ⟨rfl, rfl, rfl, rfl, rfl, rfl, rfl, rfl, rfl⟩
    have line : (takeLine h l .retrieved (s.modLine l fun r => { r with recallDeadline := none, heldBy := none })).line l = _ :=
      (takeLine_line ..).trans (if_pos rfl)
    have owners := ok.no_owners (by simp [state])
    refine .call l run ((binds.callStep ok free call (by simp [state]) (by simp [owners, Config.ownerPlaces])
      ⟨?_, fun m _ => ?_⟩ ?_ ?_ ?_ ?_ ?_ ?_ ?_).aside (aside_lineParty ..))
    · rw [State.ring, takeLine_rc]; exact ok.no_ring (by simp [state])
    · rw [State.ring, takeLine_rc]; rfl
    all_goals rw [line]; simp
    · exact owners

end

theorem seize_move (law : LineLaw s) (run : s.running = true) (pos side line : Byte) : CallMove s (seize pos side line s).1 := by
  unfold seize
  split
  · next h l _ _ =>
    dsimp only
    split_ifs with appears bound out bridged
    iterate 4 exact .aside (.refl s)
    have free : (s.handset h).binding = none := by simpa using bound
    have call : (s.line l).type ≠ .hoot := fun e => bridged (.inr e)
    split
    · next state => exact seizeIdle_move (law.ok l) run free call state
    · next state => exact seizeRinging_move (law.ok l) run free call state
    · next state => exact seizeConnected_move (law.ok l) run free call state
    · next state => exact seizeHeld_move (law.ok l) run free call state
    · exact .aside (.refl s)
    · exact .aside (.refl s)
  · exact .aside (.refl s)

end Sys2Proof.Machine

namespace Sys2Proof.Machine

variable {s t u : State} {l : LineId} {h : Handset}

/-! ## RELEASE, HOLD and PRIVACY (R18, R19, R21) -/

/-- A handset argument names a line only if the handset is bound to it. -/
theorem boundLine_ok {pos side : Byte} (named : boundLine pos side s = .ok (h, l)) : (s.handset h).binding = some l := by
  unfold boundLine at named
  split at named
  · cases named
  · split at named
    · cases named
    · next bound => cases named; exact bound

/-- A line with an owner is CONNECTED. -/
theorem LineOk.connected (ok : LineOk s l) (bound : (s.handset h).binding = some l) : (s.line l).state = .connected :=
  ok.owned.1 (List.ne_nil_of_mem ((ok.bound h).1 bound))

/-- One of several owners leaves the line. -/
theorem leaveLine_step (ok : LineOk s l) (bound : (s.handset h).binding = some l)
    (stays : ((leaveLine h l s).line l).owners ≠ []) : CallStep l s (leaveLine h l s) := by
  have state := ok.connected bound
  have line : (leaveLine h l s).line l = { s.line l with owners := (s.line l).owners.filter (· != h) } := by
    rw [leaveLine_line, if_pos rfl]
  refine ⟨⟨fun m hm => by rw [leaveLine_line, if_neg (Ne.symm hm)], fun _ _ => rfl, fun k m hm => ?_,
    ⟨fun k => ?_, ?_, ?_, ?_, ?_, ?_, ?_, ?_, ?_⟩, rfl⟩, fun _ => rfl, by rw [line], fun _ => by rw [line], fun quiet hoot => ?_⟩
  · rw [leaveLine_handset]
    split
    · next e => subst e; simp [bound, Ne.symm hm]
    · rfl
  · rw [leaveLine_handset, line]
    split
    · next e => simp [e]
    · next e => rw [ok.bound]; simp [e]
  · rw [line]; exact ok.once.filter _
  · simpa [line, state] using stays
  · rw [line]; exact (List.length_filter_le ..).trans ok.places
  · rw [line]; exact ok.held
  · rw [line]; exact ok.timed
  · rw [line]; exact ok.bridged
  · rw [line]; exact ok.rings
  · rw [line]; exact ok.missed
  · rw [line] at hoot ⊢; exact quiet hoot

/-- Where a handset's leaving empties the owner list, it was the sole owner. -/
theorem LineOk.sole (ok : LineOk s l) (bound : (s.handset h).binding = some l)
    (gone : ((leaveLine h l s).line l).owners = []) : (s.line l).owners = [h] := by
  rw [leaveLine_line, if_pos rfl, List.filter_eq_nil_iff] at gone
  have only : ∀ k ∈ (s.line l).owners, k = h := fun k hk => by simpa using gone k hk
  have all := List.eq_replicate_of_mem only
  have owner := (ok.bound h).1 bound
  have once := ok.once
  rw [all] at once owner ⊢
  match n : (s.line l).owners.length with
  | 0 => simp [n] at owner
  | 1 => rfl
  | n' + 2 => rw [n] at once; simp [List.replicate_succ] at once

theorem release_move (law : LineLaw s) (run : s.running = true) (pos side : Byte) : CallMove s (release pos side s).1 := by
  unfold release
  split
  · exact .aside (.refl s)
  · next h l named =>
    have bound := boundLine_ok named
    dsimp only
    split_ifs with gone
    · rw [clearLine_leaveLine ((law.ok l).sole bound gone)]
      exact .call l run (clearLine_step (law.ok l) (by simp [(law.ok l).connected bound]) (.inl rfl) _)
    · exact .call l run (leaveLine_step (law.ok l) bound gone)

/-- The sole owner puts the line on hold. -/
theorem holdLine_step (ok : LineOk s l) (owners : (s.line l).owners = [h]) : CallStep l s (holdLine h l s) := by
  have bound : (s.handset h).binding = some l := (ok.bound h).2 (by simp [owners])
  have state := ok.connected bound
  have line : (holdLine h l s).line l = { s.line l with
      state := .held, owners := [], heldBy := some h.pos, recallDeadline := ahead s (s.line l).recallTime } := by
    simp [holdLine, leaveLine_line, LineRec.entered, nearEndMoves, state, owners, LineState.nearEnd]
  have handset (k : Handset) : (holdLine h l s).handset k = if k = h then { s.handset h with binding := none } else s.handset k := by
    simp [holdLine, leaveLine_handset]
  have ring (m : LineId) : (holdLine h l s).ring m = s.ring m := by simp [holdLine, leaveLine, freeHandset]
  refine ⟨⟨fun m hm => ?_, fun m _ => by rw [ring], fun k m hm => ?_, ⟨fun k => ?_, ?_, ?_, ?_, ?_, ?_, ?_, ?_, ?_⟩, ?_⟩,
    fun g => ?_, by rw [line], fun _ => by rw [line], fun quiet hoot => ?_⟩
  · simp [holdLine, setLineState_line, leaveLine_line, Ne.symm hm]
  · rw [handset]
    split
    · next e => subst e; simp [bound, Ne.symm hm]
    · rfl
  · rw [handset, line]
    split
    · simp
    · next e => rw [ok.bound, owners]; simp [e]
  · simp [line]
  · simp [line]
  · simp [line]
  · simp [line]
  · simp [line]
  · simp [line, ok.no_group (by simp [state])]
  · simp [line, ring, ok.no_ring (by simp [state])]
  · rw [line]; exact ok.missed
  · simp [holdLine, leaveLine, freeHandset]
  · simp [holdLine, leaveLine, freeHandset]
  · rw [line] at hoot
    have := quiet hoot
    simp [state] at this

theorem hold_move (law : LineLaw s) (run : s.running = true) (pos side : Byte) : CallMove s (hold pos side s).1 := by
  unfold hold
  split
  · exact .aside (.refl s)
  · next h l named =>
    have owner := ((law.ok l).bound h).1 (boundLine_ok named)
    dsimp only
    split_ifs with shared ahead_
    · exact .aside (.refl s)
    all_goals
      obtain ⟨k, owners⟩ : ∃ k, (s.line l).owners = [k] :=
        List.length_eq_one_iff.1 (by have := List.length_pos_of_mem owner; omega)
      have : k = h := by simpa [owners, eq_comm] using owner
      subst this
      have step := holdLine_step (law.ok l) owners
      rw [holdLine, ← ahead_eq] at step
      simp only [ahead_, if_true, if_false] at step
      exact .call l run step

theorem privacy_move (law : LineLaw s) (run : s.running = true) (pos side value : Byte) :
    CallMove s (privacy pos side value s).1 := by
  unfold privacy
  split
  · exact .aside (.refl s)
  · split
    · exact .aside (.refl s)
    · next h l _ => exact .call l run (modLine_step (law.ok l) rfl rfl rfl rfl rfl rfl (law.ok l).missed)

/-! ## Maintenance commands (R22 to R26) -/

theorem forceClear_move (law : LineLaw s) (run : s.running = true) (line : Byte) : CallMove s (forceClear line s).1 := by
  unfold forceClear
  split
  · exact .aside (.refl s)
  · next l _ =>
    have clears (off : (s.line l).state ≠ .bridged) : CallMove s (clearLine l .forced .idle s) :=
      .call l run (clearLine_step (law.ok l) off (.inl rfl) .forced)
    split
    · exact .aside (.refl s)
    · next state => dsimp only; exact clears (by simp [state])
    · next state => dsimp only; exact clears (by simp [state])
    · next state => dsimp only; exact clears (by simp [state])
    · exact .aside (.refl s)
    · exact .aside (.refl s)

theorem lineSet_move (law : LineLaw s) (run : s.running = true) (line type pad preferred ringDelay policy : Byte)
    (recallTime : Half) : CallMove s (lineSet line type pad preferred ringDelay policy recallTime s).1 := by
  unfold lineSet
  split
  · next l ty pref pol _ _ _ _ =>
    split
    · next state => exact .call l run (withSettings_step (law.ok l) state ty pad pref ringDelay pol recallTime).level
    · exact .aside (.refl s)
  · exact .aside (.refl s)

/-- LINE_SERVICE but for a line that leaves its group. -/
theorem lineService_move (law : LineLaw s) (run : s.running = true) (line dir : Byte) :
    CallMove s (lineService line dir s).1 ∨ ∃ l, (s.line l).state = .bridged ∧ (lineService line dir s).1 = bridgedOut l s := by
  unfold lineService
  split
  · next l _ _ =>
    split
    · next out => exact .inl (.call l run (service_step (law.ok l) (.inr out) (.inl rfl) .inService).level)
    · exact .inl (.aside (.refl s))
  · next l _ _ =>
    have clears (off : (s.line l).state ≠ .bridged) : CallMove s (clearLine l .outOfService .outOfService s) :=
      .call l run (clearLine_step (law.ok l) off (.inr rfl) .outOfService)
    split
    · exact .inl (.aside (.refl s))
    · next idle => exact .inl (.call l run (service_step (law.ok l) (.inl idle) (.inr rfl) .outOfService))
    · next state => dsimp only; exact .inl (clears (by simp [state]))
    · next state => dsimp only; exact .inl (clears (by simp [state]))
    · next state => dsimp only; exact .inl (clears (by simp [state]))
    · next state => exact .inr ⟨l, state, rfl⟩
  · exact .inl (.aside (.refl s))

theorem aside_handsetSet (pos side volume micPad : Byte) (s : State) : Aside s (handsetSet pos side volume micPad s).1 := by
  unfold handsetSet
  split
  · exact .refl s
  · exact ⟨fun _ => rfl, fun _ => rfl, fun k => by rw [modHandset_handset]; split <;> simp_all, fun _ => rfl, rfl⟩

/-- A step of the Ring Presenter that neither starts nor ends a ring. -/
theorem Aside.of_rings (lc : t.lc = s.lc) (fc : t.fc = s.fc) (ld : t.ld = s.ld)
    (rings : ∀ m, (t.ring m).isSome = (s.ring m).isSome) : Aside s t :=
  ⟨fun l => by rw [State.line, lc]; rfl, rings, fun h => by rw [State.handset, lc]; rfl, fun g => by rw [State.group, fc]; rfl, ld⟩

theorem aside_widen {r : RingRec} (ring : s.ring l = some r) (reason : PhaseReason) : Aside s (widen l reason r s) := by
  refine .of_rings (by simp) (by simp) (by simp) fun m => ?_
  by_cases e : m = l
  · subst e; rw [(widen_moves s m reason r).ring, ring]; rfl
  · rw [(widen_moves s l reason r).others m e]

/-- A ring's presentation set changes. -/
theorem aside_setRing {r x : RingRec} (ring : s.ring l = some r) : Aside s (s.setRing l (some x)) := by
  refine .of_rings rfl rfl rfl fun m => ?_
  rw [setRing_ring]
  split
  · next e => rw [← e, ring]; rfl
  · rfl

theorem aside_dropShown (b : Bool) (p : PosId) (s : State) : Aside s (dropShown b p s) :=
  .of_rings (by simp) (by simp) (by simp) fun m => by simp
theorem aside_addShown (b : Bool) (p : PosId) (s : State) : Aside s (addShown b p s) :=
  .of_rings (by simp) (by simp) (by simp) fun m => by simp

theorem aside_lineRemoved (p : PosId) (l : LineId) (s : State) : Aside s (lineRemoved p l s) := by
  unfold lineRemoved
  split
  · exact .refl s
  · next r ring =>
    split
    · split
      · exact aside_widen ring _
      · exact .refl s
    · split
      · exact (aside_setRing ring).trans (aside_dropShown ..)
      · exact .refl s
    · exact .refl s

theorem aside_lineAdded (p : PosId) (l : LineId) (s : State) : Aside s (lineAdded p l s) := by
  unfold lineAdded
  split
  · exact .refl s
  · next r ring =>
    split
    · split
      · exact .refl s
      · exact (aside_setRing ring).trans (aside_addShown ..)
    · exact .refl s
    · exact .refl s

theorem aside_appearSet (pos key line : Byte) (s : State) : Aside s (appearSet pos key line s).1 := by
  unfold appearSet
  split
  · next p k new _ _ _ =>
    have keyed : Aside s (s.setKey p k new) := ⟨fun _ => rfl, fun _ => rfl, fun _ => rfl, fun _ => rfl, rfl⟩
    have removed (o : Option LineId) (v : State) : Aside v (toldRemoved p o v) := by
      cases o with
      | none => exact .refl v
      | some o => exact aside_lineRemoved p o v
    have added (o : Option LineId) (v : State) : Aside v (toldAdded p o v) := by
      cases o with
      | none => exact .refl v
      | some o => exact aside_lineAdded p o v
    have all := (keyed.trans (removed ((s.map p).get k) _)).trans (added new _)
    dsimp only
    split_ifs
    · exact .refl s
    · exact .refl s
    · exact .refl s
    · cases new <;> cases old : (s.map p).get k <;> rw [old] at all <;> exact all
  · exact .refl s

theorem aside_ringDelayExpiry (l : LineId) (s : State) : Aside s (ringDelayExpiry l s) := by
  unfold ringDelayExpiry
  split
  · exact .refl s
  · next r ring =>
    split
    · split
      · exact aside_widen ring _
      · exact .refl s
    · exact .refl s

end Sys2Proof.Machine

namespace Sys2Proof.Machine

variable {s t u : State} {l : LineId}

/-! ## Signal words (R5 to R7) and hold recall (R20) -/

theorem CallStep.refl (ok : LineOk s l) : CallStep l s s where
  toLineStep := ⟨fun _ _ => rfl, fun _ _ => rfl, fun _ _ _ => .rfl, ok, rfl⟩
  hoots _ := rfl
  group := rfl
  typed _ := rfl
  quiet := id

/-- A ring ends ABANDONED. -/
theorem abandonRing_step (ok : LineOk s l) (state : (s.line l).state = .ringing) : CallStep l s (abandonRing l s) := by
  have line : (abandonRing l s).line l = { (s.line l).entered .idle with missed := min ((s.line l).missed + 1) 65535 } := by
    rw [abandonRing_line, if_pos rfl]
  have ring (m : LineId) : (abandonRing l s).ring m = if l = m then none else s.ring m := by
    simp [abandonRing, endRing_ring]
  have handset (h : Handset) : (abandonRing l s).handset h = s.handset h := by simp [abandonRing]
  refine ⟨.of_lines (fun m hm => by rw [abandonRing_line, if_neg (Ne.symm hm)]) (fun m hm => by rw [ring, if_neg (Ne.symm hm)])
    handset (by simp [abandonRing]) (.of_empty (fun h => ?_) ?_ ?_ ?_ ?_ ?_ ?_ ?_), fun g => by simp [abandonRing],
    by rw [line]; rfl, fun _ => by rw [line]; rfl, fun _ _ => ?_⟩
  · rw [handset]; exact ok.unbound (by simp [state]) h
  · rw [line]; exact ok.no_owners (by simp [state])
  · rw [line]; exact ok.not_held (by simp [state])
  · rw [line]; exact ok.no_deadline (by simp [state])
  · rw [line]; exact ok.no_group (by simp [state])
  · rw [ring, if_pos rfl]
  · rw [line]; exact Nat.min_le_right ..
  · rw [line]; exact .inl rfl
  · rw [line]; exact .inr (.inl rfl)

theorem ringChange_step (ok : LineOk s l) (ind : RingInd) : CallStep l s (ringChange l ind s) := by
  unfold ringChange
  dsimp only
  split
  · exact .refl ok
  · next call =>
    split
    · next idle => exact enterRinging_step ok idle call
    · next ringing =>
      split
      · exact .refl ok
      · exact abandonRing_step ok ringing
    · exact .refl ok

theorem farEndChange_step (ok : LineOk s l) (far : Hook) : CallStep l s (farEndChange l far s) := by
  have told : CallStep l s (post (.farEnd l far) s) := (CallStep.refl ok).aside (aside_post ..)
  unfold farEndChange
  dsimp only
  split
  · next clears =>
    have off : ((post (.farEnd l far) s).line l).state ≠ .bridged := by
      rcases clears.2 with e | ⟨e, -⟩ <;> rw [e] <;> nofun
    exact told.trans (clearLine_step told.ok off (.inl rfl) .farEndClear)
  · exact told

theorem signalWord_step (ok : LineOk s l) (w : Word) : CallStep l s (signalWord l w s) := by
  have stored : CallStep l s (s.modLine l fun r => { r with farEnd := wordFarEnd w, ringInd := wordRing w }) :=
    modLine_step ok rfl rfl rfl rfl rfl rfl ok.missed
  have told : CallStep l s (if wordFarEnd w = (s.line l).farEnd
      then s.modLine l fun r => { r with farEnd := wordFarEnd w, ringInd := wordRing w }
      else farEndChange l (wordFarEnd w) (s.modLine l fun r => { r with farEnd := wordFarEnd w, ringInd := wordRing w })) := by
    split
    · exact stored
    · exact stored.trans (farEndChange_step stored.ok _)
  unfold signalWord
  dsimp only
  split
  · exact .refl ok
  · split
    · exact stored
    · split
      · exact told
      · exact told.trans (ringChange_step told.ok _)

/-- The hold of a line ends in a recall. -/
theorem heldRecalled_step (ok : LineOk s l) (state : (s.line l).state = .held) (p : PosId) : CallStep l s (heldRecalled l p s) := by
  have line : (heldRecalled l p s).line l = { (s.line l).entered .ringing with recallDeadline := none, heldBy := none } := by
    rw [heldRecalled_line, if_pos rfl]
  have handset (h : Handset) : (heldRecalled l p s).handset h = s.handset h := by simp [heldRecalled]
  have owners := ok.no_owners (by simp [state])
  refine ⟨.of_lines (fun m hm => by rw [heldRecalled_line, if_neg (Ne.symm hm)]) (heldRecalled_moves s l p).others handset
    (by simp [heldRecalled]) ⟨fun h => ?_, ?_, ?_, ?_, ?_, ?_, ?_, ?_, ?_⟩, fun g => by simp [heldRecalled], by rw [line]; rfl,
    fun _ => by rw [line]; rfl, fun quiet hoot => ?_⟩
  · rw [handset, line]; exact ok.bound h
  · rw [line]; exact ok.once
  · simp [line, owners]
  · rw [line]; exact ok.places
  · simp [line]
  · simp [line]
  · simp [line, ok.no_group (by simp [state])]
  · simp [line, (heldRecalled_moves s l p).ring]
  · rw [line]; exact ok.missed
  · rw [line] at hoot
    have := quiet hoot
    simp [state] at this

theorem holdRecallExpiry_move (law : LineLaw s) (run : s.running = true) (l : LineId) : CallMove s (holdRecallExpiry l s) := by
  unfold holdRecallExpiry
  dsimp only
  split
  · next d p state deadline held =>
    split
    · exact .call l run (heldRecalled_step (law.ok l) state p)
    · exact .aside (.refl s)
  · exact .aside (.refl s)

/-! ## QUERY (R44, R171) -/

/-- A clear sets a line's missed counter to 0, or a counter that no law reads. -/
theorem clearAfter_move (law : LineLaw s) (run : s.running = true) (item : QueryItem) : CallMove s (clearAfter s item) := by
  cases item with
  | line l => exact .call l run (modLine_step (law.ok l) rfl rfl rfl rfl rfl rfl (Nat.zero_le _))
  | group g => exact .aside (.refl s)
  | position p => exact .aside (.refl s)
  | recorder c => exact .aside (.of_eq rfl rfl rfl rfl)
  | counters => exact .aside (.of_eq rfl rfl rfl rfl)

theorem takeSnapshot_move (law : LineLaw s) (run : s.running = true) (item : QueryItem) (clear : Bool) (target : Addr) :
    CallMove s (takeSnapshot item clear target s) := by
  have cleared : CallMove s (if clear then clearAfter s item else s) := by
    split
    · exact clearAfter_move law run item
    · exact .aside (.refl s)
  exact cleared.then ((aside_writeSnapshot ..).after rfl rfl rfl rfl)

theorem execQuery_move (law : LineLaw s) (kind index clear : Byte) (target : Addr)
    (next : execQuery kind index clear target s = .next t) : CallMove s t := by
  unfold execQuery at next
  split at next
  · next holds =>
    split at next
    · cases next; exact .aside (aside_complete ..)
    · cases next
      have run : s.running = true := by
        simp only [State.holds, Bool.and_eq_true] at holds
        obtain ⟨⟨⟨run, -⟩, -⟩, -⟩ := holds
        exact run
      exact takeSnapshot_move law run ..
  · cases next; exact .aside (.refl s)

/-! # Every command but those that move groups, load or reset -/

theorem runCommand_aside {c : Instr} {act : State → State × Status} (acts : ∀ s, Aside s (act s).1)
    (next : runCommand c act s = .next t) : Aside s t :=
  runCommand_keeps (P := Aside s) (fun a b => b.trans a) (.refl s) (fun _ => acts s) next

theorem inRunning_aside {act : State → State} (acts : ∀ s, Aside s (act s)) (next : inRunning act s = .next t) : Aside s t :=
  inRunning_keeps (P := Aside s) (.refl s) (fun _ => acts s) next

/-- A watched word that its block takes from the hand-over list. -/
theorem inRunning_handed_aside {act : State → State} {w : Handed} (acts : ∀ s, Aside s (act s))
    (next : inRunning (fun s => act (takeHanded w s)) s = .next t) : Aside s t :=
  inRunning_aside (fun s => (aside_takeHanded w s).trans (acts _)) next

theorem runCommand_move {c : Instr} {act : State → State × Status} (acts : s.running = true → CallMove s (act s).1)
    (next : runCommand c act s = .next t) : CallMove s t :=
  runCommand_keeps (P := CallMove s) (fun a b => b.then a) (.aside (.refl s)) acts next

/-- The commands that may change what the line laws read. -/
def TouchesLines : Instr → Prop
  | .lineSet .. | .lineService .. | .seize .. | .release .. | .hold .. | .privacy .. | .forceClear .. | .groupSet ..
  | .query .. | .restart | .signalWord .. | .holdRecallExpiry .. | .configReadResponse .. | .anchorWrite .. | .powerOn ..
  | .resetN .. => True
  | _ => False

theorem aside_downstreamGrant (next : execDownstreamGrant s = .next t) : Aside s t := by
  unfold execDownstreamGrant at next
  split at next
  · cases next; exact .refl s
  · cases next; exact aside_grantOwn ..
  · cases next; exact .of_eq rfl rfl rfl rfl
  · split at next <;> cases next
    · exact .of_eq rfl rfl rfl rfl
    · exact aside_grantOwn ..

theorem aside_statusWordWriteResponse {k : Nat} {error : Bool} (next : execStatusWordWriteResponse k error s = .next t) :
    Aside s t := by
  unfold execStatusWordWriteResponse at next
  split at next
  · cases next; exact .refl s
  · next back => cases next; exact (takeFlight_aside back).trans (aside_faultIf ..)

theorem aside_passThroughResponse {k : Nat} {resp : Resp} {data : List (BitVec 64)}
    (next : execPassThroughResponse k resp data s = .next t) : Aside s t := by
  unfold execPassThroughResponse at next
  split at next <;> cases next
  · exact .refl s
  · exact .of_eq rfl rfl rfl rfl

theorem aside_upstreamWrite {x : WriteTxn} (next : execUpstreamWrite x s = .next t) : Aside s t := by
  unfold execUpstreamWrite at next
  split at next <;> cases next
  exact aside_acceptWrite ..

theorem aside_upstreamRead {b : Burst} (next : execUpstreamRead b s = .next t) : Aside s t := by
  unfold execUpstreamRead at next
  split at next <;> cases next
  exact aside_acceptRead ..

/-- Every other command steps beside the lines. -/
theorem exec_aside {c : Instr} (off : ¬TouchesLines c) (next : exec c s = .next t) : Aside s t := by
  cases c with
  | appearSet pos key line => exact runCommand_aside (aside_appearSet pos key line) next
  | handsetSet pos side volume micPad => exact runCommand_aside (aside_handsetSet pos side volume micPad) next
  | positionSet pos micPad duck ringLevel recallLevel supervisor =>
    exact runCommand_aside (aside_positionSet pos micPad duck ringLevel recallLevel supervisor) next
  | speakerSet pos chan kind subject flags volume =>
    exact runCommand_aside (aside_speakerSet pos chan kind subject flags volume) next
  | talk pos group => exact runCommand_aside (aside_talk pos group) next
  | talkEnd pos group => exact runCommand_aside (aside_talkEnd pos group) next
  | recorderSet chan baseA ceilA baseB ceilB => exact runCommand_aside (aside_recorderSet chan baseA ceilA baseB ceilB) next
  | recordReturn chan buffer => exact runCommand_aside (aside_recordReturn chan buffer) next
  | commandPost v => exact inRunning_handed_aside (aside_commandPost v) next
  | commandFetch => exact inRunning_aside aside_commandFetch next
  | commandFetchResponse error slot => exact inRunning_aside (aside_commandFetchResponse error slot) next
  | eventConsumed v => exact inRunning_handed_aside (aside_eventConsumed v) next
  | eventWriteResponse k error => exact inRunning_aside (aside_eventWriteResponse k error) next
  | logConsumed v => exact inRunning_handed_aside (aside_logConsumed v) next
  | ringDelayExpiry l => exact inRunning_aside (aside_ringDelayExpiry l) next
  | queueTimeoutExpiry g => exact inRunning_aside (aside_queueTimeoutExpiry g) next
  | talkLimitExpiry g => exact inRunning_aside (aside_talkLimitExpiry g) next
  | hangExpiry g => exact inRunning_aside (aside_hangExpiry g) next
  | frameInPulse n => exact inRunning_aside (aside_frameInPulse n) next
  | pulseWatchExpiry => exact inRunning_aside aside_pulseWatchExpiry next
  | freewheelTimerExpiry => exact inRunning_aside aside_freewheelExpiry next
  | frameEventMix => exact inRunning_aside aside_frameEventMix next
  | recorderFrames => exact inRunning_aside aside_recorderFrames next
  | sessionSegment c => exact inRunning_aside (aside_sessionSegment c) next
  | frameWriteResponse k error => exact inRunning_aside (aside_frameWriteResponse k error) next
  | logWriteResponse k error => exact inRunning_aside (aside_logWriteResponse k error) next
  | controlWordWriteResponse k error => exact inRunning_aside (aside_controlWordWriteResponse k error) next
  | snapshotWriteResponse k error => exact inRunning_aside (aside_snapshotWriteResponse k error) next
  | indexWordWriteResponse k error => exact inRunning_aside (aside_indexWordWriteResponse k error) next
  | statusWordWriteResponse k error => exact aside_statusWordWriteResponse next
  | timeSyncWord w => exact inRunning_handed_aside (aside_timeSync w) next
  | upstreamWrite x => exact aside_upstreamWrite next
  | upstreamRead b => exact aside_upstreamRead next
  | outboundRead b => exact aside_upstreamRead next
  | passThroughResponse k resp data => exact aside_passThroughResponse next
  | downstreamGrant => exact aside_downstreamGrant next
  | _ => exact absurd trivial off

/-- The commands that move hoot lines in and out of groups, empty the part, load it or reset it. -/
def MovesGroups : Instr → Prop
  | .lineService .. | .groupSet .. | .restart | .configReadResponse .. | .anchorWrite .. | .powerOn .. | .resetN .. => True
  | _ => False

/-- Every other command keeps the laws of the lines in one move. -/
theorem exec_move {c : Instr} (off : ¬MovesGroups c) (law : LineLaw s) (next : exec c s = .next t) : CallMove s t := by
  by_cases touches : TouchesLines c
  · cases c with
    | lineSet line type pad preferred ringDelay policy recallTime =>
      exact runCommand_move (fun run => lineSet_move law run line type pad preferred ringDelay policy recallTime) next
    | seize pos side line => exact runCommand_move (fun run => seize_move law run pos side line) next
    | release pos side => exact runCommand_move (fun run => release_move law run pos side) next
    | hold pos side => exact runCommand_move (fun run => hold_move law run pos side) next
    | privacy pos side value => exact runCommand_move (fun run => privacy_move law run pos side value) next
    | forceClear line => exact runCommand_move (fun run => forceClear_move law run line) next
    | query kind index clear target => exact execQuery_move law kind index clear target next
    | signalWord l w =>
      refine inRunning_keeps (act := fun s => signalWord l w (takeHanded (.signalWord l w) s)) (.aside (.refl s))
        (fun run => .call l run ?_) next
      have taken := aside_takeHanded (.signalWord l w) s
      have ok : LineOk (takeHanded (.signalWord l w) s) l := (taken.lineLaw law).ok l
      exact ((CallStep.refl (law.ok l)).aside taken).trans (signalWord_step ok w)
    | holdRecallExpiry l =>
      exact inRunning_keeps (P := CallMove s) (.aside (.refl s)) (fun run => holdRecallExpiry_move law run l) next
    | lineService | groupSet | restart | configReadResponse | anchorWrite | powerOn | resetN => exact absurd trivial off
    | _ => exact touches.elim
  · exact .aside (exec_aside touches next)

end Sys2Proof.Machine

namespace Sys2Proof.Machine

variable {s t u v : State} {l : LineId} {g : GroupId}

/-! # The line laws where hoot lines are bridged and unbridged (R27, R64) -/

/-- The line laws read the Line Controller, the rings and the operating state. -/
theorem LineLaw.of_eq (law : LineLaw s) (lc : t.lc = s.lc) (rc : t.rc = s.rc) (ld : t.ld = s.ld) : LineLaw t := by
  have line (l : LineId) : t.line l = s.line l := by rw [State.line, lc]; rfl
  refine lineLaw_iff.2 ⟨fun l => (law.ok l).congr (by rw [line]) (by rw [State.ring, rc]; rfl)
    fun h => by rw [State.handset, lc]; rfl, fun out l => ?_⟩
  rw [line]
  exact law.outside (by rw [← out, State.running, State.running, ld]) l

/-- One line is switched between IDLE and BRIDGED, its record otherwise empty. -/
theorem Switched.lineStep {f : LineRec → LineRec} {e : LineId → Event} (switched : Switched [l] f e s t) (ok : LineOk s l)
    (owners : (f (s.line l)).owners = []) (heldBy : (f (s.line l)).heldBy = none)
    (deadline : (f (s.line l)).recallDeadline = none) (missed : (f (s.line l)).missed = (s.line l).missed)
    (group : (f (s.line l)).group.isSome = true ↔ (f (s.line l)).state = .bridged) (quiet : (s.line l).state ≠ .ringing)
    (unowned : (s.line l).state ≠ .connected)
    (state : (f (s.line l)).state = .bridged ∨ (f (s.line l)).state = .idle) : LineStep l s t := by
  have line : t.line l = f (s.line l) := by rw [switched.line, if_pos (List.mem_singleton_self l)]
  have handset (h : Handset) : t.handset h = s.handset h := by rw [switched.frame]; rfl
  have ring (m : LineId) : t.ring m = s.ring m := by rw [switched.frame]; rfl
  have away {x : LineState} (b : x ≠ .bridged) (i : x ≠ .idle) : (f (s.line l)).state ≠ x := by
    rcases state with e | e <;> rw [e] <;> exact Ne.symm ‹_›
  have connected : (f (s.line l)).state ≠ .connected := away nofun nofun
  have held : (f (s.line l)).state ≠ .held := away nofun nofun
  have ringing : (f (s.line l)).state ≠ .ringing := away nofun nofun
  refine .of_lines (fun m hm => by rw [switched.line, if_neg (by simpa using hm)]) (fun m _ => ring m) handset
    (by rw [switched.frame]) ⟨fun h => ?_, ?_, ?_, ?_, ?_, ?_, ?_, ?_, ?_⟩ <;> rw [line]
  · rw [handset, owners]; simpa using ok.unbound unowned h
  · simp [owners]
  · simp [owners, connected]
  · simp [owners]
  · simp [heldBy, held]
  · simp [deadline]
  · exact group
  · simp [ring, ok.no_ring quiet, ringing]
  · rw [missed]; exact ok.missed

theorem bridge_lineStep (g : GroupId) (ok : LineOk s l) : LineStep l s (bridge g l s) := by
  by_cases accepts : (s.line l).type = .hoot ∧ (s.line l).state = .idle
  · have idle := accepts.2
    exact (bridge_switches g l s accepts).lineStep ok (ok.no_owners (by simp [idle])) (ok.not_held (by simp [idle]))
      (ok.no_deadline (by simp [idle])) rfl (by simp [LineRec.bridgedIn]) (by simp [idle]) (by simp [idle]) (.inl rfl)
  · rw [bridge, if_neg accepts]
    exact (CallStep.refl ok).toLineStep

theorem unbridge_lineStep (ok : LineOk s l) : LineStep l s (unbridge l s) := by
  by_cases accepts : (s.line l).type = .hoot ∧ (s.line l).state = .bridged
  · have bridged := accepts.2
    exact (unbridge_switches l s accepts).lineStep ok (ok.no_owners (by simp [bridged])) (ok.not_held (by simp [bridged]))
      (ok.no_deadline (by simp [bridged])) rfl (by simp [LineRec.unbridged]) (by simp [bridged]) (by simp [bridged]) (.inr rfl)
  · rw [unbridge, if_neg accepts]
    exact (CallStep.refl ok).toLineStep

/-- Steps on one line after another keep the line laws. -/
theorem lineLaw_foldl {step : LineId → State → State} (steps : ∀ l s, LineOk s l → LineStep l s (step l s)) (ls : List LineId) :
    ∀ s : State, s.running = true → LineLaw s → LineLaw (ls.foldl (fun s l => step l s) s) := by
  induction ls with
  | nil => exact fun s _ law => law
  | cons l ls ih =>
    intro s run law
    have one := steps l s (law.ok l)
    exact ih _ (one.running.trans run) (one.lineLaw run law)

theorem foldl_ld {step : LineId → State → State} (ld : ∀ l s, (step l s).ld = s.ld) (ls : List LineId) (s : State) :
    (ls.foldl (fun s l => step l s) s).ld = s.ld := by
  induction ls generalizing s with
  | nil => rfl
  | cons l ls ih => rw [List.foldl_cons, ih, ld]

/-! ## LINE_SERVICE of a bridged line (R23, R64) -/

theorem leftGroup_lineStep (ok : LineOk s l) (state : (s.line l).state = .bridged) (g : GroupId) :
    LineStep l s (leftGroup s l g) := by
  have line : (leftGroup s l g).line l = { (s.line l).entered .outOfService with group := none } := by
    rw [leftGroup_line, if_pos rfl]
  refine .of_lines (fun m hm => by rw [leftGroup_line, if_neg (Ne.symm hm)]) (fun m _ => by simp [leftGroup, removeHoot])
    (fun h => by simp [leftGroup, removeHoot]) (by simp [leftGroup, removeHoot])
    (.of_empty (fun h => ?_) ?_ ?_ ?_ ?_ ?_ ?_ ?_)
  · simpa [leftGroup, removeHoot] using ok.unbound (by simp [state]) h
  · rw [line]; exact ok.no_owners (by simp [state])
  · rw [line]; exact ok.not_held (by simp [state])
  · rw [line]; exact ok.no_deadline (by simp [state])
  · rw [line]
  · simpa [leftGroup, removeHoot] using ok.no_ring (by simp [state])
  · rw [line]; exact ok.missed
  · rw [line]; exact .inr rfl

/-- A bridged line is bridged in a group. -/
theorem LineOk.in_group (ok : LineOk s l) (state : (s.line l).state = .bridged) : ∃ g, (s.line l).group = some g :=
  Option.isSome_iff_exists.1 (ok.bridged.2 state)

theorem lineService_lineLaw (law : LineLaw s) (run : s.running = true) (line dir : Byte) :
    LineLaw (lineService line dir s).1 := by
  rcases lineService_move law run line dir with move | ⟨l, state, out⟩
  · exact move.lineLaw law
  · obtain ⟨g, group⟩ := (law.ok l).in_group state
    rw [out, bridgedOut_eq group]
    exact ((leftGroup_lineStep (law.ok l) state g).aside (aside_startHang ..)).lineLaw run law

/-! ## GROUP_SET (R58 to R63) -/

theorem aside_recordingStep {members : PosSet} {hoots : List LineId} {most : Nat} {policy : Policy} {st : Status}
    (records : recordingStep g members hoots most policy s = some (v, st)) : Aside s v := by
  unfold recordingStep at records
  dsimp only at records
  split_ifs at records
  · cases records; exact .refl s
  · exact aside_groupCheck records
  · exact aside_groupCheck records
  · cases records; exact .refl s

theorem aside_floorSettled (members : PosSet) (most : Nat) (s : State) : Aside s (floorSettled g members most s) := by
  have members_ : Aside s (membershipStep g members s) :=
    ((aside_modGroup _ _ _ rfl).trans (aside_postAll ..)).trans (aside_postAll ..)
  have limit (u : State) : Aside u (limitStep g most u) := (aside_modGroup _ _ _ rfl).trans (aside_postAll ..)
  exact (members_.trans (limit _)).trans (aside_grantPass ..)

theorem aside_hangStep (recorded : Bool) (s : State) : Aside s (hangStep g recorded s) := by
  unfold hangStep
  dsimp only
  split_ifs
  · exact aside_modGroup _ _ _ rfl
  · exact aside_startHang ..
  · exact .refl s

/-- GROUP_SET is refused, or its steps are taken after the recording step. -/
theorem groupSet_cases (group : Byte) (c : GroupArgs) (s : State) : (groupSet group c s).1 = s ∨
    ∃ g hoots policy v, hoots.Nodup ∧ hootStatus g hoots s = none ∧ Aside s v ∧
      (groupSet group c s).1 = applyGroup g c hoots policy (s.group g) v := by
  unfold groupSet
  split
  · next g hoots policy _ _ _ =>
    split
    · next once =>
      split
      · exact .inl rfl
      · next accepted =>
        split
        · exact .inl rfl
        · next v st records =>
          dsimp only
          exact .inr ⟨g, hoots, policy, v, once, accepted, aside_recordingStep records, rfl⟩
    · exact .inl rfl
  · exact .inl rfl

theorem rebridged_lineLaw (law : LineLaw s) (run : s.running = true) (g : GroupId) (old hoots : List LineId) :
    LineLaw (rebridged g old hoots s) := by
  have out := lineLaw_foldl (step := unbridge) (fun _ _ ok => unbridge_lineStep ok) (hootsLeaving old hoots) s run law
  refine lineLaw_foldl (step := bridge g) (fun _ _ ok => bridge_lineStep g ok) (hootsComing old hoots) _ ?_ out
  rw [State.running, foldl_ld (step := unbridge) (fun l s => by simp)]
  exact run

theorem groupSet_lineLaw (law : LineLaw s) (run : s.running = true) (group : Byte) (c : GroupArgs) :
    LineLaw (groupSet group c s).1 := by
  rcases groupSet_cases group c s with same | ⟨g, hoots, policy, v, -, -, aside, applied⟩
  · rw [same]; exact law
  · have configured : LineLaw (v.modGroup g (GroupRec.configured c hoots policy)) := (aside.lineLaw law).of_eq rfl rfl rfl
    have bridged := rebridged_lineLaw configured (aside.running.trans run) g (s.group g).hootLines hoots
    rw [applied, applyGroup_eq]
    exact ((aside_floorSettled ..).trans (aside_hangStep ..)).lineLaw bridged

/-! ## RESTART (R173) -/

theorem restartLine_move (law : LineLaw s) (run : s.running = true) (l : LineId) : CallMove s (restartLine l s) := by
  have clears (off : (s.line l).state ≠ .bridged) : CallMove s (clearLine l .restart .idle s) :=
    .call l run (clearLine_step (law.ok l) off (.inl rfl) .restart)
  unfold restartLine
  split
  · next state => exact clears (by simp [state])
  · next state => exact clears (by simp [state])
  · next state => exact clears (by simp [state])
  · exact .aside (.refl s)
  · exact .aside (.refl s)
  · exact .aside (.refl s)

theorem CallMove.running (move : CallMove s t) : t.running = s.running := by
  cases move with
  | aside step => exact step.running
  | call l _ step => exact step.running

/-- Moves one after another keep the laws of the lines. -/
theorem callMoves_foldl {step : LineId → State → State}
    (steps : ∀ l s, LineLaw s → s.running = true → CallMove s (step l s)) (ls : List LineId) :
    ∀ s : State, LineLaw s → s.running = true →
      LineLaw (ls.foldl (fun s l => step l s) s) ∧ (HootLaw s → HootLaw (ls.foldl (fun s l => step l s) s)) := by
  induction ls with
  | nil => exact fun s law _ => ⟨law, id⟩
  | cons l ls ih =>
    intro s law run
    have one := steps l s law run
    obtain ⟨lines, hoots⟩ := ih _ (one.lineLaw law) (one.running.trans run)
    exact ⟨lines, fun hoot => hoots (one.hootLaw hoot)⟩

theorem aside_restartGroup (g : GroupId) (s : State) : Aside s (restartGroup g s) := by
  have emptied : Aside s (floorEmptied g s) := ((aside_modGroup _ _ _ rfl).trans (aside_postAll ..)).trans (aside_postAll ..)
  rw [restartGroup_eq]
  split
  · exact emptied.trans (aside_endGroupSession ..)
  · exact emptied

theorem aside_flushed (s : State) : Aside s (flushed s) := by rw [flushed_eq]; exact .of_eq rfl rfl rfl rfl

theorem restart_laws (lines : LineLaw s) (run : s.running = true) :
    LineLaw (restart s).1 ∧ (HootLaw s → HootLaw (restart s).1) := by
  obtain ⟨law, hoots⟩ := callMoves_foldl (step := restartLine) (fun l s law run => restartLine_move law run l)
    (List.finRange 96) s lines run
  rw [restart_eq]
  change LineLaw (restartLines s) at law
  change HootLaw s → HootLaw (restartLines s) at hoots
  generalize restartLines s = v at *
  have rest : Aside v (flushed (restartGroups v)) :=
    (Aside.foldl (fun s g => aside_restartGroup g s) (List.finRange 16) v).trans (aside_flushed _)
  dsimp only
  exact ⟨rest.lineLaw law, fun hoot => rest.hootLaw (hoots hoot)⟩

end Sys2Proof.Machine

namespace Sys2Proof.Machine

variable {s t u v : State} {l : LineId} {g : GroupId}

/-! # The law of the hoot lines in RUNNING (R27, R47) -/

/-- In RUNNING a group lists the lines that are bridged in it, each once. -/
theorem HootLaw.listed_iff (law : HootLaw s) (run : s.running = true) (g : GroupId) (l : LineId) :
    l ∈ (s.group g).hootLines ↔ (s.line l).group = some g :=
  ⟨law.listed run g l, law.bridged g l⟩

/-- No line is then listed by two groups. -/
theorem hootLaw_of_running (run : t.running = true) (once : ∀ g, (t.group g).hootLines.Nodup)
    (listed : ∀ g l, l ∈ (t.group g).hootLines ↔ (t.line l).group = some g)
    (type : ∀ g l, l ∈ (t.group g).hootLines → (t.line l).type = .hoot) (quiet : ∀ l, Quiet (t.line l)) : HootLaw t where
  once := by
    refine List.nodup_flatMap.2 ⟨fun g _ => once g, (List.nodup_finRange 16).imp fun apart => ?_⟩
    intro l hl hl'
    exact apart (Option.some.inj (((listed _ l).1 hl).symm.trans ((listed _ l).1 hl')))
  type := type
  listed _ g l := (listed g l).1
  bridged g l := (listed g l).2
  calls := quiet
  outside out := by rw [run] at out; cases out
  unread out := by rw [run] at out; cases out

/-! ## LINE_SERVICE of a bridged line (R64) -/

theorem leftGroup_hootLaw (law : HootLaw s) (run : s.running = true) (group : (s.line l).group = some g) :
    HootLaw (leftGroup s l g) := by
  have listed := law.listed_iff run
  have inside : (leftGroup s l g).running = true := by simpa [leftGroup, removeHoot] using run
  have kept (k : GroupId) (m : LineId) : m ∈ ((leftGroup s l g).group k).hootLines ↔ m ∈ (s.group k).hootLines ∧ m ≠ l := by
    rw [leftGroup_group]
    split
    · next e => subst e; simp
    · next e =>
      refine (and_iff_left_of_imp fun hm => ?_).symm
      rintro rfl
      exact e (Option.some.inj (group.symm.trans ((listed k m).1 hm)))
  refine hootLaw_of_running inside (fun k => ?_) (fun k m => ?_) (fun k m hm => ?_) fun m => ?_
  · rw [leftGroup_group]
    split
    · exact (hootLines_nodup law g).filter _
    · exact hootLines_nodup law k
  · rw [kept, leftGroup_line, listed]
    split
    · next e => simp [e]
    · next e => simp [Ne.symm e]
  · rw [kept] at hm
    rw [leftGroup_line, if_neg (Ne.symm hm.2)]
    exact law.type k m hm.1
  · rw [leftGroup_line]
    split
    · exact fun _ => .inl rfl
    · exact law.calls m

theorem lineService_hootLaw (lines : LineLaw s) (law : HootLaw s) (run : s.running = true) (line dir : Byte) :
    HootLaw (lineService line dir s).1 := by
  rcases lineService_move lines run line dir with move | ⟨l, state, out⟩
  · exact move.hootLaw law
  · obtain ⟨g, group⟩ := (lines.ok l).in_group state
    rw [out, bridgedOut_eq group]
    exact (aside_startHang ..).hootLaw (leftGroup_hootLaw law run group)

/-! ## GROUP_SET (R58 to R60) -/

/-- What the checks of R58 leave: every line given is of type HOOT, in service, and bridged, if it is, in this group. -/
theorem hootStatus_accepts {hoots : List LineId} (accepted : hootStatus g hoots s = none) : ∀ l ∈ hoots,
    (s.line l).type = .hoot ∧ (s.line l).state ≠ .outOfService ∧ ((s.line l).state = .bridged → (s.line l).group = some g) := by
  unfold hootStatus at accepted
  split_ifs at accepted with type bridged out
  intro l hl
  simp only [List.any_eq_true, not_exists, not_and, Bool.not_eq_true, bne_eq_false_iff_eq, beq_eq_false_iff_ne,
    Bool.and_eq_false_iff] at type bridged out
  refine ⟨type l hl, out l hl, fun state => ?_⟩
  exact (bridged l hl).resolve_left (not_not.2 state)

theorem unhung_hootLaw (lines : LineLaw v) (law : HootLaw v) (run : v.running = true) {c : GroupArgs} {hoots : List LineId}
    (policy : Policy) (once : hoots.Nodup) (ok : ∀ l ∈ hoots, (v.line l).type = .hoot ∧ (v.line l).state ≠ .outOfService ∧
      ((v.line l).state = .bridged → (v.line l).group = some g)) :
    HootLaw (unhung g c hoots policy (v.group g).hootLines v) := by
  have listed := law.listed_iff run
  have coming := coming_idle law ok
  have steps := unhung_unhung (g := g) (c := c) (policy := policy) (hootLines_nodup law g) once
    (leaving_bridged lines law run) coming
  generalize unhung g c hoots policy (v.group g).hootLines v = t at steps
  have mine : (t.group g).hootLines = hoots := by rw [steps.group]; rfl
  have type (m : LineId) : (t.line m).type = (v.line m).type := by rw [steps.line]; split_ifs <;> rfl
  have free (m : LineId) (hm : m ∈ hootsComing (v.group g).hootLines hoots) : (v.line m).group = none :=
    (lines.ok m).no_group (by simp [(coming m hm).2])
  have of_coming {m : LineId} : m ∈ hootsComing (v.group g).hootLines hoots ↔ m ∈ hoots ∧ m ∉ (v.group g).hootLines := by
    simp [hootsComing]
  have of_leaving {m : LineId} : m ∈ hootsLeaving (v.group g).hootLines hoots ↔ m ∈ (v.group g).hootLines ∧ m ∉ hoots := by
    simp [hootsLeaving]
  have inside : t.running = true := by rw [steps.frame]; exact run
  refine hootLaw_of_running inside (fun k => ?_) (fun k m => ?_) (fun k m hm => ?_) fun m => ?_
  · by_cases e : k = g
    · subst e; rw [mine]; exact once
    · rw [steps.others k e]; exact hootLines_nodup law k
  · rw [steps.line]
    by_cases e : k = g
    · subst e
      rw [mine]
      split_ifs with into out
      · simp [LineRec.bridgedIn, (of_coming.1 into).1]
      · simp [LineRec.unbridged, (of_leaving.1 out).2]
      · rw [← listed]
        rw [of_coming] at into
        rw [of_leaving] at out
        tauto
    · rw [steps.others k e, listed]
      split_ifs with into out
      · simp [LineRec.bridgedIn, free m into, Ne.symm e]
      · simp [LineRec.unbridged, (listed g m).1 (of_leaving.1 out).1, Ne.symm e]
      · rfl
  · rw [type]
    by_cases e : k = g
    · subst e; exact (ok m (mine ▸ hm)).1
    · rw [steps.others k e] at hm; exact law.type k m hm
  · rw [steps.line]
    split_ifs
    · exact fun _ => .inr (.inr rfl)
    · exact fun _ => .inr (.inl rfl)
    · exact law.calls m

theorem groupSet_hootLaw (lines : LineLaw s) (law : HootLaw s) (run : s.running = true) (group : Byte) (c : GroupArgs) :
    HootLaw (groupSet group c s).1 := by
  rcases groupSet_cases group c s with same | ⟨g, hoots, policy, v, once, accepted, aside, applied⟩
  · rw [same]; exact law
  · have ok : ∀ l ∈ hoots, (v.line l).type = .hoot ∧ (v.line l).state ≠ .outOfService ∧
        ((v.line l).state = .bridged → (v.line l).group = some g) := fun l hl => by
      rw [LineRec.type_of_bare (aside.line l), LineRec.state_of_bare (aside.line l), LineRec.group_of_bare (aside.line l)]
      exact hootStatus_accepts accepted l hl
    have unhung_ := unhung_hootLaw (c := c) (aside.lineLaw lines) (aside.hootLaw law) (aside.running.trans run) policy once ok
    rw [applied, applyGroup_eq, ← aside.hoots]
    exact (aside_hangStep ..).hootLaw unhung_

end Sys2Proof.Machine

namespace Sys2Proof.Machine

variable {s t u : State}

/-! # The laws of the lines outside RUNNING -/

/-- Outside RUNNING no line carries a call: each is IDLE or OUT_OF_SERVICE. -/
def OffCall (s : State) : Prop := ∀ l, (s.line l).state = .idle ∨ (s.line l).state = .outOfService

/-- Of a line's record only what an image section sets has changed; of the handsets only settings, of the rings nothing. -/
structure Loads (s t : State) : Prop where
  call : ∀ l, (t.line l).unloaded = (s.line l).unloaded
  ring : ∀ l, t.ring l = s.ring l
  bound : ∀ h, (t.handset h).binding = (s.handset h).binding

theorem Loads.of_eq (lc : t.lc = s.lc) (rc : t.rc = s.rc) : Loads s t :=
  ⟨fun l => by rw [State.line, lc]; rfl, fun l => by rw [State.ring, rc]; rfl, fun h => by rw [State.handset, lc]; rfl⟩

theorem Loads.trans (a : Loads s t) (b : Loads t u) : Loads s u :=
  ⟨fun l => (b.call l).trans (a.call l), fun l => (b.ring l).trans (a.ring l), fun h => (b.bound h).trans (a.bound h)⟩

theorem OffCall.away (off : OffCall s) (l : LineId) {x : LineState} (i : x ≠ .idle) (o : x ≠ .outOfService) :
    (s.line l).state ≠ x := by
  rcases off l with e | e <;> rw [e] <;> exact Ne.symm ‹_›

theorem LineLaw.no_group (law : LineLaw s) (off : OffCall s) (l : LineId) : (s.line l).group = none :=
  (law.ok l).no_group (off.away l nofun nofun)

theorem Loads.group (loads : Loads s t) (l : LineId) : (t.line l).group = (s.line l).group :=
  (congrArg LineRec.group (loads.call l) :)

theorem Loads.lineLaw (loads : Loads s t) (law : LineLaw s) (before : OffCall s) (after : OffCall t) : LineLaw t := by
  refine lineLaw_iff.2 ⟨fun l => ?_, fun _ => after⟩
  have ok := law.ok l
  have connected : (s.line l).state ≠ .connected := before.away l nofun nofun
  have held : (s.line l).state ≠ .held := before.away l nofun nofun
  have ringing : (s.line l).state ≠ .ringing := before.away l nofun nofun
  have owners : (t.line l).owners = (s.line l).owners := (congrArg LineRec.owners (loads.call l) :)
  have heldBy : (t.line l).heldBy = (s.line l).heldBy := (congrArg LineRec.heldBy (loads.call l) :)
  have deadline : (t.line l).recallDeadline = (s.line l).recallDeadline := (congrArg LineRec.recallDeadline (loads.call l) :)
  have missed : (t.line l).missed = (s.line l).missed := (congrArg LineRec.missed (loads.call l) :)
  refine .of_empty (fun h => ?_) (owners.trans (ok.no_owners connected)) (heldBy.trans (ok.not_held held))
    (deadline.trans (ok.no_deadline held)) ((loads.group l).trans (law.no_group before l))
    ((loads.ring l).trans (ok.no_ring ringing)) (by rw [missed]; exact ok.missed) (after l)
  rw [loads.bound]
  exact ok.unbound connected h

theorem LineLaw.offCall (law : LineLaw s) (off : s.running = false) : OffCall s := law.outside off

/-! ## Image sections (R177, R185) -/

theorem loadLines_line (body : List Byte) (s : State) (l : LineId) :
    (loadLines body s).line l = loadLine (record 8 body l.val) (s.line l) := by simp [loadLines, State.line]

theorem loadPositions_handset (body : List Byte) (s : State) (h : Handset) :
    ((loadPositions body s).handset h).binding = (s.handset h).binding := by
  simp [loadPositions, State.handset, loadHandset]

theorem storeSection_loads (ident : Nat) (body : List Byte) (s : State) : Loads s (storeSection ident body s) := by
  unfold storeSection
  split
  · exact .of_eq rfl rfl
  · exact .of_eq rfl rfl
  · exact ⟨fun l => by rw [loadLines_line]; rfl, fun _ => rfl, fun _ => rfl⟩
  · exact ⟨fun _ => rfl, fun _ => rfl, loadPositions_handset body s⟩
  all_goals exact .of_eq rfl rfl

theorem storeSection_line {ident : Nat} (other : ident ≠ 3) (body : List Byte) (s : State) (l : LineId) :
    (storeSection ident body s).line l = s.line l := by
  unfold storeSection
  split
  case h_3 => exact absurd rfl other
  all_goals rfl

theorem storeSection_offCall (ident : Nat) (body : List Byte) (off : OffCall s) : OffCall (storeSection ident body s) := by
  intro l
  by_cases third : ident = 3
  · subst third
    change ((loadLines body s).line l).state = .idle ∨ ((loadLines body s).line l).state = .outOfService
    rw [loadLines_line]
    simp only [loadLine]
    split
    · exact .inl rfl
    · exact .inr rfl
  · rw [storeSection_line third]; exact off l

theorem storeSection_group {ident : Nat} (other : ident ≠ 5) (body : List Byte) (s : State) (g : GroupId) :
    (storeSection ident body s).group g = s.group g := by
  unfold storeSection
  split
  case h_5 => exact absurd rfl other
  all_goals rfl

theorem storeSection_op (ident : Nat) (body : List Byte) (s : State) :
    (storeSection ident body s).ld.op = s.ld.op ∧ (storeSection ident body s).ld.expected = s.ld.expected := by
  unfold storeSection
  split <;> exact ⟨rfl, rfl⟩

/-- The hoot lines that the GROUPS section gives a group. -/
def hootsLoaded (body : List Byte) (g : GroupId) : List LineId := (hootArg (groupArgs (record 12 body g.val) 0)).getD []

theorem loadGroups_hoots (body : List Byte) (s : State) (g : GroupId) :
    ((loadGroups body s).group g).hootLines = hootsLoaded body g := by
  simp [loadGroups, State.group, loadGroup, hootsLoaded]

/-- The check at the end of the GROUPS section (R47): each hoot line is listed once, is of type HOOT and in service. -/
theorem groupsOk_iff {body : List Byte} : groupsOk s body = true ↔ ((List.finRange 16).flatMap (hootsLoaded body)).Nodup ∧
    ∀ g, ∀ l ∈ hootsLoaded body g, (s.line l).type = .hoot ∧ (s.line l).state ≠ .outOfService := by
  have same : ((List.range 16).map fun i => (hootArg (groupArgs (record 12 body i) 0)).getD []).flatten =
      (List.finRange 16).flatMap (hootsLoaded body) := by
    rw [← List.flatMap_def, ← List.map_coe_finRange_eq_range, List.flatMap_map]
    rfl
  unfold groupsOk
  rw [same]
  simp only [Bool.and_eq_true, decide_eq_true_eq, List.all_eq_true, List.mem_flatMap, List.mem_finRange, true_and, beq_iff_eq,
    bne_iff_ne, forall_exists_index]
  exact and_congr_right fun _ => ⟨fun h g l hl => h l g hl, fun h l g hl => h g l hl⟩

/-- The laws of the lines hold, and the loader is loading. -/
structure LoadLaw (s : State) : Prop where
  lines : LineLaw s
  loading : s.ld.op = .loading

theorem LoadLaw.off (law : LoadLaw s) : s.running = false := by simp [State.running, law.loading]
theorem LoadLaw.offCall (law : LoadLaw s) : OffCall s := law.lines.offCall law.off

theorem LoadLaw.congr (law : LoadLaw s) (lc : t.lc = s.lc) (rc : t.rc = s.rc) : LineLaw t :=
  (Loads.of_eq lc rc).lineLaw law.lines law.offCall fun l => by rw [State.line, lc]; exact law.offCall l

theorem nextSection_loads (length : Nat) (s : State) : Loads s (nextSection length s) :=
  (storeSection_loads ..).trans (.of_eq rfl rfl)

theorem nextSection_loadLaw (length : Nat) (law : LoadLaw s) : LoadLaw (nextSection length s) where
  lines := (nextSection_loads length s).lineLaw law.lines law.offCall
    (storeSection_offCall s.ld.expected ((s.ld.buf.take length).drop 8) law.offCall)
  loading := (storeSection_op ..).1.trans law.loading

/-- The next section has passed its checks. -/
theorem loadStep_store {length : Nat} (step : loadStep s = .store length) :
    endFault s s.ld.expected ((s.ld.buf.take length).drop 8) = none := by
  have ident (header : headerFault s.ld.cursor s.ld.expected (leAt s.ld.buf 0 4) (leAt s.ld.buf 4 4) = none) :
      leAt s.ld.buf 0 4 = s.ld.expected := by
    unfold headerFault at header
    split_ifs at header with _ other
    exact not_not.1 fun x => other (.inl x)
  unfold loadStep at step
  dsimp only at step
  split at step
  · cases step
  split at step
  · cases step
  split at step
  · cases step
  · next header =>
    split at step
    · cases step
    split at step
    · cases step
    split at step
    · cases step
    split at step
    · cases step
    · next passed => cases step; rw [← ident header]; exact passed

theorem nextSection_hootLaw {length : Nat} (law : LoadLaw s) (hoot : HootLaw s) (step : loadStep s = .store length) :
    HootLaw (nextSection length s) := by
  have after := nextSection_loadLaw length law
  have offCall := after.offCall
  have passed := loadStep_store step
  have expected : (nextSection length s).ld.expected = s.ld.expected + 1 := congrArg (· + 1) (storeSection_op ..).2
  have ungrouped (l : LineId) : ((nextSection length s).line l).group = none := after.lines.no_group offCall l
  have quiet (l : LineId) : Quiet ((nextSection length s).line l) := fun _ => (offCall l).symm.imp_right .inl
  have line (other : s.ld.expected ≠ 3) (l : LineId) : (nextSection length s).line l = s.line l := storeSection_line other ..
  have group (other : s.ld.expected ≠ 5) (g : GroupId) : ((nextSection length s).group g).hootLines = (s.group g).hootLines :=
    congrArg GroupRec.hootLines (storeSection_group other ..)
  have running : (nextSection length s).running = false := after.off
  have outside (listed : ∀ g, ∀ l ∈ ((nextSection length s).group g).hootLines,
      ((nextSection length s).line l).state ≠ .outOfService) : ∀ g l, l ∈ ((nextSection length s).group g).hootLines →
      ((nextSection length s).line l).state = .idle := fun g l hl => (offCall l).resolve_right (listed g l hl)
  by_cases fifth : s.ld.expected = 5
  · rw [fifth] at passed
    have ok : groupsOk s ((s.ld.buf.take length).drop 8) = true := by
      simpa [endFault] using passed
    obtain ⟨once, listed⟩ := groupsOk_iff.1 ok
    have hoots (g : GroupId) : ((nextSection length s).group g).hootLines = hootsLoaded ((s.ld.buf.take length).drop 8) g := by
      rw [← loadGroups_hoots _ s, ← show storeSection 5 _ s = loadGroups _ s from rfl, ← fifth]
      rfl
    refine ⟨?_, fun g l hl => ?_, fun run => ?_, fun g l hl => ?_, quiet, fun _ => outside fun g l hl => ?_, fun _ early => ?_⟩
    · rw [hootLinesOf, List.flatMap_congr fun g _ => hoots g]; exact once
    · rw [line (by omega)]; exact (listed g l (hoots g ▸ hl)).1
    · rw [running] at run; cases run
    · rw [ungrouped] at hl; cases hl
    · rw [line (by omega)]; exact (listed g l (hoots g ▸ hl)).2
    · rw [expected] at early; omega
  · have same := hootLinesOf_congr (group fifth)
    have early_ (early : s.ld.expected ≤ 5) (g : GroupId) : ((nextSection length s).group g).hootLines = [] := by
      have none_ := hoot.unread law.off early
      rw [group fifth]
      exact List.flatMap_eq_nil_iff.1 none_ g (List.mem_finRange g)
    refine ⟨by rw [same]; exact hoot.once, fun g l hl => ?_, fun run => ?_, fun g l hl => ?_, quiet, fun _ g l hl => ?_,
      fun _ early => ?_⟩
    · by_cases third : s.ld.expected = 3
      · rw [early_ (by omega)] at hl; cases hl
      · rw [line third]; exact hoot.type g l (group fifth g ▸ hl)
    · rw [running] at run; cases run
    · rw [ungrouped] at hl; cases hl
    · by_cases third : s.ld.expected = 3
      · rw [early_ (by omega)] at hl; cases hl
      · rw [line third]; exact hoot.outside law.off g l (group fifth g ▸ hl)
    · rw [same]; exact hoot.unread law.off (by rw [expected] at early; omega)

end Sys2Proof.Machine

namespace Sys2Proof.Machine

variable {s t u : State}

/-! # Entry into RUNNING (R47, R180) -/

/-- Up to the bridging the entry marks the lines and turns the loader to RUNNING, as far as the laws of the lines read. -/
theorem aside_entered (s : State) : Aside { s with ld := { s.ld with op := .running } } (entered s) := by
  have steps := entered_entered s
  generalize entered s = t at steps
  refine ⟨fun l => by rw [steps.line]; rfl, fun l => ?_, fun h => ?_, fun g => ?_, ?_⟩ <;> rw [steps.frame]
  all_goals rfl

theorem entered_lineLaw (law : LoadLaw s) : LineLaw (entered s) :=
  (aside_entered s).lineLaw (law.congr rfl rfl)

theorem entered_running (s : State) : (entered s).running = true := (aside_entered s).running.trans rfl

theorem bridgeGroup_ld (g : GroupId) (s : State) : (bridgeGroup g s).ld = s.ld := by
  rw [bridgeGroup_eq]
  split
  · rfl
  · obtain ⟨ru, recorder, eq, -⟩ := hootRecorded_recorded g s
    rw [bridgeHoots, foldl_ld (step := bridge g) (fun l s => by simp), eq]
    rfl

theorem bridgeGroup_lineLaw (law : LineLaw s) (run : s.running = true) (g : GroupId) : LineLaw (bridgeGroup g s) := by
  rw [bridgeGroup_eq]
  split
  · exact law
  · obtain ⟨ru, recorder, eq, -⟩ := hootRecorded_recorded g s
    rw [eq]
    exact lineLaw_foldl (step := bridge g) (fun _ _ ok => bridge_lineStep g ok) _ (groupRecorded s g ru recorder) run
      (law.of_eq rfl rfl rfl)

theorem bridgeGroups_lineLaw (gs : List GroupId) : ∀ s : State, s.running = true → LineLaw s →
    LineLaw (gs.foldl (fun s g => bridgeGroup g s) s) := by
  induction gs with
  | nil => exact fun s _ law => law
  | cons g gs ih =>
    exact fun s run law => ih _ (by rw [State.running, bridgeGroup_ld]; exact run) (bridgeGroup_lineLaw law run g)

theorem aside_started (length : Nat) (s : State) : Aside s (startTimer (writeStatus .running .none length s)) :=
  .of_eq rfl rfl rfl rfl

theorem enterRunning_lineLaw (law : LoadLaw s) (length : Nat) : LineLaw (enterRunning length s) := by
  rw [enterRunning_eq]
  exact (aside_started ..).lineLaw (bridgeGroups_lineLaw (List.finRange 16) _ (entered_running s) (entered_lineLaw law))

theorem Entered.group {v : State} (steps : Entered s v) (g : GroupId) : v.group g = s.group g := by rw [steps.frame]; rfl

/-- Once every listed line has been bridged, the law of RUNNING holds. -/
theorem HootsBridged.hootLaw {v : State} (law : LoadLaw s) (hoot : HootLaw s) (steps : Entered s v)
    (bridges : HootsBridged (List.finRange 16) v t) : HootLaw t := by
  have group := steps.group
  have inside : t.running = true := by rw [bridges.frame, steps.frame]; rfl
  have hoots (g : GroupId) : (t.group g).hootLines = (s.group g).hootLines := by rw [bridges.hoots, group]
  have listed {g : GroupId} {l : LineId} (hl : l ∈ (s.group g).hootLines) : t.line l = (v.line l).bridgedIn g :=
    bridges.listed g (List.mem_finRange g) l (group g ▸ hl)
  have unlisted {l : LineId} (none_ : ¬∃ g, l ∈ (s.group g).hootLines) : t.line l = v.line l :=
    bridges.unlisted l fun g _ hl => none_ ⟨g, group g ▸ hl⟩
  refine hootLaw_of_running inside (fun g => by rw [hoots]; exact hootLines_nodup hoot g) (fun g l => ?_) (fun g l hl => ?_)
    fun l => ?_
  · rw [hoots]
    refine ⟨fun hl => by rw [listed hl]; rfl, fun in_ => ?_⟩
    by_cases somewhere : ∃ k, l ∈ (s.group k).hootLines
    · obtain ⟨k, hk⟩ := somewhere
      rw [listed hk] at in_
      exact Option.some.inj in_ ▸ hk
    · rw [unlisted somewhere, steps.line] at in_
      exact absurd in_ (by rw [show _ = none from law.lines.no_group law.offCall l]; nofun)
  · rw [hoots] at hl
    rw [listed hl, steps.line]
    exact hoot.type g l hl
  · by_cases somewhere : ∃ k, l ∈ (s.group k).hootLines
    · obtain ⟨k, hk⟩ := somewhere
      rw [listed hk]
      exact fun _ => .inr (.inr rfl)
    · rw [unlisted somewhere, steps.line]
      exact hoot.calls l

theorem enterRunning_hootLaw (law : LoadLaw s) (hoot : HootLaw s) (length : Nat) : HootLaw (enterRunning length s) := by
  have steps := entered_entered s
  rw [enterRunning_eq]
  generalize entered s = v at *
  exact (aside_started ..).hootLaw ((bridgeGroups_hootsBridged steps.group steps.line hoot law.off).hootLaw law hoot steps)

/-! # Reading the image (R178) -/

/-- Outside RUNNING the hoot law reads the lines, the groups and how far the image has been read. -/
theorem HootLaw.of_off (law : HootLaw s) (before : s.running = false) (after : t.running = false) (lc : t.lc = s.lc)
    (fc : t.fc = s.fc) (expected : t.ld.expected = s.ld.expected) : HootLaw t := by
  have line (l : LineId) : t.line l = s.line l := by rw [State.line, lc]; rfl
  have hoots (g : GroupId) : (t.group g).hootLines = (s.group g).hootLines := by rw [State.group, fc]; rfl
  refine ⟨by rw [hootLinesOf_congr hoots]; exact law.once, fun g l h => ?_, fun run => ?_, fun g l h => ?_, fun l => ?_,
    fun _ g l h => ?_, fun _ early => ?_⟩
  · rw [line]; exact law.type g l (hoots g ▸ h)
  · rw [after] at run; cases run
  · rw [hoots]; exact law.bridged g l (line l ▸ h)
  · rw [line]; exact law.calls l
  · rw [line]; exact law.outside before g l (hoots g ▸ h)
  · rw [hootLinesOf_congr hoots]; exact law.unread before (expected ▸ early)

/-- Both laws of the lines. -/
def LinesHold (s t : State) : Prop := LineLaw t ∧ (HootLaw s → HootLaw t)

theorem configFault_laws (law : LoadLaw s) (code : FaultCode) (offset : Nat) : LinesHold s (configFault code offset s) :=
  ⟨law.congr rfl rfl, fun hoot => hoot.of_off law.off rfl rfl rfl rfl⟩

theorem takeSections_laws : ∀ (n : Nat) (s : State), LoadLaw s → LinesHold s (takeSections n s)
  | 0, s, law => by
    have aside : Aside s (requestImage s) := .of_eq rfl rfl rfl rfl
    exact ⟨aside.lineLaw law.lines, aside.hootLaw⟩
  | n + 1, s, law => by
    have aside : Aside s (requestImage s) := .of_eq rfl rfl rfl rfl
    unfold takeSections
    split
    · exact ⟨aside.lineLaw law.lines, aside.hootLaw⟩
    · exact configFault_laws law ..
    · have drawn : Aside s { s with draws := s.draws + 1 } := .of_eq rfl rfl rfl rfl
      obtain ⟨lines, hoots⟩ := configFault_laws (s := { s with draws := s.draws + 1 })
        ⟨drawn.lineLaw law.lines, law.loading⟩ .badIndex _
      exact ⟨lines, fun hoot => hoots (drawn.hootLaw hoot)⟩
    · next step =>
      obtain ⟨lines, hoots⟩ := takeSections_laws n _ (nextSection_loadLaw _ law)
      exact ⟨lines, fun hoot => hoots (nextSection_hootLaw law hoot step)⟩
    · exact ⟨enterRunning_lineLaw law _, fun hoot => enterRunning_hootLaw law hoot _⟩

theorem configReadResponse_laws (lines : LineLaw s) {error : Bool} {data : List Byte}
    (next : execConfigReadResponse error data s = .next t) : LinesHold s t := by
  unfold execConfigReadResponse at next
  split at next
  · cases next; exact ⟨lines, id⟩
  · next a u back =>
    have taken := takeFlight_aside back
    split at next
    · next loading =>
      have law : LoadLaw u := ⟨taken.lineLaw lines, by rw [taken.ld]; exact loading⟩
      split at next <;> cases next
      · obtain ⟨lines, hoots⟩ := configFault_laws law .memoryError (s.ld.cursor + s.ld.buf.length)
        exact ⟨lines, fun hoot => hoots (taken.hootLaw hoot)⟩
      · obtain ⟨lines, hoots⟩ := takeSections_laws 10 { u with ld := { u.ld with buf := u.ld.buf ++ data } }
          ⟨law.congr rfl rfl, law.loading⟩
        exact ⟨lines, fun hoot => hoots ((taken.hootLaw hoot).of_off law.off law.off rfl rfl rfl)⟩
    · cases next
      have faulted := taken.trans (aside_faultIf error a u)
      exact ⟨faulted.lineLaw lines, faulted.hootLaw⟩

/-! # The start of a load (R177) -/

theorem startLoad_line (v : Word) (s : State) (l : LineId) : (startLoad v s).line l = (s.line l).unloaded := by
  simp [startLoad, unloadImage, requestImage, writeStatus, State.line]

theorem startLoad_handset (v : Word) (s : State) (h : Handset) : ((startLoad v s).handset h).binding = (s.handset h).binding := by
  simp [startLoad, unloadImage, requestImage, writeStatus, State.handset]

theorem startLoad_hoots (v : Word) (s : State) (g : GroupId) : ((startLoad v s).group g).hootLines = [] := by
  simp [startLoad, unloadImage, requestImage, writeStatus, State.group, GroupRec.unloaded]

theorem startLoad_loads (v : Word) (s : State) : Loads s (startLoad v s) :=
  ⟨fun l => by rw [startLoad_line]; rfl, fun _ => rfl, startLoad_handset v s⟩

theorem startLoad_laws (law : LineLaw s) (off : s.running = false) (v : Word) :
    LineLaw (startLoad v s) ∧ HootLaw (startLoad v s) := by
  have out (l : LineId) : ((startLoad v s).line l).state = .outOfService := by rw [startLoad_line]; rfl
  have hoots := startLoad_hoots v s
  have none_ : hootLinesOf (startLoad v s) = [] := List.flatMap_eq_nil_iff.2 fun g _ => hoots g
  have loaded := (startLoad_loads v s).lineLaw law (law.offCall off) fun l => .inr (out l)
  refine ⟨loaded, by rw [none_]; exact List.nodup_nil, fun g l h => ?_, fun run => ?_, fun g l h => ?_, fun l _ => .inl (out l),
    fun _ g l h => ?_, fun _ _ => none_⟩
  · rw [hoots] at h; cases h
  · cases run
  · rw [loaded.no_group (fun l => .inr (out l))] at h; cases h
  · rw [hoots] at h; cases h

theorem anchorWrite_laws (lines : LineLaw s) (v : Word) : LinesHold s (anchorWrite v s) := by
  have loads (off : s.running = false) : LinesHold s (if v = 0 then s else startLoad v s) := by
    split
    · exact ⟨lines, id⟩
    · obtain ⟨law, hoots⟩ := startLoad_laws lines off v
      exact ⟨law, fun _ => hoots⟩
  unfold anchorWrite
  split
  · next op => exact loads (by simp [State.running, op])
  · next op => exact loads (by simp [State.running, op])
  · exact ⟨lines, id⟩
  · exact ⟨lines, id⟩

/-! # Every step keeps the laws of the lines -/

theorem LinesHold.aside (laws : LinesHold s t) (aside : Aside t u) : LinesHold s u := by
  obtain ⟨lines, hoots⟩ := laws
  exact ⟨aside.lineLaw lines, fun hoot => aside.hootLaw (hoots hoot)⟩

theorem CallMove.laws (move : CallMove s t) (lines : LineLaw s) : LinesHold s t := ⟨move.lineLaw lines, move.hootLaw⟩

/-- Every command keeps the line laws, and the law of the hoot lines with them. -/
theorem exec_laws {c : Instr} (lines : LineLaw s) (next : exec c s = .next t) : LinesHold s t := by
  have here : LinesHold s s := ⟨lines, id⟩
  have command {c : Instr} {act : State → State × Status} (acts : s.running = true → LinesHold s (act s).1)
      (next : runCommand c act s = .next t) : LinesHold s t :=
    runCommand_keeps (P := LinesHold s) (fun aside laws => laws.aside aside) here acts next
  by_cases off : MovesGroups c
  · cases c with
    | lineService line dir =>
      exact command (fun run => ⟨lineService_lineLaw lines run line dir, fun hoot => lineService_hootLaw lines hoot run line dir⟩)
        next
    | groupSet group cfg =>
      exact command (fun run => ⟨groupSet_lineLaw lines run group cfg, fun hoot => groupSet_hootLaw lines hoot run group cfg⟩) next
    | restart => exact command (fun run => restart_laws lines run) next
    | configReadResponse error data => exact configReadResponse_laws lines next
    | anchorWrite v =>
      cases next
      have taken := aside_takeHanded (.anchor v) s
      obtain ⟨law, hoots⟩ := anchorWrite_laws (taken.lineLaw lines) v
      exact ⟨law, fun hoot => hoots (taken.hootLaw hoot)⟩
    | powerOn straps => cases next; exact ⟨lineLaw_afterReset .., fun _ => hootLaw_afterReset ..⟩
    | resetN straps => cases next; exact ⟨lineLaw_afterReset .., fun _ => hootLaw_afterReset ..⟩
    | _ => exact off.elim
  · exact (exec_move off lines next).laws lines

theorem step_laws (lines : LineLaw s) (next : step s = .next t) : LinesHold s t := by
  unfold step at next
  split at next
  · cases next
    exact LinesHold.aside (t := s) ⟨lines, id⟩ (.of_eq rfl rfl rfl rfl)
  · next rest _ =>
    have taken : Aside s { s with pending := rest } := .of_eq rfl rfl rfl rfl
    obtain ⟨law, hoots⟩ := exec_laws (taken.lineLaw lines) next
    exact ⟨law, fun hoot => hoots (taken.hootLaw hoot)⟩

/-- Settles O6: `exec_laws` over all commands. -/
theorem stepKeepsLineLaw : Obligations.StepKeepsLineLaw := fun _ _ lines next => (step_laws lines next).1

/-- Settles O9: `exec_laws` over all commands. -/
theorem stepKeepsHootLaw : Obligations.StepKeepsHootLaw := fun _ _ lines hoot next => (step_laws lines next).2 hoot

end Sys2Proof.Machine

namespace Sys2Proof.Machine

variable {s t u : State}

/-! # The stored signals of a line (R5) -/

/-- The stored far_end and ring_indicator. -/
def LineRec.signals (r : LineRec) : Hook × RingInd := (r.farEnd, r.ringInd)

/-- No line's stored signals have moved. -/
structure SameSignals (s t : State) : Prop where
  line : ∀ l, (t.line l).signals = (s.line l).signals

theorem SameSignals.refl (s : State) : SameSignals s s := ⟨fun _ => rfl⟩
theorem SameSignals.trans (a : SameSignals s t) (b : SameSignals t u) : SameSignals s u :=
  ⟨fun l => (b.line l).trans (a.line l)⟩

theorem SameSignals.of_lines (lines : ∀ l, t.line l = s.line l) : SameSignals s t := ⟨fun l => by rw [lines l]⟩

theorem Aside.signals (a : Aside s t) : SameSignals s t :=
  ⟨fun l => Prod.ext (LineRec.farEnd_of_bare (a.line l)) (LineRec.ringInd_of_bare (a.line l))⟩

theorem Loads.signals (a : Loads s t) : SameSignals s t :=
  ⟨fun l => (congrArg LineRec.signals (a.call l) :)⟩

theorem SameSignals.foldl {α : Type} {f : State → α → State} (step : ∀ s a, SameSignals s (f s a)) (as : List α) (s : State) :
    SameSignals s (as.foldl f s) := by
  induction as generalizing s with
  | nil => exact .refl s
  | cons a as ih => exact (step s a).trans (ih (f s a))

/-! ## The steps on a line -/

theorem signals_modLine (l : LineId) {f : LineRec → LineRec} (s : State) (kept : ∀ r, (f r).signals = r.signals := by intro; rfl) :
    SameSignals s (s.modLine l f) := by
  refine ⟨fun m => ?_⟩
  rw [modLine_line]
  split
  · next e => rw [← e, kept]
  · rfl

theorem signals_setLineState (l : LineId) (st : LineState) (cause : LineCause) (s : State) :
    SameSignals s (setLineState l st cause s) := by
  refine ⟨fun m => ?_⟩
  rw [setLineState_line]
  split
  · next e => rw [← e]; rfl
  · rfl

theorem signals_enterRinging (l : LineId) (s : State) : SameSignals s (enterRinging l s) :=
  (signals_setLineState l .ringing .ring s).trans (.of_lines fun m => by simp [enterRinging])

theorem signals_levelRule (l : LineId) (s : State) : SameSignals s (levelRule l s) := by
  unfold levelRule
  dsimp only
  split
  · exact signals_enterRinging l s
  · exact .refl s

theorem signals_clearLine (l : LineId) (cause : LineCause) (st : LineState) (s : State) :
    SameSignals s (clearLine l cause st s) := by
  have cleared : SameSignals s (clearedLine s l cause st) := by
    refine ⟨fun m => ?_⟩
    rw [clearedLine_line]
    split
    · next e => rw [← e]; rfl
    · rfl
  rw [clearLine_eq]
  exact cleared.trans (signals_levelRule ..)

theorem signals_abandonRing (l : LineId) (s : State) : SameSignals s (abandonRing l s) := by
  refine ⟨fun m => ?_⟩
  rw [abandonRing_line]
  split
  · next e => rw [← e]; rfl
  · rfl

theorem signals_takeLine (h : Handset) (l : LineId) (cause : LineCause) (s : State) : SameSignals s (takeLine h l cause s) := by
  refine ⟨fun m => ?_⟩
  rw [takeLine_line]
  split
  · next e => rw [← e]; rfl
  · rfl

theorem signals_endRing (l : LineId) (cause : RingCause) (pos : Option PosId) (s : State) :
    SameSignals s (endRing l cause pos s) := .of_lines fun m => by simp

theorem signals_recorderCheck {l : LineId} {p : PosId} {v : State} {st : Status}
    (check : recorderCheck l p s = some (v, st)) : SameSignals s v := by
  obtain ⟨ru, rec_, rfl⟩ := recorderCheck_given check
  exact ⟨fun m => (signals_modLine l (f := fun r => { r with recorder := rec_ }) s).line m⟩

theorem signals_leaveLine (h : Handset) (l : LineId) (s : State) : SameSignals s (leaveLine h l s) := by
  refine ⟨fun m => ?_⟩
  rw [leaveLine_line]
  split
  · next e => rw [← e]; rfl
  · rfl

/-! ## The commands on lines -/

theorem signals_lineSet (line type pad preferred ringDelay policy : Byte) (recallTime : Half) (s : State) :
    SameSignals s (lineSet line type pad preferred ringDelay policy recallTime s).1 := by
  unfold lineSet
  split
  · split
    · exact (signals_modLine _ s).trans (signals_levelRule ..)
    · exact .refl s
  · exact .refl s

theorem signals_bridgedOut (l : LineId) (s : State) : SameSignals s (bridgedOut l s) := by
  cases group : (s.line l).group with
  | none =>
    have : bridgedOut l s = setLineState l .outOfService .outOfService s := by simp only [bridgedOut, group]
    rw [this]
    exact signals_setLineState ..
  | some g =>
    have left : SameSignals s (leftGroup s l g) := by
      refine ⟨fun m => ?_⟩
      rw [leftGroup_line]
      split
      · next e => rw [← e]; rfl
      · rfl
    rw [bridgedOut_eq group]
    exact left.trans (aside_startHang ..).signals

theorem signals_lineService (line dir : Byte) (s : State) : SameSignals s (lineService line dir s).1 := by
  unfold lineService
  split
  · split
    · dsimp only; exact (signals_setLineState ..).trans (signals_levelRule ..)
    · exact .refl s
  · split
    · exact .refl s
    · dsimp only; exact signals_setLineState ..
    · dsimp only; exact signals_clearLine ..
    · dsimp only; exact signals_clearLine ..
    · dsimp only; exact signals_clearLine ..
    · dsimp only; exact signals_bridgedOut ..
  · exact .refl s

theorem signals_forceClear (line : Byte) (s : State) : SameSignals s (forceClear line s).1 := by
  unfold forceClear
  split
  · exact .refl s
  · split
    · exact .refl s
    · dsimp only; exact signals_clearLine ..
    · dsimp only; exact signals_clearLine ..
    · dsimp only; exact signals_clearLine ..
    · exact .refl s
    · exact .refl s

theorem signals_seizeIdle (h : Handset) (l : LineId) (s : State) : SameSignals s (seizeIdle h l s).1 := by
  unfold seizeIdle
  split
  · exact .refl s
  · next check => exact (signals_recorderCheck check).trans (signals_takeLine ..)

theorem signals_seizeRinging (h : Handset) (l : LineId) (s : State) : SameSignals s (seizeRinging h l s).1 := by
  unfold seizeRinging
  split
  · exact .refl s
  · split_ifs
    · exact .refl s
    · exact ((signals_endRing ..).trans (signals_takeLine ..)).trans (aside_lineParty ..).signals
    · split
      · exact .refl s
      · next check => exact ((signals_recorderCheck check).trans (signals_endRing ..)).trans (signals_takeLine ..)

theorem signals_seizeConnected (h : Handset) (l : LineId) (s : State) : SameSignals s (seizeConnected h l s).1 := by
  unfold seizeConnected
  dsimp only
  split_ifs
  · exact .refl s
  · exact .refl s
  · have bound : SameSignals s (bindHandset h l s) := .of_lines fun _ => rfl
    exact (bound.trans (signals_modLine ..)).trans (aside_lineParty ..).signals

theorem signals_seizeHeld (h : Handset) (l : LineId) (s : State) : SameSignals s (seizeHeld h l s).1 := by
  unfold seizeHeld
  dsimp only
  split_ifs
  · exact .refl s
  · exact ((signals_modLine l s).trans (signals_takeLine ..)).trans (aside_lineParty ..).signals

theorem signals_seize (pos side line : Byte) (s : State) : SameSignals s (seize pos side line s).1 := by
  unfold seize
  split
  · dsimp only
    split_ifs
    iterate 4 exact .refl s
    split
    · exact signals_seizeIdle ..
    · exact signals_seizeRinging ..
    · exact signals_seizeConnected ..
    · exact signals_seizeHeld ..
    · exact .refl s
    · exact .refl s
  · exact .refl s

theorem signals_release (pos side : Byte) (s : State) : SameSignals s (release pos side s).1 := by
  unfold release
  split
  · exact .refl s
  · dsimp only
    split
    · dsimp only; exact (signals_leaveLine ..).trans (signals_clearLine ..)
    · exact signals_leaveLine ..

theorem signals_hold (pos side : Byte) (s : State) : SameSignals s (hold pos side s).1 := by
  unfold hold
  split
  · exact .refl s
  · next h l _ =>
    split
    · exact .refl s
    · dsimp only
      exact ((signals_leaveLine h l s).trans (signals_modLine l _)).trans (signals_setLineState ..)

theorem signals_privacy (pos side value : Byte) (s : State) : SameSignals s (privacy pos side value s).1 := by
  unfold privacy
  split
  · exact .refl s
  · split
    · exact .refl s
    · exact signals_modLine _ s

theorem signals_holdRecallExpiry (l : LineId) (s : State) : SameSignals s (holdRecallExpiry l s) := by
  have recalled (p : PosId) : SameSignals s (heldRecalled l p s) := by
    refine ⟨fun m => ?_⟩
    rw [heldRecalled_line]
    split
    · next e => rw [← e]; rfl
    · rfl
  unfold holdRecallExpiry
  dsimp only
  split
  · split
    · exact recalled _
    · exact .refl s
  · exact .refl s

theorem signals_query {kind index clear : Byte} {target : Addr} (next : execQuery kind index clear target s = .next t) :
    SameSignals s t := by
  have cleared (item : QueryItem) : SameSignals s (clearAfter s item) := by
    cases item with
    | line l => exact signals_modLine l s
    | _ => exact .of_lines fun _ => rfl
  unfold execQuery at next
  split at next
  · split at next
    · cases next; exact (aside_complete ..).signals
    · next item c _ =>
      cases next
      have taken : SameSignals s (if c then clearAfter s item else s) := by
        split
        · exact cleared item
        · exact .refl s
      exact taken.trans (Aside.signals ((aside_writeSnapshot ..).after rfl rfl rfl rfl))
  · cases next; exact .refl s

/-- A signal word moves the signals of its own line alone. -/
theorem signalWord_signals {l m : LineId} (other : m ≠ l) (w : Word) (s : State) :
    ((signalWord l w s).line m).signals = (s.line m).signals := by
  have stored : ((s.modLine l fun r => { r with farEnd := wordFarEnd w, ringInd := wordRing w }).line m).signals =
      (s.line m).signals := by rw [modLine_line_ne s l m _ (Ne.symm other)]
  have far (v : State) : SameSignals v (farEndChange l (wordFarEnd w) v) := by
    unfold farEndChange
    dsimp only
    split
    · exact (aside_post ..).signals.trans (signals_clearLine ..)
    · exact (aside_post ..).signals
  have ring (v : State) : SameSignals v (ringChange l (wordRing w) v) := by
    unfold ringChange
    dsimp only
    split
    · exact .refl v
    · split
      · exact signals_enterRinging ..
      · split
        · exact .refl v
        · exact signals_abandonRing ..
      · exact .refl v
  unfold signalWord
  dsimp only
  split_ifs
  · rfl
  · exact stored
  · exact stored
  · exact ((far _).line m).trans stored
  · exact ((ring _).line m).trans stored
  · exact ((ring _).line m).trans (((far _).line m).trans stored)

/-! ## Groups, RESTART and the loader -/

theorem signals_bridge (g : GroupId) (l : LineId) (s : State) : SameSignals s (bridge g l s) := by
  unfold bridge
  split
  · exact (signals_modLine l s).trans (signals_setLineState ..)
  · exact .refl s

theorem signals_unbridge (l : LineId) (s : State) : SameSignals s (unbridge l s) := by
  unfold unbridge
  split
  · exact ((signals_modLine l s).trans (signals_setLineState ..)).trans (signals_levelRule ..)
  · exact .refl s

theorem signals_groupSet (group : Byte) (c : GroupArgs) (s : State) : SameSignals s (groupSet group c s).1 := by
  rcases groupSet_cases group c s with same | ⟨g, hoots, policy, v, -, -, aside, applied⟩
  · rw [same]; exact .refl s
  · have configured : SameSignals s (v.modGroup g (GroupRec.configured c hoots policy)) :=
      aside.signals.trans (.of_lines fun _ => rfl)
    have bridged : SameSignals s (rebridged g (s.group g).hootLines hoots (v.modGroup g (GroupRec.configured c hoots policy))) :=
      (configured.trans (.foldl (fun v l => signals_unbridge l v) _ _)).trans (.foldl (fun v l => signals_bridge g l v) _ _)
    rw [applied, applyGroup_eq]
    exact bridged.trans ((aside_floorSettled ..).trans (aside_hangStep ..)).signals

theorem signals_restartLine (l : LineId) (s : State) : SameSignals s (restartLine l s) := by
  unfold restartLine
  split
  · exact signals_clearLine ..
  · exact signals_clearLine ..
  · exact signals_clearLine ..
  all_goals exact .refl s

theorem signals_restart (s : State) : SameSignals s (restart s).1 := by
  have lines : SameSignals s (restartLines s) := .foldl (fun v l => signals_restartLine l v) (List.finRange 96) s
  rw [restart_eq]
  generalize restartLines s = v at *
  dsimp only
  have groups : Aside v (flushed (restartGroups v)) :=
    (Aside.foldl (fun s g => aside_restartGroup g s) (List.finRange 16) v).trans (aside_flushed _)
  exact lines.trans groups.signals

theorem signals_bridgeGroup (g : GroupId) (s : State) : SameSignals s (bridgeGroup g s) := by
  rw [bridgeGroup_eq]
  split
  · exact .refl s
  · obtain ⟨ru, recorder, eq, -⟩ := hootRecorded_recorded g s
    rw [eq]
    exact (SameSignals.of_lines fun l => groupRecorded_line ..).trans (.foldl (fun v l => signals_bridge g l v) _ _)

theorem signals_enterRunning (length : Nat) (s : State) : SameSignals s (enterRunning length s) := by
  have steps := entered_entered s
  rw [enterRunning_eq]
  generalize entered s = v at *
  have marked : SameSignals s v := ⟨fun l => by rw [steps.line]; rfl⟩
  have bridged : SameSignals v (bridgeGroups v) := .foldl (fun v g => signals_bridgeGroup g v) (List.finRange 16) v
  exact (marked.trans bridged).trans (aside_started ..).signals

theorem signals_takeSections : ∀ (n : Nat) (s : State), SameSignals s (takeSections n s)
  | 0, s => .of_lines fun _ => rfl
  | n + 1, s => by
    unfold takeSections
    split
    · exact .of_lines fun _ => rfl
    · exact .of_lines fun _ => rfl
    · exact .of_lines fun _ => rfl
    · exact (nextSection_loads ..).signals.trans (signals_takeSections n _)
    · exact signals_enterRunning ..

theorem signals_configReadResponse {error : Bool} {data : List Byte} (next : execConfigReadResponse error data s = .next t) :
    SameSignals s t := by
  unfold execConfigReadResponse at next
  split at next
  · cases next; exact .refl s
  · next a u back =>
    have taken := (takeFlight_aside back).signals
    split at next
    · split at next <;> cases next
      · exact taken.trans (.of_lines fun _ => rfl)
      · have held : SameSignals u { u with ld := { u.ld with buf := u.ld.buf ++ data } } := .of_lines fun _ => rfl
        exact (taken.trans held).trans (signals_takeSections 10 _)
    · cases next; exact taken.trans (aside_faultIf error a u).signals

theorem signals_anchorWrite (v : Word) (s : State) : SameSignals s (anchorWrite v s) := by
  have loads : SameSignals s (if v = 0 then s else startLoad v s) := by
    split
    · exact .refl s
    · exact (startLoad_loads v s).signals
  unfold anchorWrite
  split
  · exact loads
  · exact loads
  · exact .refl s
  · exact .refl s

/-- Every command but a signal word and the resets leaves the stored signals alone, and a signal word those of other lines. -/
theorem exec_signals {c : Instr} {l : LineId} (next : exec c s = .next t) (word : ∀ w, c ≠ .signalWord l w)
    (reset : ∀ straps, c ≠ .powerOn straps ∧ c ≠ .resetN straps) : (t.line l).signals = (s.line l).signals := by
  have command {c : Instr} {act : State → State × Status} (acts : ∀ s, SameSignals s (act s).1)
      (next : runCommand c act s = .next t) : SameSignals s t :=
    runCommand_keeps (P := SameSignals s) (fun aside same => same.trans aside.signals) (.refl s) (fun _ => acts s) next
  by_cases touches : TouchesLines c
  · cases c with
    | lineSet line type pad preferred ringDelay policy recallTime =>
      exact (command (signals_lineSet line type pad preferred ringDelay policy recallTime) next).line l
    | lineService line dir => exact (command (signals_lineService line dir) next).line l
    | seize pos side line => exact (command (signals_seize pos side line) next).line l
    | release pos side => exact (command (signals_release pos side) next).line l
    | hold pos side => exact (command (signals_hold pos side) next).line l
    | privacy pos side value => exact (command (signals_privacy pos side value) next).line l
    | forceClear line => exact (command (signals_forceClear line) next).line l
    | groupSet group cfg => exact (command (signals_groupSet group cfg) next).line l
    | query kind index clear target => exact (signals_query next).line l
    | restart => exact (command signals_restart next).line l
    | signalWord m w =>
      have other : l ≠ m := fun e => word w (e ▸ rfl)
      exact inRunning_keeps (P := fun t => (t.line l).signals = (s.line l).signals)
        (act := fun s => signalWord m w (takeHanded (.signalWord m w) s)) rfl (fun _ => signalWord_signals other w _) next
    | holdRecallExpiry m =>
      exact (inRunning_keeps (P := SameSignals s) (.refl s) (fun _ => signals_holdRecallExpiry m s) next).line l
    | configReadResponse error data => exact (signals_configReadResponse next).line l
    | anchorWrite v => cases next; exact (signals_anchorWrite v (takeHanded (.anchor v) s)).line l
    | powerOn straps => exact absurd rfl (reset straps).1
    | resetN straps => exact absurd rfl (reset straps).2
    | _ => exact touches.elim
  · exact (exec_aside touches next).signals.line l

/-- Settles O44: `exec_signals` over all commands. -/
theorem onlySignalWordsMoveSignals : Obligations.OnlySignalWordsMoveSignals := fun c s t l next word reset => by
  have same := exec_signals next word reset
  exact ⟨(congrArg Prod.fst same :), (congrArg Prod.snd same :)⟩

end Sys2Proof.Machine

namespace Sys2Proof.Machine

variable {s : State} {l : LineId} {p : PosId} {old new : PosSet}

/-! # Presentation sets move at one position (R36 to R38) -/

theorem inSet_remove (old : PosSet) (p q : PosId) : inSet (old &&& ~~~(onlyPos p)) q = (inSet old q && !decide (q = p)) := by
  have only := inSet_onlyPos q p
  unfold inSet at only ⊢
  rw [BitVec.getLsbD_and, BitVec.getLsbD_not, only, decide_eq_true q.isLt, Bool.true_and]

/-- Two sets that differ at one position: the counts move there alone. -/
theorem moveShown_at (b : Bool) (only : ∀ q, q ≠ p → inSet old q = inSet new q) (s : State) :
    moveShown b old new s = moveAt b old new s p := by
  have series : ∀ (ps : List PosId) (s : State), ps.Nodup →
      ps.foldl (moveAt b old new) s = if p ∈ ps then moveAt b old new s p else s := by
    intro ps
    induction ps with
    | nil => exact fun s _ => rfl
    | cons q ps ih =>
      intro s once
      obtain ⟨fresh, once⟩ := List.nodup_cons.1 once
      rw [List.foldl_cons, ih _ once]
      by_cases e : q = p
      · subst e; simp [fresh]
      · have still : moveAt b old new s q = s := if_pos (only q e)
        simp [still, Ne.symm e]
  rw [moveShown_eq, series _ s (List.nodup_finRange 8), if_pos (List.mem_finRange p)]

theorem dropShown_eq_moveShown (b : Bool) (shown : inSet old p = true) (s : State) :
    dropShown b p s = moveShown b old (old &&& ~~~(onlyPos p)) s := by
  rw [moveShown_at (p := p) b (fun q e => by simp [inSet_remove, e]), moveAt, if_neg, if_neg] <;> simp [inSet_remove, shown]

theorem addShown_eq_moveShown (b : Bool) (off : inSet old p = false) (s : State) :
    addShown b p s = moveShown b old (old ||| onlyPos p) s := by
  rw [moveShown_at (p := p) b (fun q e => by simp [inSet_or, inSet_onlyPos, e]), moveAt, if_neg, if_pos] <;>
    simp [inSet_or, inSet_onlyPos, off]

/-- A ring's presentation set moves and no event of the ring is posted. -/
theorem ringMoves_of_shown (s : State) (l : LineId) (b : Bool) (old new : PosSet) (ring : Option RingRec) :
    RingMoves l b old new ring [] s (moveShown b old new (s.setRing l ring)) where
  ring := by simp
  others m h := by simp [setRing_ring, Ne.symm h]
  counts p := by rw [moveShown_posRing]; rfl
  events := by
    have moved := (posts_setRing s l ring).trans (posts_moveShown _ b old new)
    rwa [alertChanges_congr (s := s) fun p => by simp] at moved

/-! ## A line is lost on a position's map, or gained (R36 to R38) -/

theorem lineRemoved_of_none (ring : s.ring l = none) (p : PosId) : lineRemoved p l s = s := by simp only [lineRemoved, ring]
theorem lineAdded_of_none (ring : s.ring l = none) (p : PosId) : lineAdded p l s = s := by simp only [lineAdded, ring]

section
variable {r : RingRec} (ring : s.ring l = some r)
include ring

theorem lineRemoved_of_away (away : inSet r.shown p = false ∨ r.phase = .recall) : lineRemoved p l s = s := by
  simp only [lineRemoved, ring]
  split
  · next phase => rw [away.resolve_right (by simp [phase])]; rfl
  · next phase => rw [away.resolve_right (by simp [phase])]; rfl
  · rfl

theorem lineAdded_of_kept (kept : inSet r.shown p = true ∨ r.phase ≠ .general) : lineAdded p l s = s := by
  simp only [lineAdded, ring]
  split
  · next phase => rw [kept.resolve_right (by simp [phase])]; rfl
  · rfl
  · rfl

theorem lineRemoved_widens (phase : r.phase = .preferred) (shown : inSet r.shown p = true) :
    lineRemoved p l s = widen l .appearance r s := by simp only [lineRemoved, ring, phase, shown, if_true]

/-- A ring in GENERAL leaves the position that lost the line. -/
theorem lineRemoved_moves (phase : r.phase = .general) (shown : inSet r.shown p = true) :
    RingMoves l false r.shown (r.shown &&& ~~~(onlyPos p)) (some { r with shown := r.shown &&& ~~~(onlyPos p) }) [] s
      (lineRemoved p l s) := by
  simp only [lineRemoved, ring, phase, shown, if_true]
  rw [dropShown_eq_moveShown false shown]
  exact ringMoves_of_shown ..

/-- A ring in GENERAL comes to the position that gained the line. -/
theorem lineAdded_moves (phase : r.phase = .general) (off : inSet r.shown p = false) :
    RingMoves l false r.shown (r.shown ||| onlyPos p) (some { r with shown := r.shown ||| onlyPos p }) [] s
      (lineAdded p l s) := by
  simp only [lineAdded, ring, phase, off, Bool.false_eq_true, if_false]
  rw [addShown_eq_moveShown false off]
  exact ringMoves_of_shown ..

end

/-- Settles O19: every change of a presentation set is a `moveShown`. -/
theorem presentationMovesCounts : Obligations.PresentationMovesCounts := by
  refine ⟨fun b old new s => ⟨moveShown_posRing s b old new, posts_moveShown s b old new, ?_⟩,
    fun l cause pos r s ring => ⟨endRing_moves s ring cause pos, ?_⟩,
    fun p l r s ring => ⟨fun phase shown => ⟨appearing s l, inSet_appearing s l, ?_⟩, lineRemoved_moves ring,
      lineAdded_moves ring, lineRemoved_of_away ring, lineAdded_of_kept ring, ?_, ?_⟩⟩
  · apply State.ext_parts
    case rc => exact congrArg (RingCtl.mk · (moveShown b old new s).rc.counts) (moveShown_rings s b old new)
    all_goals simp
  · apply State.ext_parts <;> simp
  · rw [lineRemoved_widens ring phase shown]
    exact widen_moves s l .appearance r
  · apply State.ext_parts <;> simp
  · apply State.ext_parts <;> simp

end Sys2Proof.Machine

namespace Sys2Proof.Machine

variable {s t u v : State} {l : LineId} {g : GroupId}

/-! # The steps that leave the Ring Presenter alone -/

/-! ## Responses -/

theorem takeFlight_rc {which : Purpose → Bool} {k : Nat} {a : OwnAccess} (back : takeFlight which k s = some (a, u)) :
    u.rc = s.rc := by
  unfold takeFlight at back
  split at back
  · cases back
  · cases back; rfl

@[simp] theorem controlWordWriteResponse_rc (k : Nat) (error : Bool) (s : State) :
    (controlWordWriteResponse k error s).rc = s.rc := by
  unfold controlWordWriteResponse
  split
  · rfl
  · next back => simp [takeFlight_rc back]

@[simp] theorem indexWordWriteResponse_rc (k : Nat) (error : Bool) (s : State) :
    (indexWordWriteResponse k error s).rc = s.rc := by
  unfold indexWordWriteResponse
  split
  · rfl
  · next back => simp [takeFlight_rc back]

theorem execStatusWordWriteResponse_rc {k : Nat} {error : Bool} (next : execStatusWordWriteResponse k error s = .next t) :
    t.rc = s.rc := by
  unfold execStatusWordWriteResponse at next
  split at next
  · cases next; rfl
  · next back => cases next; simp [takeFlight_rc back]

/-! ## The Recorder Unit -/

@[simp] theorem recorderSet_rc (chan : Byte) (baseA ceilA baseB ceilB : Addr) (s : State) :
    (recorderSet chan baseA ceilA baseB ceilB s).1.rc = s.rc := by
  unfold recorderSet
  split
  · rfl
  · split_ifs <;> rfl

@[simp] theorem recordReturn_rc (chan buffer : Byte) (s : State) : (recordReturn chan buffer s).1.rc = s.rc := by
  unfold recordReturn
  split
  · split <;> rfl
  · rfl

@[simp] theorem recorderFrames_rc (s : State) : (recorderFrames s).rc = s.rc := by
  unfold recorderFrames; split <;> simp
@[simp] theorem sessionSegment_rc (c : ChanId) (s : State) : (sessionSegment c s).rc = s.rc := by
  unfold sessionSegment; split <;> simp
@[simp] theorem logConsumed_rc (v : Word) (s : State) : (logConsumed v s).rc = s.rc := by
  unfold logConsumed; split <;> simp

@[simp] theorem frameWriteResponse_rc (k : Nat) (error : Bool) (s : State) : (frameWriteResponse k error s).rc = s.rc := by
  unfold frameWriteResponse
  split
  · rfl
  · next back => split <;> simp [takeFlight_rc back]

@[simp] theorem logWriteResponse_rc (k : Nat) (error : Bool) (s : State) : (logWriteResponse k error s).rc = s.rc := by
  unfold logWriteResponse
  split
  · rfl
  · next back =>
    dsimp only
    split
    · split <;> simp [requestLogWord, takeFlight_rc back]
    · simp [takeFlight_rc back]
    · rfl

/-! ## The Frame Timer and the Mixing Engine -/

@[simp] theorem frameInPulse_rc (n : Nat) (s : State) : (frameInPulse n s).rc = s.rc := by
  unfold frameInPulse
  dsimp only
  split
  · rfl
  · rfl
  · split
    · rfl
    · split_ifs <;> rfl

@[simp] theorem pulseWatchExpiry_rc (s : State) : (pulseWatchExpiry s).rc = s.rc := by
  unfold pulseWatchExpiry
  split
  · rfl
  · dsimp only
    split <;> rfl

@[simp] theorem freewheelExpiry_rc (s : State) : (freewheelExpiry s).rc = s.rc := by
  unfold freewheelExpiry; split <;> rfl

@[simp] theorem timeSync_rc (w : BitVec 128) (s : State) : (timeSync w s).rc = s.rc := by
  unfold timeSync
  dsimp only
  split
  · rfl
  · split_ifs <;> rfl

@[simp] theorem frameEventMix_rc (s : State) : (frameEventMix s).rc = s.rc := by
  unfold frameEventMix; split <;> rfl

/-! ## The path unit -/

@[simp] theorem captureBeat_rc (bytes : List (Nat × Byte)) (s : State) : (captureBeat bytes s).rc = s.rc := by
  unfold captureBeat
  split
  · rfl
  · split
    · unfold assemble; dsimp only; split <;> rfl
    · rfl

@[simp] theorem acceptWrite_rc (x : WriteTxn) (s : State) : (acceptWrite x s).rc = s.rc :=
  (foldl_keeps (·.rc) (fun s b => captureBeat b s) (fun s b => captureBeat_rc b s) (txnBytes x) (forward (.write x) s) :)

@[simp] theorem acceptRead_rc (b : Burst) (s : State) : (acceptRead b s).rc = s.rc := by
  unfold acceptRead; split <;> rfl

@[simp] theorem grantOwn_rc (a : OwnAccess) (s : State) : (grantOwn a s).rc = s.rc := by
  unfold grantOwn clearMark
  dsimp only
  split <;> rfl

theorem execDownstreamGrant_rc (next : execDownstreamGrant s = .next t) : t.rc = s.rc := by
  unfold execDownstreamGrant at next
  split at next
  · cases next; rfl
  · cases next; simp
  · cases next; rfl
  · split at next <;> cases next
    · rfl
    · simp

theorem execPassThroughResponse_rc {k : Nat} {resp : Resp} {data : List (BitVec 64)}
    (next : execPassThroughResponse k resp data s = .next t) : t.rc = s.rc := by
  unfold execPassThroughResponse at next
  split at next <;> cases next <;> rfl

theorem execUpstreamWrite_rc {x : WriteTxn} (next : execUpstreamWrite x s = .next t) : t.rc = s.rc := by
  unfold execUpstreamWrite at next
  split at next <;> cases next
  exact acceptWrite_rc x s

theorem execUpstreamRead_rc {b : Burst} (next : execUpstreamRead b s = .next t) : t.rc = s.rc := by
  unfold execUpstreamRead at next
  split at next <;> cases next
  exact acceptRead_rc b s

/-! ## The Talk Floor Controller -/

@[simp] theorem hangExpiry_rc (g : GroupId) (s : State) : (hangExpiry g s).rc = s.rc := by
  unfold hangExpiry
  split
  · rfl
  · split <;> simp

theorem allocateGroup_rc {parties : List PosId} (h : allocateGroup g parties s = some t) : t.rc = s.rc := by
  unfold allocateGroup at h
  cases a : allocate (.group g) parties s with
  | none => rw [a] at h; cases h
  | some x =>
    rw [a] at h
    cases h
    rw [modGroup_rc, allocate_frame a]

theorem groupCheck_rc {policy : Policy} {parties : List PosId} {st : Status} (h : groupCheck g policy parties s = some (t, st)) :
    t.rc = s.rc := by
  unfold groupCheck at h
  split at h
  · cases h; rfl
  · split at h
    · next a => cases h; exact allocateGroup_rc a
    · cases h; rfl
  · obtain ⟨v, a, e⟩ := Option.map_eq_some_iff.1 h
    cases e
    exact allocateGroup_rc a

@[simp] theorem talkFull_rc (g : GroupId) (p : PosId) (s : State) : (talkFull g p s).1.rc = s.rc := by
  unfold talkFull
  dsimp only
  split
  · simp [preempt]
  · split <;> rfl

@[simp] theorem talk_rc (pos group : Byte) (s : State) : (talk pos group s).1.rc = s.rc := by
  unfold talk
  split
  · dsimp only
    split_ifs
    iterate 4 rfl
    · split
      · rfl
      · next check => simp [groupCheck_rc check]
    · simp
    · simp
  · rfl

@[simp] theorem talkEnd_rc (pos group : Byte) (s : State) : (talkEnd pos group s).1.rc = s.rc := by
  unfold talkEnd
  split
  · dsimp only
    split_ifs <;> simp
  · rfl

@[simp] theorem queueTimeoutExpiry_rc (g : GroupId) (s : State) : (queueTimeoutExpiry g s).rc = s.rc := by
  unfold queueTimeoutExpiry; split <;> simp
@[simp] theorem talkLimitExpiry_rc (g : GroupId) (s : State) : (talkLimitExpiry g s).rc = s.rc := by
  unfold talkLimitExpiry; split <;> simp

/-! ## Settings -/

@[simp] theorem handsetSet_rc (pos side volume micPad : Byte) (s : State) :
    (handsetSet pos side volume micPad s).1.rc = s.rc := by
  unfold handsetSet; split <;> rfl

@[simp] theorem positionSet_rc (pos micPad duck ringLevel recallLevel supervisor : Byte) (s : State) :
    (positionSet pos micPad duck ringLevel recallLevel supervisor s).1.rc = s.rc := by
  unfold positionSet; split <;> rfl

@[simp] theorem speakerSet_rc (pos chan kind subject flags volume : Byte) (s : State) :
    (speakerSet pos chan kind subject flags volume s).1.rc = s.rc := by
  unfold speakerSet
  split
  · rfl
  · dsimp only
    split
    · rfl
    · split <;> rfl
  · rfl

/-! ## The Command and Event Unit -/

@[simp] theorem commandPost_rc (v : Word) (s : State) : (commandPost v s).rc = s.rc := by
  unfold commandPost; split <;> simp
@[simp] theorem commandFetch_rc (s : State) : (commandFetch s).rc = s.rc := by
  unfold commandFetch; split <;> simp

@[simp] theorem fetched_rc (a : OwnAccess) (error : Bool) (bs : List Byte) (s : State) : (fetched a error bs s).rc = s.rc := by
  unfold fetched setCurrent
  dsimp only
  split
  · simp
  · split
    · simp
    · rfl

@[simp] theorem commandFetchResponse_rc (error : Bool) (slot : Table 32 Byte) (s : State) :
    (commandFetchResponse error slot s).rc = s.rc := by
  unfold commandFetchResponse
  split
  · rfl
  · next back => split <;> simp [takeFlight_rc back]

@[simp] theorem eventConsumed_rc (v : Word) (s : State) : (eventConsumed v s).rc = s.rc := by
  unfold eventConsumed; split <;> simp

@[simp] theorem eventWriteResponse_rc (k : Nat) (error : Bool) (s : State) : (eventWriteResponse k error s).rc = s.rc := by
  unfold eventWriteResponse
  split
  · rfl
  · next back =>
    dsimp only
    split <;> simp [requestEventWord, takeFlight_rc back]

@[simp] theorem writeSnapshot_rc (target : Addr) (bs : List Byte) (s : State) : (writeSnapshot target bs s).rc = s.rc :=
  foldl_keeps (·.rc) (fun s (b : List Byte × Nat) =>
    requestOwn .snapshot (target + BitVec.ofNat 36 (Config.burstBytes * b.2)) b.1 s) (fun _ _ => rfl) (burstsOf bs).zipIdx s

@[simp] theorem clearAfter_rc (s : State) (item : QueryItem) : (clearAfter s item).rc = s.rc := by cases item <;> rfl

theorem execQuery_rc {kind index clear : Byte} {target : Addr} (next : execQuery kind index clear target s = .next t) :
    t.rc = s.rc := by
  unfold execQuery at next
  split at next
  · split at next <;> cases next
    · simp
    · unfold takeSnapshot
      dsimp only
      rw [writeSnapshot_rc]
      split <;> simp
  · cases next; rfl

@[simp] theorem snapshotWriteResponse_rc (k : Nat) (error : Bool) (s : State) :
    (snapshotWriteResponse k error s).rc = s.rc := by
  unfold snapshotWriteResponse
  split
  · rfl
  · next back =>
    unfold snapshotReturned
    dsimp only
    split <;> simp [takeFlight_rc back]

/-! ## Lines that neither begin nor end a ring -/

@[simp] theorem leaveLine_rc (h : Handset) (l : LineId) (s : State) : (leaveLine h l s).rc = s.rc := rfl
@[simp] theorem lineParty_rc (l : LineId) (p : PosId) (s : State) : (lineParty l p s).rc = s.rc := by
  unfold lineParty; split <;> simp

theorem recorderCheck_rc {p : PosId} {st : Status} (check : recorderCheck l p s = some (v, st)) : v.rc = s.rc := by
  obtain ⟨ru, rec_, rfl⟩ := recorderCheck_given check
  rfl

@[simp] theorem hold_rc (pos side : Byte) (s : State) : (hold pos side s).1.rc = s.rc := by
  unfold hold
  split
  · rfl
  · split <;> simp

@[simp] theorem privacy_rc (pos side value : Byte) (s : State) : (privacy pos side value s).1.rc = s.rc := by
  unfold privacy
  split
  · rfl
  · split <;> rfl

@[simp] theorem bridgedOut_rc (l : LineId) (s : State) : (bridgedOut l s).rc = s.rc := by
  unfold bridgedOut
  split <;> simp [removeHoot]

@[simp] theorem seizeIdle_rc (h : Handset) (l : LineId) (s : State) : (seizeIdle h l s).1.rc = s.rc := by
  unfold seizeIdle
  split
  · rfl
  · next check => rw [takeLine_rc, recorderCheck_rc check]

@[simp] theorem seizeConnected_rc (h : Handset) (l : LineId) (s : State) : (seizeConnected h l s).1.rc = s.rc := by
  unfold seizeConnected
  dsimp only
  split_ifs
  · rfl
  · rfl
  · exact lineParty_rc ..

@[simp] theorem seizeHeld_rc (h : Handset) (l : LineId) (s : State) : (seizeHeld h l s).1.rc = s.rc := by
  unfold seizeHeld
  dsimp only
  split
  · rfl
  · rw [lineParty_rc, takeLine_rc, modLine_rc]

/-! ## Hoot lines (R27): no ring begins where one leaves its group -/

@[simp] theorem unbridge_rc (l : LineId) (s : State) : (unbridge l s).rc = s.rc := by
  by_cases accepts : (s.line l).type = .hoot ∧ (s.line l).state = .bridged
  · rw [(unbridge_switches l s accepts).frame]
  · rw [unbridge, if_neg accepts]

@[simp] theorem rebridged_rc (g : GroupId) (old hoots : List LineId) (s : State) : (rebridged g old hoots s).rc = s.rc := by
  unfold rebridged
  rw [foldl_keeps (·.rc) (fun s l => bridge g l s) (fun s l => bridge_rc s g l),
    foldl_keeps (·.rc) (fun s l => unbridge l s) (fun s l => unbridge_rc l s)]

theorem recordingStep_rc {members : PosSet} {hoots : List LineId} {most : Nat} {policy : Policy} {st : Status}
    (records : recordingStep g members hoots most policy s = some (v, st)) : v.rc = s.rc := by
  unfold recordingStep at records
  dsimp only at records
  split_ifs at records
  · cases records; rfl
  · exact groupCheck_rc records
  · exact groupCheck_rc records
  · cases records; rfl

theorem applyGroup_rc (c : GroupArgs) (hoots : List LineId) (policy : Policy) (old : GroupRec) (s : State) :
    (applyGroup g c hoots policy old s).rc = s.rc := by
  rw [applyGroup_eq, hangStep_rc, unhung, floorSettled_frame]
  simp

@[simp] theorem groupSet_rc (group : Byte) (c : GroupArgs) (s : State) : (groupSet group c s).1.rc = s.rc := by
  unfold groupSet
  split
  · split
    · split
      · rfl
      · split
        · rfl
        · next records => dsimp only; rw [applyGroup_rc, recordingStep_rc records]
    · rfl
  · rfl

@[simp] theorem restartGroups_rc (s : State) : (restartGroups s).rc = s.rc := by
  
  unfold restartGroups
  rw [(restartGroups_restarts _ s (List.nodup_finRange 16)).frame]

/-! ## The Configuration Loader -/

@[simp] theorem storeSection_rc (ident : Nat) (body : List Byte) (s : State) : (storeSection ident body s).rc = s.rc := by
  unfold storeSection; split <;> rfl

theorem bridgeGroup_rc (g : GroupId) (s : State) : (bridgeGroup g s).rc = s.rc := by
  rw [bridgeGroup_eq]
  split
  · rfl
  · obtain ⟨ru, recorder, eq, -⟩ := hootRecorded_recorded g s
    rw [bridgeHoots, foldl_keeps (·.rc) (fun s l => bridge g l s) (fun s l => bridge_rc s g l), eq]
    rfl

theorem enterRunning_rc (length : Nat) (s : State) : (enterRunning length s).rc = s.rc := by
  have here : (entered s).rc = s.rc := by rw [(entered_entered s).frame]
  rw [enterRunning_eq]
  generalize entered s = v at *
  have bridged : (bridgeGroups v).rc = v.rc :=
    foldl_keeps (·.rc) (fun s g => bridgeGroup g s) (fun s g => bridgeGroup_rc g s) _ _
  generalize bridgeGroups v = w at *
  exact bridged.trans here

theorem takeSections_rc : ∀ (n : Nat) (s : State), (takeSections n s).rc = s.rc
  | 0, _ => rfl
  | n + 1, s => by
    unfold takeSections
    split
    · rfl
    · rfl
    · rfl
    · rw [takeSections_rc n]
      exact storeSection_rc ..
    · exact enterRunning_rc ..

theorem execConfigReadResponse_rc {error : Bool} {data : List Byte} (next : execConfigReadResponse error data s = .next t) :
    t.rc = s.rc := by
  unfold execConfigReadResponse at next
  split at next
  · cases next; rfl
  · next back =>
    have taken := takeFlight_rc back
    split at next
    · split at next <;> cases next
      · exact taken
      · exact (takeSections_rc 10 _).trans taken
    · cases next
      exact (faultIf_rc ..).trans taken

@[simp] theorem anchorWrite_rc (v : Word) (s : State) : (anchorWrite v s).rc = s.rc := by
  unfold anchorWrite
  split
  · split <;> rfl
  · split <;> rfl
  · rfl
  · rfl

/-! ## Every command but those of the rings -/

/-- The commands that may begin, move or end a ring. -/
def TouchesRings : Instr → Prop
  | .lineSet .. | .lineService .. | .appearSet .. | .seize .. | .release .. | .forceClear .. | .restart | .signalWord ..
  | .holdRecallExpiry .. | .ringDelayExpiry .. | .powerOn .. | .resetN .. => True
  | _ => False

theorem runCommand_rc {c : Instr} {act : State → State × Status} (acts : ∀ s, (act s).1.rc = s.rc)
    (next : runCommand c act s = .next t) : t.rc = s.rc := by
  unfold runCommand at next
  split at next <;> cases next
  · exact (complete_rc ..).trans (acts s)
  · rfl

theorem inRunning_rc {act : State → State} (acts : ∀ s, (act s).rc = s.rc) (next : inRunning act s = .next t) : t.rc = s.rc :=
  inRunning_keeps (P := fun t => t.rc = s.rc) rfl (fun _ => acts s) next

/-- A watched word that its block takes from the hand-over list. -/
theorem inRunning_handed_rc {act : State → State} {w : Handed} (acts : ∀ s, (act s).rc = s.rc)
    (next : inRunning (fun s => act (takeHanded w s)) s = .next t) : t.rc = s.rc :=
  inRunning_rc (fun s => acts (takeHanded w s)) next

/-- Every other command leaves the Ring Presenter alone. -/
theorem exec_rc {c : Instr} (off : ¬TouchesRings c) (next : exec c s = .next t) : t.rc = s.rc := by
  cases c with
  | hold pos side => exact runCommand_rc (hold_rc pos side) next
  | privacy pos side value => exact runCommand_rc (privacy_rc pos side value) next
  | handsetSet pos side volume micPad => exact runCommand_rc (handsetSet_rc pos side volume micPad) next
  | positionSet pos micPad duck ringLevel recallLevel supervisor =>
    exact runCommand_rc (positionSet_rc pos micPad duck ringLevel recallLevel supervisor) next
  | speakerSet pos chan kind subject flags volume => exact runCommand_rc (speakerSet_rc pos chan kind subject flags volume) next
  | groupSet group cfg => exact runCommand_rc (groupSet_rc group cfg) next
  | talk pos group => exact runCommand_rc (talk_rc pos group) next
  | talkEnd pos group => exact runCommand_rc (talkEnd_rc pos group) next
  | recorderSet chan baseA ceilA baseB ceilB => exact runCommand_rc (recorderSet_rc chan baseA ceilA baseB ceilB) next
  | recordReturn chan buffer => exact runCommand_rc (recordReturn_rc chan buffer) next
  | query kind index clear target => exact execQuery_rc next
  | commandPost v => exact inRunning_handed_rc (commandPost_rc v) next
  | commandFetch => exact inRunning_rc commandFetch_rc next
  | commandFetchResponse error slot => exact inRunning_rc (commandFetchResponse_rc error slot) next
  | eventConsumed v => exact inRunning_handed_rc (eventConsumed_rc v) next
  | eventWriteResponse k error => exact inRunning_rc (eventWriteResponse_rc k error) next
  | logConsumed v => exact inRunning_handed_rc (logConsumed_rc v) next
  | queueTimeoutExpiry g => exact inRunning_rc (queueTimeoutExpiry_rc g) next
  | talkLimitExpiry g => exact inRunning_rc (talkLimitExpiry_rc g) next
  | hangExpiry g => exact inRunning_rc (hangExpiry_rc g) next
  | frameInPulse n => exact inRunning_rc (frameInPulse_rc n) next
  | pulseWatchExpiry => exact inRunning_rc pulseWatchExpiry_rc next
  | freewheelTimerExpiry => exact inRunning_rc freewheelExpiry_rc next
  | frameEventMix => exact inRunning_rc frameEventMix_rc next
  | recorderFrames => exact inRunning_rc recorderFrames_rc next
  | sessionSegment c => exact inRunning_rc (sessionSegment_rc c) next
  | frameWriteResponse k error => exact inRunning_rc (frameWriteResponse_rc k error) next
  | logWriteResponse k error => exact inRunning_rc (logWriteResponse_rc k error) next
  | controlWordWriteResponse k error => exact inRunning_rc (controlWordWriteResponse_rc k error) next
  | snapshotWriteResponse k error => exact inRunning_rc (snapshotWriteResponse_rc k error) next
  | indexWordWriteResponse k error => exact inRunning_rc (indexWordWriteResponse_rc k error) next
  | statusWordWriteResponse k error => exact execStatusWordWriteResponse_rc next
  | configReadResponse error data => exact execConfigReadResponse_rc next
  | anchorWrite v => cases next; exact anchorWrite_rc v _
  | timeSyncWord w => exact inRunning_handed_rc (timeSync_rc w) next
  | upstreamWrite x => exact execUpstreamWrite_rc next
  | upstreamRead b => exact execUpstreamRead_rc next
  | outboundRead b => exact execUpstreamRead_rc next
  | passThroughResponse k resp data => exact execPassThroughResponse_rc next
  | downstreamGrant => exact execDownstreamGrant_rc next
  | _ => exact absurd trivial off

end Sys2Proof.Machine

namespace Sys2Proof.Machine

variable {s t : State} {l : LineId}

/-! # The counts follow the rings at every step (R30) -/

/-! ## A ring moves, begins or ends -/

theorem ShownAs.of_phase {r : RingRec} (phase : r.phase ≠ .recall) : ShownAs (some r) false r.shown := by
  have self := shownAs_self r
  rwa [beq_eq_false_iff_ne.2 phase] at self

theorem alertLaw_widen (law : AlertLaw s) {r : RingRec} (ring : s.ring l = some r) (phase : r.phase ≠ .recall)
    (reason : PhaseReason) : AlertLaw (widen l reason r s) :=
  (widen_moves s l reason r).alertLaw (ring ▸ .of_phase phase) (shownAs_self _) law

theorem alertLaw_lineRemoved (law : AlertLaw s) (p : PosId) (l : LineId) : AlertLaw (lineRemoved p l s) := by
  cases ring : s.ring l with
  | none => rwa [lineRemoved_of_none ring]
  | some r =>
    by_cases away : inSet r.shown p = false ∨ r.phase = .recall
    · rwa [lineRemoved_of_away ring away]
    · obtain ⟨shown, phase⟩ := not_or.1 away
      rw [Bool.not_eq_false] at shown
      match kind : r.phase with
      | .preferred => rw [lineRemoved_widens ring kind shown]; exact alertLaw_widen law ring phase .appearance
      | .general =>
        exact (lineRemoved_moves ring kind shown).alertLaw (ring ▸ .of_phase phase)
          (.of_phase (r := { r with shown := r.shown &&& ~~~(onlyPos p) }) phase) law
      | .recall => exact absurd kind phase

theorem alertLaw_lineAdded (law : AlertLaw s) (p : PosId) (l : LineId) : AlertLaw (lineAdded p l s) := by
  cases ring : s.ring l with
  | none => rwa [lineAdded_of_none ring]
  | some r =>
    by_cases kept : inSet r.shown p = true ∨ r.phase ≠ .general
    · rwa [lineAdded_of_kept ring kept]
    · obtain ⟨off, general⟩ := not_or.1 kept
      rw [Bool.not_eq_true] at off
      have general : r.phase = .general := not_not.1 general
      have phase : r.phase ≠ .recall := by simp [general]
      exact (lineAdded_moves ring general off).alertLaw (ring ▸ .of_phase phase)
        (.of_phase (r := { r with shown := r.shown ||| onlyPos p }) phase) law

theorem alertLaw_levelRule (law : AlertLaw s) (silent : (s.line l).state = .idle → s.ring l = none) :
    AlertLaw (levelRule l s) := by
  unfold levelRule
  dsimp only
  split
  · next rings => exact alertLaw_enterRinging law (silent rings.2.1)
  · exact law

/-- A clearing ends the line's ring, so that the level rule can begin another. -/
theorem alertLaw_clearLine (law : AlertLaw s) (ok : LineOk s l) (cause : LineCause) (st : LineState) :
    AlertLaw (clearLine l cause st s) := by
  rw [clearLine_eq]
  refine alertLaw_levelRule (alertLaw_clearedLine law l cause st) fun _ => ?_
  rw [clearedLine_ring]
  split
  · rfl
  · next other => exact ok.no_ring fun e => other ⟨rfl, e⟩

theorem alertLaw_abandonRing (law : AlertLaw s) (l : LineId) : AlertLaw (abandonRing l s) :=
  (alertLaw_endRing law l .abandoned none).congr (by simp [abandonRing])

/-! ## Signal words and deadlines (R5 to R7, R20, R34) -/

theorem alertLaw_farEndChange (law : AlertLaw s) (ok : LineOk s l) (far : Hook) : AlertLaw (farEndChange l far s) := by
  have told : AlertLaw (post (.farEnd l far) s) := law.congr (by simp)
  have toldOk : LineOk (post (.farEnd l far) s) l := ((CallStep.refl ok).aside (aside_post ..)).ok
  unfold farEndChange
  dsimp only
  split
  · exact alertLaw_clearLine told toldOk .farEndClear .idle
  · exact told

theorem alertLaw_ringChange (law : AlertLaw s) (ok : LineOk s l) (ind : RingInd) : AlertLaw (ringChange l ind s) := by
  unfold ringChange
  dsimp only
  split
  · exact law
  · split
    · next idle => exact alertLaw_enterRinging law (ok.no_ring (by simp [idle]))
    · split
      · exact law
      · exact alertLaw_abandonRing law l
    · exact law

theorem alertLaw_signalWord (law : AlertLaw s) (ok : LineOk s l) (w : Word) :
    AlertLaw (signalWord l w (takeHanded (.signalWord l w) s)) := by
  have taken : LineOk (takeHanded (.signalWord l w) s) l := ((CallStep.refl ok).aside (aside_takeHanded ..)).ok
  have storedOk : LineOk (signalStored l w s) l := (modLine_step taken rfl rfl rfl rfl rfl rfl taken.missed).ok
  have stored : AlertLaw (signalStored l w s) := law.congr rfl
  have told := alertLaw_farEndChange stored storedOk (wordFarEnd w)
  rw [signalWord_eq]
  unfold ringFollows
  split_ifs
  · exact law.congr rfl
  · exact stored
  · exact stored
  · exact told
  · exact alertLaw_ringChange stored storedOk (wordRing w)
  · exact alertLaw_ringChange told (farEndChange_step storedOk _).ok (wordRing w)

theorem alertLaw_holdRecallExpiry (law : AlertLaw s) (ok : LineOk s l) : AlertLaw (holdRecallExpiry l s) := by
  unfold holdRecallExpiry
  dsimp only
  split
  · next d p state _ _ =>
    split
    · have silent : s.ring l = none := ok.no_ring (by simp [state])
      exact (heldRecalled_moves s l p).alertLaw (silent ▸ shownAs_none true) (shownAs_self _) law
    · exact law
  · exact law

theorem alertLaw_ringDelayExpiry (law : AlertLaw s) (l : LineId) : AlertLaw (ringDelayExpiry l s) := by
  unfold ringDelayExpiry
  split
  · exact law
  · next r ring =>
    split
    · next phase _ =>
      split
      · exact alertLaw_widen law ring (by simp [phase]) .expiry
      · exact law
    · exact law

/-! ## The host commands on lines and appearances -/

theorem alertLaw_lineSet (law : AlertLaw s) (lines : LineLaw s) (line type pad preferred ringDelay policy : Byte)
    (recallTime : Half) : AlertLaw (lineSet line type pad preferred ringDelay policy recallTime s).1 := by
  unfold lineSet
  split
  · next l ty pref pol _ _ _ _ =>
    split
    · next state =>
      have silent : s.ring l = none := (lines.ok l).no_ring (by rcases state with e | e <;> simp [e])
      exact alertLaw_levelRule (law.congr rfl) fun _ => silent
    · exact law
  · exact law

theorem alertLaw_lineService (law : AlertLaw s) (lines : LineLaw s) (line dir : Byte) :
    AlertLaw (lineService line dir s).1 := by
  unfold lineService
  split
  · next l _ _ =>
    split
    · next out =>
      exact alertLaw_levelRule (law.congr (by simp)) fun _ => by simpa using (lines.ok l).no_ring (by simp [out])
    · exact law
  · next l _ _ =>
    have cleared := alertLaw_clearLine law (lines.ok l) .outOfService .outOfService
    split
    · exact law
    · exact law.congr (by simp)
    · dsimp only; exact cleared
    · dsimp only; exact cleared
    · dsimp only; exact cleared
    · exact law.congr (by simp)
  · exact law

theorem alertLaw_forceClear (law : AlertLaw s) (lines : LineLaw s) (line : Byte) : AlertLaw (forceClear line s).1 := by
  unfold forceClear
  split
  · exact law
  · next l _ =>
    have cleared := alertLaw_clearLine law (lines.ok l) .forced .idle
    split
    · exact law
    · dsimp only; exact cleared
    · dsimp only; exact cleared
    · dsimp only; exact cleared
    · exact law
    · exact law

theorem alertLaw_appearSet (law : AlertLaw s) (pos key line : Byte) : AlertLaw (appearSet pos key line s).1 := by
  unfold appearSet
  split
  · next p k new _ _ _ =>
    have keyed : AlertLaw (s.setKey p k new) := law.congr rfl
    dsimp only
    split_ifs
    · exact law
    · exact law
    · exact law
    · cases (s.map p).get k <;> cases new
      · exact keyed
      · exact alertLaw_lineAdded keyed ..
      · exact alertLaw_lineRemoved keyed ..
      · exact alertLaw_lineAdded (alertLaw_lineRemoved keyed ..) ..
  · exact law

theorem alertLaw_seizeRinging (law : AlertLaw s) (h : Handset) (l : LineId) : AlertLaw (seizeRinging h l s).1 := by
  unfold seizeRinging
  split
  · exact law
  · split_ifs
    · exact law
    · exact (alertLaw_endRing law l .answered (some h.pos)).congr (by simp [takeLine_rc])
    · split
      · exact law
      · next v st check =>
        exact (alertLaw_endRing (law.congr (recorderCheck_rc check)) l .answered (some h.pos)).congr (by simp [takeLine_rc])

theorem alertLaw_seize (law : AlertLaw s) (pos side line : Byte) : AlertLaw (seize pos side line s).1 := by
  unfold seize
  split
  · dsimp only
    split_ifs
    iterate 4 exact law
    split
    · exact law.congr (by simp)
    · exact alertLaw_seizeRinging law ..
    · exact law.congr (by simp)
    · exact law.congr (by simp)
    · exact law
    · exact law
  · exact law

theorem alertLaw_release (law : AlertLaw s) (lines : LineLaw s) (pos side : Byte) : AlertLaw (release pos side s).1 := by
  unfold release
  split
  · exact law
  · next h l named =>
    dsimp only
    split
    · next gone =>
      rw [clearLine_leaveLine ((lines.ok l).sole (boundLine_ok named) gone)]
      dsimp only
      exact alertLaw_clearLine law (lines.ok l) .released .idle
    · exact law.congr rfl

theorem alertLaw_restart (law : AlertLaw s) (lines : LineLaw s) : AlertLaw (restart s).1 := by
  have restarted : AlertLaw (restartLines s) :=
    (restartLines_restarts (List.finRange 96) s (List.nodup_finRange 96) fun l _ => lines.rings l).alerts law
  rw [restart_eq]
  exact restarted.congr (by simp [flushed_eq])

/-! ## Every command -/

theorem runCommand_alertLaw {c : Instr} {act : State → State × Status} (law : AlertLaw s) (acts : AlertLaw (act s).1)
    (next : runCommand c act s = .next t) : AlertLaw t := by
  unfold runCommand at next
  split at next <;> cases next
  · exact acts.congr (complete_rc ..)
  · exact law

theorem inRunning_alertLaw {act : State → State} (law : AlertLaw s) (acts : AlertLaw (act s))
    (next : inRunning act s = .next t) : AlertLaw t :=
  inRunning_keeps law (fun _ => acts) next

/-- The line laws serve to tell that a line which goes on to RINGING has no ring, so that none is counted twice. -/
theorem exec_alertLaw {c : Instr} (lines : LineLaw s) (law : AlertLaw s) (next : exec c s = .next t) : AlertLaw t := by
  by_cases touches : TouchesRings c
  · cases c with
    | lineSet line type pad preferred ringDelay policy recallTime =>
      exact runCommand_alertLaw law (alertLaw_lineSet law lines line type pad preferred ringDelay policy recallTime) next
    | lineService line dir => exact runCommand_alertLaw law (alertLaw_lineService law lines line dir) next
    | appearSet pos key line => exact runCommand_alertLaw law (alertLaw_appearSet law pos key line) next
    | seize pos side line => exact runCommand_alertLaw law (alertLaw_seize law pos side line) next
    | release pos side => exact runCommand_alertLaw law (alertLaw_release law lines pos side) next
    | forceClear line => exact runCommand_alertLaw law (alertLaw_forceClear law lines line) next
    | restart => exact runCommand_alertLaw law (alertLaw_restart law lines) next
    | signalWord l w =>
      exact inRunning_alertLaw (act := fun s => signalWord l w (takeHanded (.signalWord l w) s)) law
        (alertLaw_signalWord law (lines.ok l) w) next
    | holdRecallExpiry l => exact inRunning_alertLaw law (alertLaw_holdRecallExpiry law (lines.ok l)) next
    | ringDelayExpiry l => exact inRunning_alertLaw law (alertLaw_ringDelayExpiry law l) next
    | powerOn straps => cases next; exact alertLaw_afterReset ..
    | resetN straps => cases next; exact alertLaw_afterReset ..
    | _ => exact touches.elim
  · exact law.congr (exec_rc touches next)

/-- Settles O7: `exec_alertLaw` over all commands. -/
theorem stepKeepsAlertLaw : Obligations.StepKeepsAlertLaw := by
  intro s t lines law next
  unfold step at next
  split at next
  · cases next
    exact law.congr rfl
  · next rest _ =>
    have taken : Aside s { s with pending := rest } := .of_eq rfl rfl rfl rfl
    exact exec_alertLaw (taken.lineLaw lines) (law.congr rfl) next

end Sys2Proof.Machine

namespace Sys2Proof.Machine

variable {s t : State} {g : GroupId}

/-! # Grants, the grant pass and the start of the hang (R50, R54, R65) -/

/-! ## What the Recorder Unit is told (R148) -/

theorem partyTold_ruTold (recorder : Option ChanId) (p : PosId) (s : State) :
    PartyTold recorder p s (ruTold recorder [p] s) := by cases recorder <;> rfl

theorem partyArrivals_frame (c : ChanId) (ps : List PosId) (s : State) : ps.foldl (fun v p => partyArrival c p v) s =
    { s with ru := { s.ru with channels := (ps.foldl (fun v p => partyArrival c p v) s).ru.channels } } := by
  induction ps generalizing s with
  | nil => rfl
  | cons p ps ih => exact ih (partyArrival c p s)

/-- Only the channels of the Recorder Unit move when it is told of positions. -/
theorem ruTold_channels (recorder : Option ChanId) (ps : List PosId) (s : State) :
    ruTold recorder ps s = { s.ru with channels := (ruTold recorder ps s).channels } := by
  cases recorder with
  | none => rfl
  | some c => exact congrArg State.ru (partyArrivals_frame c ps s)

/-- The session of the channel told takes up the positions in order, each once. -/
theorem partyArrivals_session (c : ChanId) (ps : List PosId) (s : State) :
    ((ps.foldl (fun v p => partyArrival c p v) s).chan c).session =
      (s.chan c).session.map fun x => { x with parties := ps.foldl (fun l p => addParty p l) x.parties } := by
  induction ps generalizing s with
  | nil => simp
  | cons p ps ih => rw [List.foldl_cons, ih, partyArrival, modChan_chan_self]; simp [Function.comp_def]

/-! ## Frames -/

theorem grantPlace_frame (g : GroupId) (p : PosId) (standing : Bool) (s : State) : grantPlace g p standing s = { s with
    fc := (grantPlace g p standing s).fc
    ru := (grantPlace g p standing s).ru
    cu := (grantPlace g p standing s).cu
    pu := (grantPlace g p standing s).pu } := by
  apply State.ext_parts <;> simp

theorem grantPlace_others (s : State) (g : GroupId) (p : PosId) (standing : Bool) :
    OnlyGroup g s (grantPlace g p standing s) := fun h hg => by rw [grantPlace_group, if_neg (Ne.symm hg)]

/-- The pass leaves all but the floor, what is posted and the channels that are told of the grants. -/
theorem grantPass_frame (g : GroupId) (s : State) : grantPass g s = { s with
    fc := (grantPass g s).fc
    ru := { s.ru with channels := (grantPass g s).ru.channels }
    cu := (grantPass g s).cu
    pu := (grantPass g s).pu } := by
  apply State.ext_parts
  case ru => rw [(grantPass_grants s g).ru]; exact ruTold_channels ..
  all_goals simp

/-! ## The start of the hang, case by case (R65) -/

theorem startHang_keeps (h : (s.group g).hasTalkers = true ∨ (s.group g).recorder = none) : startHang g s = s := by
  rw [startHang, if_pos h]

theorem startHang_starts (silent : (s.group g).hasTalkers = false) {c : ChanId} (recorder : (s.group g).recorder = some c)
    (time : 0 < (s.group g).hangTime) :
    startHang g s = s.modGroup g fun r => { r with hangDeadline := some (s.now + BitVec.ofNat 32 r.hangTime) } := by
  simp [startHang, silent, recorder, time]

theorem startHang_ends (silent : (s.group g).hasTalkers = false) {c : ChanId} (recorder : (s.group g).recorder = some c)
    (time : (s.group g).hangTime = 0) :
    startHang g s = (sessionEnd c .groupSilent s).modGroup g fun r => { r with recorder := none } := by
  simp [startHang, silent, recorder, time, endGroupSession]

theorem onlyGroup_modGroup (s : State) (g : GroupId) (f : GroupRec → GroupRec) : OnlyGroup g s (s.modGroup g f) :=
  (modGroup_floorStep s g f).others

/-- A group's session ends, and no other group moves. -/
theorem onlyGroup_endGroupSession (s : State) (g : GroupId) (cause : SessionCause) : OnlyGroup g s (endGroupSession g cause s) :=
  fun h hg => by rw [endGroupSession_group, if_neg (Ne.symm hg)]

/-- The end of a session leaves all but the Recorder Unit. -/
theorem sessionEnd_frame (c : ChanId) (cause : SessionCause) (s : State) :
    sessionEnd c cause s = { s with ru := (sessionEnd c cause s).ru } := by
  unfold sessionEnd; split <;> rfl

/-- Settles O31: the pass is `grantPass_grants`, the hang by who still talks and for how long the group hangs. -/
theorem placesAreGranted : Obligations.PlacesAreGranted := by
  refine ⟨?_, ?_, ?_⟩
  · intro g p standing s r t
    refine ⟨?_, grantPlace_others s g p standing, ?_, posts_grantPlace s g p standing, grantPlace_frame g p standing s⟩
    · exact (grantPlace_group s g g p standing).trans (if_pos rfl)
    · exact grantPlace_ru s g p standing ▸ partyTold_ruTold r.recorder p s
  · intro g s r n t
    obtain ⟨group, others, events, ru⟩ := grantPass_grants s g
    refine ⟨group, others, events, fun c x recorder session => ?_, grantPass_frame g s⟩
    have told : t.chan c = (((r.queue.take n).map (·.pos)).foldl (fun v p => partyArrival c p v) s).chan c := by
      change t.ru = ruTold r.recorder _ s at ru
      rw [State.chan, ru, recorder]
      rfl
    rw [told, partyArrivals_session, session, Option.map_some, List.foldl_map]
  · intro g s r t
    refine ⟨fun talks => startHang_keeps ?_, fun c holders hoots recorder => ?_⟩
    · rw [← Bool.not_eq_false, hasTalkers_eq_false]
      tauto
    · have silent := hasTalkers_eq_false.2 ⟨holders, hoots⟩
      refine ⟨fun time => ?_, fun time => ?_⟩
      · rw [show t = _ from startHang_starts silent recorder time]
        exact ⟨modGroup_group_self .., onlyGroup_modGroup s g _, rfl⟩
      · rw [show t = _ from startHang_ends silent recorder time, sessionEnd_frame c .groupSilent s]
        exact ⟨modGroup_group_self .., onlyGroup_modGroup { s with ru := _ } g _, rfl⟩

end Sys2Proof.Machine

namespace Sys2Proof.Machine

variable {s t u v : State} {l : LineId} {g : GroupId}

/-! # The steps off the floor

Most commands leave the Talk Floor Controller and the loader alone. -/

/-- A step that leaves the Talk Floor Controller and the loader alone. -/
structure OffFloor (s t : State) : Prop where
  fc : t.fc = s.fc
  ld : t.ld = s.ld

theorem OffFloor.of_eq (fc : t.fc = s.fc := by simp) (ld : t.ld = s.ld := by simp) : OffFloor s t := ⟨fc, ld⟩

theorem OffFloor.refl (s : State) : OffFloor s s := ⟨rfl, rfl⟩

theorem OffFloor.trans (a : OffFloor s t) (b : OffFloor t u) : OffFloor s u := ⟨b.fc.trans a.fc, b.ld.trans a.ld⟩

theorem OffFloor.foldl {α : Type} {f : State → α → State} (step : ∀ s a, OffFloor s (f s a)) (as : List α) (s : State) :
    OffFloor s (as.foldl f s) :=
  ⟨foldl_keeps (·.fc) f (fun s a => (step s a).fc) as s, foldl_keeps (·.ld) f (fun s a => (step s a).ld) as s⟩

/-! ## Responses -/

theorem offFloor_takeFlight {which : Purpose → Bool} {k : Nat} {a : OwnAccess} (back : takeFlight which k s = some (a, u)) :
    OffFloor s u := by
  unfold takeFlight at back
  split at back
  · cases back
  · cases back; exact .of_eq

/-- A response whose access is taken out of flight, and its fault told. -/
theorem offFloor_faulted {which : Purpose → Bool} {k : Nat} {a : OwnAccess} (back : takeFlight which k s = some (a, u))
    (error : Bool) : OffFloor s (faultIf error a u) := (offFloor_takeFlight back).trans .of_eq

theorem offFloor_controlWordWriteResponse (k : Nat) (error : Bool) (s : State) :
    OffFloor s (controlWordWriteResponse k error s) := by
  unfold controlWordWriteResponse
  split
  · exact .refl s
  · next back => exact offFloor_faulted back error

theorem offFloor_indexWordWriteResponse (k : Nat) (error : Bool) (s : State) :
    OffFloor s (indexWordWriteResponse k error s) := by
  unfold indexWordWriteResponse
  split
  · exact .refl s
  · next back => exact offFloor_faulted back error

theorem offFloor_statusWordWriteResponse {k : Nat} {error : Bool} (next : execStatusWordWriteResponse k error s = .next t) :
    OffFloor s t := by
  unfold execStatusWordWriteResponse at next
  split at next
  · cases next; exact .refl s
  · next back => cases next; exact offFloor_faulted back error

/-! ## The Recorder Unit -/

theorem offFloor_recorderSet (chan : Byte) (baseA ceilA baseB ceilB : Addr) (s : State) :
    OffFloor s (recorderSet chan baseA ceilA baseB ceilB s).1 := by
  unfold recorderSet
  split
  · exact .refl s
  · split_ifs
    · exact .of_eq rfl rfl
    · exact .refl s
    · exact .refl s

theorem offFloor_recordReturn (chan buffer : Byte) (s : State) : OffFloor s (recordReturn chan buffer s).1 := by
  unfold recordReturn
  split
  · split
    · exact .refl s
    · exact .of_eq
  · exact .refl s

theorem offFloor_recorderFrames (s : State) : OffFloor s (recorderFrames s) := by
  unfold recorderFrames
  split
  · exact .refl s
  · exact .of_eq

theorem offFloor_sessionSegment (c : ChanId) (s : State) : OffFloor s (sessionSegment c s) := by
  unfold sessionSegment
  split
  · exact offFloor_recorderFrames s
  · exact .refl s

theorem offFloor_logConsumed (n : Word) (s : State) : OffFloor s (logConsumed n s) := by
  unfold logConsumed
  split <;> exact .of_eq

theorem offFloor_frameWriteResponse (k : Nat) (error : Bool) (s : State) : OffFloor s (frameWriteResponse k error s) := by
  unfold frameWriteResponse
  split
  · exact .refl s
  · next back =>
    split
    · exact (offFloor_faulted back error).trans .of_eq
    · exact .refl s

theorem offFloor_logWriteResponse (k : Nat) (error : Bool) (s : State) : OffFloor s (logWriteResponse k error s) := by
  unfold logWriteResponse
  split
  · exact .refl s
  · next back =>
    have told := offFloor_faulted back error
    dsimp only
    split
    · split
      · exact told.trans (.of_eq rfl rfl)
      · exact told
    · exact told.trans .of_eq
    · exact .refl s

/-! ## The Frame Timer and the Mixing Engine -/

theorem offFloor_frameInPulse (n : Nat) (s : State) : OffFloor s (frameInPulse n s) := by
  unfold frameInPulse
  dsimp only
  split
  · exact .of_eq rfl rfl
  · exact .of_eq rfl rfl
  · split
    · exact .of_eq rfl rfl
    · split_ifs <;> exact .of_eq rfl rfl

theorem offFloor_pulseWatchExpiry (s : State) : OffFloor s (pulseWatchExpiry s) := by
  unfold pulseWatchExpiry
  split
  · exact .refl s
  · dsimp only
    split <;> exact .of_eq rfl rfl

theorem offFloor_freewheelExpiry (s : State) : OffFloor s (freewheelExpiry s) := by
  unfold freewheelExpiry
  split <;> exact .of_eq rfl rfl

theorem offFloor_timeSync (w : BitVec 128) (s : State) : OffFloor s (timeSync w s) := by
  unfold timeSync
  dsimp only
  split
  · exact .of_eq rfl rfl
  · split_ifs <;> exact .of_eq rfl rfl

theorem offFloor_frameEventMix (s : State) : OffFloor s (frameEventMix s) := by
  unfold frameEventMix
  split <;> exact .of_eq rfl rfl

/-! ## The path unit -/

theorem offFloor_captureBeat (bytes : List (Nat × Byte)) (s : State) : OffFloor s (captureBeat bytes s) := by
  unfold captureBeat
  split
  · exact .refl s
  · split
    · unfold assemble
      dsimp only
      split <;> exact .of_eq rfl rfl
    · exact .refl s

theorem offFloor_upstreamWrite {x : WriteTxn} (next : execUpstreamWrite x s = .next t) : OffFloor s t := by
  unfold execUpstreamWrite at next
  split at next <;> cases next
  have forwarded : OffFloor s (forward (.write x) s) := .of_eq rfl rfl
  have captured := OffFloor.foldl (fun s b => offFloor_captureBeat b s) (txnBytes x) (forward (.write x) s)
  exact (forwarded.trans captured).trans (.of_eq rfl rfl)

theorem offFloor_upstreamRead {b : Burst} (next : execUpstreamRead b s = .next t) : OffFloor s t := by
  unfold execUpstreamRead at next
  split at next <;> cases next
  unfold acceptRead
  split <;> exact .of_eq rfl rfl

theorem offFloor_grantOwn (a : OwnAccess) (s : State) : OffFloor s (grantOwn a s) := by
  unfold grantOwn clearMark
  dsimp only
  split <;> exact .of_eq rfl rfl

theorem offFloor_downstreamGrant (next : execDownstreamGrant s = .next t) : OffFloor s t := by
  unfold execDownstreamGrant at next
  split at next
  · cases next; exact .refl s
  · cases next; exact offFloor_grantOwn ..
  · cases next; exact .of_eq rfl rfl
  · split at next <;> cases next
    · exact .of_eq rfl rfl
    · exact offFloor_grantOwn ..

theorem offFloor_passThroughResponse {k : Nat} {resp : Resp} {data : List (BitVec 64)}
    (next : execPassThroughResponse k resp data s = .next t) : OffFloor s t := by
  unfold execPassThroughResponse at next
  split at next <;> cases next <;> exact .of_eq rfl rfl

/-! ## Settings -/

theorem offFloor_handsetSet (pos side volume micPad : Byte) (s : State) :
    OffFloor s (handsetSet pos side volume micPad s).1 := by
  unfold handsetSet
  split <;> exact .of_eq

theorem offFloor_positionSet (pos micPad duck ringLevel recallLevel supervisor : Byte) (s : State) :
    OffFloor s (positionSet pos micPad duck ringLevel recallLevel supervisor s).1 := by
  unfold positionSet
  split <;> exact .of_eq

theorem offFloor_speakerSet (pos chan kind subject flags volume : Byte) (s : State) :
    OffFloor s (speakerSet pos chan kind subject flags volume s).1 := by
  unfold speakerSet
  split
  · exact .of_eq rfl rfl
  · dsimp only
    split
    · exact .refl s
    · split
      · exact .refl s
      · exact .of_eq rfl rfl
  · exact .refl s

/-! ## The Command and Event Unit -/

theorem offFloor_complete (st : Status) (s : State) : OffFloor s (complete st s) := .of_eq

theorem offFloor_commandPost (n : Word) (s : State) : OffFloor s (commandPost n s) := by
  unfold commandPost
  split <;> exact .of_eq

theorem offFloor_commandFetch (s : State) : OffFloor s (commandFetch s) := by
  unfold commandFetch
  split <;> exact .of_eq

theorem offFloor_fetched (a : OwnAccess) (error : Bool) (bs : List Byte) (s : State) : OffFloor s (fetched a error bs s) := by
  have current : OffFloor s (setCurrent bs s) := .of_eq rfl rfl
  unfold fetched
  dsimp only
  split
  · exact current.trans .of_eq
  · split
    · exact current.trans .of_eq
    · exact current.trans (.of_eq rfl rfl)

theorem offFloor_commandFetchResponse (error : Bool) (slot : Table 32 Byte) (s : State) :
    OffFloor s (commandFetchResponse error slot s) := by
  unfold commandFetchResponse
  split
  · exact .refl s
  · next back =>
    split
    · exact (offFloor_takeFlight back).trans (offFloor_fetched ..)
    · exact offFloor_takeFlight back

theorem offFloor_eventConsumed (n : Word) (s : State) : OffFloor s (eventConsumed n s) := by
  unfold eventConsumed
  split <;> exact .of_eq

theorem offFloor_eventWriteResponse (k : Nat) (error : Bool) (s : State) : OffFloor s (eventWriteResponse k error s) := by
  unfold eventWriteResponse
  split
  · exact .refl s
  · next back =>
    have told := offFloor_faulted back error
    dsimp only
    split
    · exact told.trans (.of_eq rfl rfl)
    · exact told

theorem offFloor_writeSnapshot (target : Addr) (bs : List Byte) (s : State) : OffFloor s (writeSnapshot target bs s) :=
  .foldl (f := fun s (b : List Byte × Nat) => requestOwn .snapshot (target + BitVec.ofNat 36 (Config.burstBytes * b.2)) b.1 s)
    (fun _ _ => .of_eq rfl rfl) (burstsOf bs).zipIdx s

theorem offFloor_takeSnapshot (item : QueryItem) (clear : Bool) (target : Addr) (s : State) :
    OffFloor s (takeSnapshot item clear target s) := by
  have cleared : OffFloor s (if clear then clearAfter s item else s) := by
    split
    · cases item <;> exact .of_eq rfl rfl
    · exact .refl s
  have empty (v : State) : OffFloor v { v with cu := { v.cu with snapError := false } } := .of_eq rfl rfl
  exact (cleared.trans (empty _)).trans (offFloor_writeSnapshot ..)

theorem offFloor_query {kind index clear : Byte} {target : Addr} (next : execQuery kind index clear target s = .next t) :
    OffFloor s t := by
  unfold execQuery at next
  split at next
  · split at next <;> cases next
    · exact offFloor_complete ..
    · exact offFloor_takeSnapshot ..
  · cases next; exact .refl s

theorem offFloor_snapshotWriteResponse (k : Nat) (error : Bool) (s : State) :
    OffFloor s (snapshotWriteResponse k error s) := by
  unfold snapshotWriteResponse
  split
  · exact .refl s
  · next back =>
    have told := offFloor_faulted back error
    unfold snapshotReturned
    dsimp only
    split
    · exact told.trans (.of_eq rfl rfl)
    · exact told.trans .of_eq

/-! ## Lines and rings -/

theorem offFloor_lineParty (l : LineId) (p : PosId) (s : State) : OffFloor s (lineParty l p s) := by
  unfold lineParty
  split <;> exact .of_eq

theorem offFloor_takeLine (h : Handset) (l : LineId) (cause : LineCause) (s : State) : OffFloor s (takeLine h l cause s) :=
  .of_eq (by simp [takeLine, bindHandset]) (by simp [takeLine, bindHandset])

theorem offFloor_recorderCheck {p : PosId} {st : Status} (check : recorderCheck l p s = some (v, st)) : OffFloor s v := by
  obtain ⟨ru, rec_, rfl⟩ := recorderCheck_given check
  exact .of_eq rfl rfl

theorem offFloor_seizeIdle (h : Handset) (l : LineId) (s : State) : OffFloor s (seizeIdle h l s).1 := by
  unfold seizeIdle
  split
  · exact .refl s
  · next check => exact (offFloor_recorderCheck check).trans (offFloor_takeLine ..)

theorem offFloor_seizeRinging (h : Handset) (l : LineId) (s : State) : OffFloor s (seizeRinging h l s).1 := by
  have ended (v : State) : OffFloor v (endRing l .answered (some h.pos) v) := .of_eq
  unfold seizeRinging
  split
  · exact .refl s
  · split_ifs
    · exact .refl s
    · exact ((ended s).trans (offFloor_takeLine ..)).trans (offFloor_lineParty ..)
    · split
      · exact .refl s
      · next check => exact ((offFloor_recorderCheck check).trans (ended _)).trans (offFloor_takeLine ..)

theorem offFloor_seizeConnected (h : Handset) (l : LineId) (s : State) : OffFloor s (seizeConnected h l s).1 := by
  unfold seizeConnected
  dsimp only
  split_ifs
  · exact .refl s
  · exact .refl s
  · have bound : OffFloor s ((bindHandset h l s).modLine l fun r => { r with owners := r.owners ++ [h] }) := .of_eq rfl rfl
    exact bound.trans (offFloor_lineParty ..)

theorem offFloor_seizeHeld (h : Handset) (l : LineId) (s : State) : OffFloor s (seizeHeld h l s).1 := by
  unfold seizeHeld
  dsimp only
  split_ifs
  · exact .refl s
  · have unheld : OffFloor s (s.modLine l fun r => { r with recallDeadline := none, heldBy := none }) := .of_eq rfl rfl
    exact (unheld.trans (offFloor_takeLine ..)).trans (offFloor_lineParty ..)

theorem offFloor_seize (pos side line : Byte) (s : State) : OffFloor s (seize pos side line s).1 := by
  unfold seize
  split
  · dsimp only
    split_ifs
    iterate 4 exact .refl s
    split
    · exact offFloor_seizeIdle ..
    · exact offFloor_seizeRinging ..
    · exact offFloor_seizeConnected ..
    · exact offFloor_seizeHeld ..
    · exact .refl s
    · exact .refl s
  · exact .refl s

theorem offFloor_release (pos side : Byte) (s : State) : OffFloor s (release pos side s).1 := by
  unfold release
  split
  · exact .refl s
  · dsimp only
    split
    · dsimp only
      exact .of_eq (clearLine_fc ..) (clearLine_ld ..)
    · exact .of_eq rfl rfl

theorem offFloor_hold (pos side : Byte) (s : State) : OffFloor s (hold pos side s).1 := by
  unfold hold
  split
  · exact .refl s
  · split
    · exact .refl s
    · exact .of_eq (setLineState_fc ..) (setLineState_ld ..)

theorem offFloor_privacy (pos side value : Byte) (s : State) : OffFloor s (privacy pos side value s).1 := by
  unfold privacy
  split
  · exact .refl s
  · split <;> exact .of_eq rfl rfl

theorem offFloor_forceClear (line : Byte) (s : State) : OffFloor s (forceClear line s).1 := by
  unfold forceClear
  split
  · exact .refl s
  · split <;> exact .of_eq

theorem offFloor_lineSet (line type pad preferred ringDelay policy : Byte) (recallTime : Half) (s : State) :
    OffFloor s (lineSet line type pad preferred ringDelay policy recallTime s).1 := by
  unfold lineSet
  split
  · split <;> exact .of_eq
  · exact .refl s

theorem offFloor_appearSet (pos key line : Byte) (s : State) : OffFloor s (appearSet pos key line s).1 := by
  unfold appearSet
  split
  · next p k new _ _ _ =>
    dsimp only
    split_ifs
    · exact .refl s
    · exact .refl s
    · exact .refl s
    · cases (s.map p).get k <;> cases new <;> exact .of_eq
  · exact .refl s

theorem offFloor_farEndChange (l : LineId) (far : Hook) (s : State) : OffFloor s (farEndChange l far s) := by
  unfold farEndChange
  dsimp only
  split <;> exact .of_eq

theorem offFloor_ringChange (l : LineId) (ind : RingInd) (s : State) : OffFloor s (ringChange l ind s) := by
  unfold ringChange
  dsimp only
  split
  · exact .refl s
  · split
    · exact .of_eq
    · split
      · exact .refl s
      · exact .of_eq (by simp [abandonRing]) (by simp [abandonRing])
    · exact .refl s

theorem offFloor_signalWord (l : LineId) (w : Word) (s : State) : OffFloor s (signalWord l w s) := by
  have stored : OffFloor s (s.modLine l fun r => { r with farEnd := wordFarEnd w, ringInd := wordRing w }) := .of_eq
  have told := stored.trans (offFloor_farEndChange l (wordFarEnd w) _)
  unfold signalWord
  dsimp only
  split_ifs
  · exact .refl s
  · exact stored
  · exact stored
  · exact told
  · exact stored.trans (offFloor_ringChange ..)
  · exact told.trans (offFloor_ringChange ..)

theorem offFloor_holdRecallExpiry (l : LineId) (s : State) : OffFloor s (holdRecallExpiry l s) := by
  unfold holdRecallExpiry
  dsimp only
  split
  · split <;> exact .of_eq
  · exact .refl s

theorem offFloor_ringDelayExpiry (l : LineId) (s : State) : OffFloor s (ringDelayExpiry l s) := by
  unfold ringDelayExpiry
  split
  · exact .refl s
  · split
    · split <;> exact .of_eq
    · exact .refl s

/-! ## Every command but those of the floor -/

/-- The commands that may change what the laws of the talk floor read. -/
def TouchesFloor : Instr → Prop
  | .lineService .. | .groupSet .. | .talk .. | .talkEnd .. | .restart | .queueTimeoutExpiry .. | .talkLimitExpiry ..
  | .hangExpiry .. | .configReadResponse .. | .anchorWrite .. | .powerOn .. | .resetN .. => True
  | _ => False

theorem runCommand_offFloor {c : Instr} {act : State → State × Status} (acts : ∀ s, OffFloor s (act s).1)
    (next : runCommand c act s = .next t) : OffFloor s t := by
  unfold runCommand at next
  split at next <;> cases next
  · exact (acts s).trans (offFloor_complete ..)
  · exact .refl s

theorem inRunning_offFloor {act : State → State} (acts : ∀ s, OffFloor s (act s)) (next : inRunning act s = .next t) :
    OffFloor s t :=
  inRunning_keeps (P := OffFloor s) (.refl s) (fun _ => acts s) next

/-- A watched word that its block takes from the hand-over list. -/
theorem inRunning_handed_offFloor {act : State → State} {w : Handed} (acts : ∀ s, OffFloor s (act s))
    (next : inRunning (fun s => act (takeHanded w s)) s = .next t) : OffFloor s t :=
  inRunning_offFloor (act := fun s => act (takeHanded w s)) (fun s => .trans (t := takeHanded w s) .of_eq (acts _)) next

/-- Every other command leaves the Talk Floor Controller and the loader alone. -/
theorem exec_offFloor {c : Instr} (off : ¬TouchesFloor c) (next : exec c s = .next t) : OffFloor s t := by
  cases c with
  | lineSet line type pad preferred ringDelay policy recallTime =>
    exact runCommand_offFloor (offFloor_lineSet line type pad preferred ringDelay policy recallTime) next
  | appearSet pos key line => exact runCommand_offFloor (offFloor_appearSet pos key line) next
  | seize pos side line => exact runCommand_offFloor (offFloor_seize pos side line) next
  | release pos side => exact runCommand_offFloor (offFloor_release pos side) next
  | hold pos side => exact runCommand_offFloor (offFloor_hold pos side) next
  | privacy pos side value => exact runCommand_offFloor (offFloor_privacy pos side value) next
  | forceClear line => exact runCommand_offFloor (offFloor_forceClear line) next
  | handsetSet pos side volume micPad => exact runCommand_offFloor (offFloor_handsetSet pos side volume micPad) next
  | positionSet pos micPad duck ringLevel recallLevel supervisor =>
    exact runCommand_offFloor (offFloor_positionSet pos micPad duck ringLevel recallLevel supervisor) next
  | speakerSet pos chan kind subject flags volume =>
    exact runCommand_offFloor (offFloor_speakerSet pos chan kind subject flags volume) next
  | recorderSet chan baseA ceilA baseB ceilB =>
    exact runCommand_offFloor (offFloor_recorderSet chan baseA ceilA baseB ceilB) next
  | recordReturn chan buffer => exact runCommand_offFloor (offFloor_recordReturn chan buffer) next
  | query kind index clear target => exact offFloor_query next
  | commandPost n => exact inRunning_handed_offFloor (offFloor_commandPost n) next
  | commandFetch => exact inRunning_offFloor offFloor_commandFetch next
  | commandFetchResponse error slot => exact inRunning_offFloor (offFloor_commandFetchResponse error slot) next
  | eventConsumed n => exact inRunning_handed_offFloor (offFloor_eventConsumed n) next
  | eventWriteResponse k error => exact inRunning_offFloor (offFloor_eventWriteResponse k error) next
  | logConsumed n => exact inRunning_handed_offFloor (offFloor_logConsumed n) next
  | signalWord l w => exact inRunning_handed_offFloor (offFloor_signalWord l w) next
  | holdRecallExpiry l => exact inRunning_offFloor (offFloor_holdRecallExpiry l) next
  | ringDelayExpiry l => exact inRunning_offFloor (offFloor_ringDelayExpiry l) next
  | frameInPulse n => exact inRunning_offFloor (offFloor_frameInPulse n) next
  | pulseWatchExpiry => exact inRunning_offFloor offFloor_pulseWatchExpiry next
  | freewheelTimerExpiry => exact inRunning_offFloor offFloor_freewheelExpiry next
  | frameEventMix => exact inRunning_offFloor offFloor_frameEventMix next
  | recorderFrames => exact inRunning_offFloor offFloor_recorderFrames next
  | sessionSegment c => exact inRunning_offFloor (offFloor_sessionSegment c) next
  | frameWriteResponse k error => exact inRunning_offFloor (offFloor_frameWriteResponse k error) next
  | logWriteResponse k error => exact inRunning_offFloor (offFloor_logWriteResponse k error) next
  | controlWordWriteResponse k error => exact inRunning_offFloor (offFloor_controlWordWriteResponse k error) next
  | snapshotWriteResponse k error => exact inRunning_offFloor (offFloor_snapshotWriteResponse k error) next
  | indexWordWriteResponse k error => exact inRunning_offFloor (offFloor_indexWordWriteResponse k error) next
  | statusWordWriteResponse k error => exact offFloor_statusWordWriteResponse next
  | timeSyncWord w => exact inRunning_handed_offFloor (offFloor_timeSync w) next
  | upstreamWrite x => exact offFloor_upstreamWrite next
  | upstreamRead b => exact offFloor_upstreamRead next
  | outboundRead b => exact offFloor_upstreamRead next
  | passThroughResponse k resp data => exact offFloor_passThroughResponse next
  | downstreamGrant => exact offFloor_downstreamGrant next
  | _ => exact absurd trivial off

end Sys2Proof.Machine

namespace Sys2Proof.Machine

variable {s t u v : State} {g : GroupId} {p : PosId} {r r' : GroupRec}

/-! # The laws of the talk floor (R46)

What the laws say of one group turns on its record alone; what they say of two, on the positions of each. -/

/-- The positions on a group's floor, holders first. -/
def GroupRec.onFloor (r : GroupRec) : List PosId := (r.holders ++ r.queue).map (·.pos)

theorem entryOf_iff {es : List FloorEntry} : entryOf p es = true ↔ p ∈ es.map (·.pos) := by
  simp only [entryOf, List.any_eq_true, List.mem_map, beq_iff_eq]

theorem onFloor_iff : s.onFloor g p ↔ p ∈ (s.group g).onFloor := by
  rw [State.onFloor, GroupRec.onFloor, entryOf_iff, entryOf_iff, List.map_append, List.mem_append]

theorem onFloor_eq_nil : r.onFloor = [] ↔ r.holders = [] ∧ r.queue = [] := by simp [GroupRec.onFloor]

/-- One group's share of the laws. -/
structure FloorOk (r : GroupRec) : Prop where
  least : 1 ≤ r.maxTalkers
  most : r.maxTalkers ≤ 3
  holders : r.holders.length ≤ r.maxTalkers
  queue : r.queue.length ≤ Config.talkQueuePlaces
  members : ∀ p ∈ r.onFloor, inSet r.members p = true
  once : r.onFloor.Nodup

theorem floorLaw_iff : FloorLaw s ↔ (∀ g, FloorOk (s.group g)) ∧
    (∀ g h p, p ∈ (s.group g).onFloor → p ∈ (s.group h).onFloor → g = h) ∧
    (s.running = false → ∀ g, (s.group g).onFloor = []) := by
  simp only [onFloor_eq_nil]
  constructor
  · intro law
    refine ⟨fun g => ⟨law.least g, law.most g, law.holders g, law.queue g, fun p hp => law.members g p (onFloor_iff.2 hp),
      law.once g⟩, fun g h p hg hh => law.apart g h p (onFloor_iff.2 hg) (onFloor_iff.2 hh), law.outside⟩
  · rintro ⟨ok, apart, outside⟩
    exact ⟨fun g => (ok g).least, fun g => (ok g).most, fun g => (ok g).holders, fun g => (ok g).queue,
      fun g p hp => (ok g).members p (onFloor_iff.1 hp), fun g => (ok g).once,
      fun g h p hg hh => apart g h p (onFloor_iff.1 hg) (onFloor_iff.1 hh), outside⟩

theorem FloorLaw.ok (law : FloorLaw s) (g : GroupId) : FloorOk (s.group g) := (floorLaw_iff.1 law).1 g

/-! ## Steps that bring nobody onto the floor -/

/-- A group's record keeps its laws, and nobody has come onto its floor. -/
structure KeepsFloor (r r' : GroupRec) : Prop where
  ok : FloorOk r → FloorOk r'
  nobody : r'.onFloor ⊆ r.onFloor

theorem KeepsFloor.trans {a b c : GroupRec} (h : KeepsFloor a b) (k : KeepsFloor b c) : KeepsFloor a c :=
  ⟨fun ok => k.ok (h.ok ok), List.Subset.trans k.nobody h.nobody⟩

/-- Entries have left the floor, or none has. -/
theorem KeepsFloor.of_sublist (members : r'.members = r.members) (most : r'.maxTalkers = r.maxTalkers)
    (holders : r'.holders.Sublist r.holders) (queue : r'.queue.Sublist r.queue) : KeepsFloor r r' := by
  have left : r'.onFloor.Sublist r.onFloor := (holders.append queue).map _
  refine ⟨fun ok => ⟨most ▸ ok.least, most ▸ ok.most, ?_, queue.length_le.trans ok.queue, fun p hp => ?_, ok.once.sublist left⟩,
    left.subset⟩
  · rw [most]; exact holders.length_le.trans ok.holders
  · rw [members]; exact ok.members p (left.subset hp)

/-- What the laws read of the group's record is as it was. -/
theorem KeepsFloor.of_eq (members : r'.members = r.members) (most : r'.maxTalkers = r.maxTalkers)
    (holders : r'.holders = r.holders) (queue : r'.queue = r.queue) : KeepsFloor r r' :=
  .of_sublist members most (holders ▸ .refl _) (queue ▸ .refl _)

/-- Positions that come from the queue to a free place were on the floor before. -/
theorem KeepsFloor.granted {n : Nat} (free : n ≤ r.maxTalkers - r.holders.length) {grant : FloorEntry → FloorEntry}
    (same : ∀ e, (grant e).pos = e.pos) (deadline : Option Word) : KeepsFloor r { r with
      holders := r.holders ++ (r.queue.take n).map grant, queue := r.queue.drop n, hangDeadline := deadline } := by
  have positions : GroupRec.onFloor { r with
      holders := r.holders ++ (r.queue.take n).map grant, queue := r.queue.drop n, hangDeadline := deadline } = r.onFloor := by
    have granted : (r.queue.take n).map (fun e => (grant e).pos) = (r.queue.take n).map (·.pos) := by simp only [same]
    simp only [GroupRec.onFloor, List.map_append, List.map_map, Function.comp_def, List.append_assoc, granted]
    rw [← List.map_append, List.take_append_drop]
  refine ⟨fun ok => ⟨ok.least, ok.most, ?_, ?_, fun p hp => ok.members p (positions ▸ hp), positions ▸ ok.once⟩, ?_⟩
  · have := ok.holders
    simp only [List.length_append, List.length_map, List.length_take]
    omega
  · have := ok.queue
    simp only [List.length_drop]
    omega
  · rw [positions]; exact List.Subset.refl _

/-- Every group keeps its laws, and nobody comes onto a floor. -/
structure FloorsKeep (s t : State) : Prop where
  groups : ∀ g, KeepsFloor (s.group g) (t.group g)
  running : t.running = s.running

theorem OffFloor.floorsKeep (off : OffFloor s t) : FloorsKeep s t :=
  ⟨fun g => by
    have same : t.group g = s.group g := by rw [State.group, off.fc]; rfl
    rw [same]; exact .of_eq rfl rfl rfl rfl, by rw [State.running, off.ld]; rfl⟩

theorem FloorsKeep.refl (s : State) : FloorsKeep s s := (OffFloor.refl s).floorsKeep

theorem FloorsKeep.trans (a : FloorsKeep s t) (b : FloorsKeep t u) : FloorsKeep s u :=
  ⟨fun g => (a.groups g).trans (b.groups g), b.running.trans a.running⟩

theorem FloorsKeep.law (keep : FloorsKeep s t) (law : FloorLaw s) : FloorLaw t := by
  obtain ⟨ok, apart, outside⟩ := floorLaw_iff.1 law
  refine floorLaw_iff.2 ⟨fun g => (keep.groups g).ok (ok g),
    fun g h p hg hh => apart g h p ((keep.groups g).nobody hg) ((keep.groups h).nobody hh), fun off g => ?_⟩
  have none_ := (keep.groups g).nobody
  rw [outside (keep.running ▸ off) g] at none_
  exact List.subset_nil.1 none_

theorem FloorsKeep.of_group (group : KeepsFloor (s.group g) (t.group g)) (others : OnlyGroup g s t)
    (running : t.running = s.running) : FloorsKeep s t := by
  refine ⟨fun h => ?_, running⟩
  by_cases e : h = g
  · subst e; exact group
  · rw [others h e]; exact .of_eq rfl rfl rfl rfl

theorem floorsKeep_modGroup {f : GroupRec → GroupRec} (group : KeepsFloor (s.group g) (f (s.group g))) :
    FloorsKeep s (s.modGroup g f) :=
  .of_group (by rwa [modGroup_group_self]) (onlyGroup_modGroup s g f) rfl

theorem floorsKeep_post (e : Event) (s : State) : FloorsKeep s (post e s) := (OffFloor.of_eq).floorsKeep

theorem floorsKeep_endGroupSession (g : GroupId) (cause : SessionCause) (s : State) :
    FloorsKeep s (endGroupSession g cause s) :=
  .of_group (by rw [endGroupSession_group, if_pos rfl]; exact .of_eq rfl rfl rfl rfl) (onlyGroup_endGroupSession s g cause)
    (by simp)

theorem floorsKeep_startHang (g : GroupId) (s : State) : FloorsKeep s (startHang g s) := by
  unfold startHang
  dsimp only
  split
  · exact .refl s
  · split
    · exact floorsKeep_modGroup (.of_eq rfl rfl rfl rfl)
    · exact floorsKeep_endGroupSession ..

theorem floorsKeep_hangExpiry (g : GroupId) (s : State) : FloorsKeep s (hangExpiry g s) := by
  unfold hangExpiry
  split
  · exact .refl s
  · split
    · exact (floorsKeep_modGroup (.of_eq rfl rfl rfl rfl)).trans (floorsKeep_endGroupSession ..)
    · exact .refl s

theorem floorsKeep_grantPass (g : GroupId) (s : State) : FloorsKeep s (grantPass g s) := by
  obtain ⟨group, others, -, -⟩ := grantPass_grants s g
  refine .of_group ?_ others (by simp)
  rw [group]
  exact .granted (Nat.min_le_right ..) (grant := grantedEntry s _) (fun _ => rfl) _

/-! ## TALK, TALK_END and the floor's deadlines (R48 to R56) -/

theorem floorsKeep_groupRecorded (s : State) (g : GroupId) (ru : RecUnit) (recorder : Option ChanId) :
    FloorsKeep s (groupRecorded s g ru recorder) :=
  .of_group (by rw [groupRecorded_group, if_pos rfl]; exact .of_eq rfl rfl rfl rfl)
    (fun h hg => by rw [groupRecorded_group, if_neg (Ne.symm hg)]) rfl

/-- Where the group recorder check passes (R49), only the group's recorder and the Recorder Unit may have changed. -/
theorem groupCheck_recorded {policy : Policy} {parties : List PosId} {st : Status}
    (check : groupCheck g policy parties s = some (t, st)) : ∃ ru recorder, t = groupRecorded s g ru recorder := by
  have same : ∃ ru recorder, s = groupRecorded s g ru recorder := ⟨_, _, (groupRecorded_same s g).symm⟩
  have given {v : State} (h : allocateGroup g parties s = some v) : ∃ ru recorder, v = groupRecorded s g ru recorder := by
    obtain ⟨⟨c, x⟩, given, rfl⟩ := Option.map_eq_some_iff.1 h
    exact ⟨x.ru, some c, by rw [allocate_frame given]; rfl⟩
  unfold groupCheck at check
  split at check
  · cases check; exact same
  · split at check
    · next a => cases check; exact given a
    · cases check; exact same
  · obtain ⟨v, a, e⟩ := Option.map_eq_some_iff.1 check
    cases e
    exact given a

/-- One position has come onto one floor, from none. -/
theorem FloorLaw.join (law : FloorLaw s) (run : s.running = true) (away : ∀ h, p ∉ (s.group h).onFloor)
    (ok : FloorOk (t.group g)) (came : ∀ q ∈ (t.group g).onFloor, q ∈ (s.group g).onFloor ∨ q = p)
    (others : OnlyGroup g s t) (running : t.running = s.running) : FloorLaw t := by
  obtain ⟨oks, apart, -⟩ := floorLaw_iff.1 law
  have alone (h : GroupId) (e : h ≠ g) (q : PosId) (hg : q ∈ (t.group g).onFloor) : q ∉ (t.group h).onFloor := by
    rw [others h e]
    intro hh
    rcases came q hg with old | rfl
    · exact e (apart h g q hh old)
    · exact away h hh
  refine floorLaw_iff.2 ⟨fun h => ?_, fun h k q hh hk => ?_, fun off => ?_⟩
  · by_cases e : h = g
    · subst e; exact ok
    · rw [others h e]; exact oks h
  · by_contra ne
    by_cases eh : h = g
    · subst eh; exact alone k (Ne.symm ne) q hh hk
    · by_cases ek : k = g
      · subst ek; exact alone h ne q hk hh
      · rw [others h eh] at hh
        rw [others k ek] at hk
        exact ne (apart h k q hh hk)
  · rw [running, run] at off; cases off

theorem mem_onFloor_insert {q : PosId} {before after : List FloorEntry} {e : FloorEntry} :
    q ∈ (before ++ e :: after).map (·.pos) ↔ q = e.pos ∨ q ∈ (before ++ after).map (·.pos) := by
  simp only [List.map_append, List.map_cons, List.mem_append, List.mem_cons]; tauto

/-- A position that is on no floor is granted a free place (R50). -/
theorem floorLaw_grantPlace (law : FloorLaw s) (run : s.running = true) (away : ∀ h, p ∉ (s.group h).onFloor)
    (free : (s.group g).holders.length < (s.group g).maxTalkers) (member : inSet (s.group g).members p = true)
    (standing : Bool) : FloorLaw (grantPlace g p standing s) := by
  have ok := law.ok g
  have group := (grantPlace_group s g g p standing).trans (if_pos rfl)
  have positions : ((grantPlace g p standing s).group g).onFloor =
      ((s.group g).holders ++ ⟨p, standing, ahead s (s.group g).talkLimit⟩ :: (s.group g).queue).map (·.pos) := by
    rw [group, GroupRec.onFloor]; simp
  have came (q : PosId) (hq : q ∈ ((grantPlace g p standing s).group g).onFloor) : q = p ∨ q ∈ (s.group g).onFloor :=
    mem_onFloor_insert.1 (positions ▸ hq)
  refine law.join run away (g := g) ⟨?_, ?_, ?_, ?_, fun q hq => ?_, ?_⟩ (fun q hq => (came q hq).symm)
    (grantPlace_others s g p standing) (by simp)
  · rw [group]; exact ok.least
  · rw [group]; exact ok.most
  · rw [group]; simpa using free
  · rw [group]; exact ok.queue
  · rw [group]
    rcases came q hq with rfl | old
    · exact member
    · exact ok.members q old
  · rw [positions, List.map_append, List.map_cons, List.nodup_middle, ← List.map_append]
    exact List.nodup_cons.2 ⟨away g, ok.once⟩

/-- A position that is on no floor joins a queue (R52). -/
theorem floorLaw_enqueue (law : FloorLaw s) (run : s.running = true) (away : ∀ h, p ∉ (s.group h).onFloor)
    (room : (s.group g).queue.length < Config.talkQueuePlaces) (member : inSet (s.group g).members p = true)
    (standing : Bool) : FloorLaw (enqueue g p standing s) := by
  have ok := law.ok g
  have group : (enqueue g p standing s).group g = { s.group g with
    queue := (s.group g).queue ++ [⟨p, standing, deadlineIn s (s.group g).queueTimeout⟩] } := modGroup_group_self ..
  have positions : ((enqueue g p standing s).group g).onFloor = (s.group g).onFloor ++ [p] := by
    rw [group, GroupRec.onFloor, GroupRec.onFloor]; simp
  have came (q : PosId) (hq : q ∈ ((enqueue g p standing s).group g).onFloor) : q ∈ (s.group g).onFloor ∨ q = p := by
    rw [positions] at hq; simpa using hq
  refine law.join run away (g := g) ⟨?_, ?_, ?_, ?_, fun q hq => ?_, ?_⟩ came (onlyGroup_modGroup s g _) rfl
  · rw [group]; exact ok.least
  · rw [group]; exact ok.most
  · rw [group]; exact ok.holders
  · rw [group]; simpa using room
  · rw [group]
    rcases came q hq with old | rfl
    · exact ok.members q old
    · exact member
  · rw [positions, List.nodup_append]
    exact ⟨ok.once, List.nodup_singleton p, fun a ha b hb e => away g (List.mem_singleton.1 hb ▸ e ▸ ha)⟩

/-- Every place is taken: pre-emption gives up the place of a holder that stands on the floor (R51, R52). -/
theorem floorLaw_talkFull (law : FloorLaw s) (run : s.running = true) (away : ∀ h, p ∉ (s.group h).onFloor)
    (member : inSet (s.group g).members p = true) : FloorLaw (talkFull g p s).1 := by
  unfold talkFull
  dsimp only
  split
  · next q found =>
    have held : q ∈ (s.group g).holders := by
      split at found
      · exact List.mem_of_find?_eq_some found
      · cases found
    have left : FloorsKeep s (s.modGroup g fun r => { r with holders := r.holders.erase q }) :=
      floorsKeep_modGroup (.of_sublist rfl rfl List.erase_sublist (.refl _))
    have revoked := left.trans (floorsKeep_post (.floorRevoked g q.pos .preempt) _)
    refine floorLaw_grantPlace (revoked.law law) (revoked.running.trans run)
      (fun h hp => away h ((revoked.groups h).nobody hp)) ?_ (by simpa using member) true
    have places := (law.ok g).holders
    have one := List.length_pos_of_mem held
    simp only [post_group, modGroup_group_self, List.length_erase_of_mem held]
    omega
  · split
    · next room => exact floorLaw_enqueue law run away room member _
    · exact law

theorem talksElsewhere_iff : talksElsewhere p g s = true ↔ ∃ h, h ≠ g ∧ s.onFloor h p := by
  simp only [talksElsewhere, List.any_eq_true, List.mem_finRange, true_and, Bool.and_eq_true, bne_iff_ne, Bool.or_eq_true]
  rfl

theorem floorLaw_talk (law : FloorLaw s) (run : s.running = true) (pos group : Byte) : FloorLaw (talk pos group s).1 := by
  unfold talk
  split
  · next p g _ _ =>
    dsimp only
    split_ifs with outsider holds queued elsewhere free silent
    iterate 4 exact law
    all_goals
      have member : inSet (s.group g).members p = true := by simpa using outsider
      have away (h : GroupId) : p ∉ (s.group h).onFloor := by
        rw [← onFloor_iff]
        intro there
        by_cases e : h = g
        · subst e; exact there.elim holds queued
        · exact elsewhere (talksElsewhere_iff.2 ⟨h, e, there⟩)
    · split
      · exact law
      · next v st check =>
        obtain ⟨ru, recorder, rfl⟩ := groupCheck_recorded check
        have keep := floorsKeep_groupRecorded s g ru recorder
        refine floorLaw_grantPlace (keep.law law) run (fun h hp => away h ((keep.groups h).nobody hp)) ?_ ?_ _
        · rw [groupRecorded_group, if_pos rfl]; exact free
        · rw [groupRecorded_group, if_pos rfl]; exact member
    · exact floorLaw_grantPlace law run away free member _
    · exact floorLaw_talkFull law run away member
  · exact law

theorem floorsKeep_talkEnd (pos group : Byte) (s : State) : FloorsKeep s (talkEnd pos group s).1 := by
  unfold talkEnd
  split
  · dsimp only
    split_ifs
    · exact ((floorsKeep_modGroup (.of_sublist rfl rfl List.filter_sublist (.refl _))).trans (floorsKeep_grantPass ..)).trans
        (floorsKeep_startHang ..)
    · exact floorsKeep_modGroup (.of_sublist rfl rfl (.refl _) List.filter_sublist)
    · exact .refl s
  · exact .refl s

theorem floorsKeep_queueTimeoutExpiry (g : GroupId) (s : State) : FloorsKeep s (queueTimeoutExpiry g s) := by
  unfold queueTimeoutExpiry
  split
  · exact .refl s
  · exact (floorsKeep_modGroup (.of_sublist rfl rfl (.refl _) List.erase_sublist)).trans (floorsKeep_post ..)

theorem floorsKeep_talkLimitExpiry (g : GroupId) (s : State) : FloorsKeep s (talkLimitExpiry g s) := by
  unfold talkLimitExpiry
  split
  · exact .refl s
  · have left (e : FloorEntry) : FloorsKeep s (s.modGroup g fun r => { r with holders := r.holders.erase e }) :=
      floorsKeep_modGroup (.of_sublist rfl rfl List.erase_sublist (.refl _))
    exact (((left _).trans (floorsKeep_post ..)).trans (floorsKeep_grantPass ..)).trans (floorsKeep_startHang ..)

/-! ## GROUP_SET (R58 to R62), LINE_SERVICE (R64) and RESTART (R68) -/

theorem clampTalkers_bounds (n : Byte) : 1 ≤ clampTalkers n ∧ clampTalkers n ≤ 3 := by unfold clampTalkers; omega

/-- The floor under a new configuration: who stays, within the new limit, and who waits, then grants to those. -/
theorem KeepsFloor.settled (c : GroupArgs) (hoots : List LineId) (policy : Policy) (s : State) :
    KeepsFloor r ((r.configured c hoots policy).settled c.members (clampTalkers c.maxTalkers) s) := by
  obtain ⟨least, most⟩ := clampTalkers_bounds c.maxTalkers
  let stays : GroupRec := { r.configured c hoots policy with
    holders := r.kept c.members (clampTalkers c.maxTalkers), queue := r.waiting c.members }
  have left : (stays.holders ++ stays.queue).Sublist (r.holders ++ r.queue) :=
    ((List.take_sublist ..).trans List.filter_sublist).append List.filter_sublist
  have members : ∀ e ∈ stays.holders ++ stays.queue, inSet c.members e.pos = true := by
    intro e he
    rcases List.mem_append.1 he with held | waits
    · exact (List.mem_filter.1 (List.mem_of_mem_take held)).2
    · exact (List.mem_filter.1 waits).2
  have stay : KeepsFloor r stays := by
    refine ⟨fun ok => ⟨least, most, List.length_take_le .., (List.length_filter_le ..).trans ok.queue, fun p hp => ?_,
      ok.once.sublist (left.map _)⟩, (left.map _).subset⟩
    obtain ⟨e, he, rfl⟩ := List.mem_map.1 hp
    exact members e he
  exact stay.trans (.granted (r := stays) (Nat.min_le_right ..) (grant := grantedEntry s _) (fun _ => rfl) _)

theorem offFloor_rebridged (g : GroupId) (old hoots : List LineId) (s : State) : OffFloor s (rebridged g old hoots s) :=
  (OffFloor.foldl (f := fun s l => unbridge l s) (fun _ _ => .of_eq) _ s).trans
    (.foldl (f := fun s l => bridge g l s) (fun _ _ => .of_eq) _ _)

theorem floorsKeep_hangStep (g : GroupId) (recorded : Bool) (s : State) : FloorsKeep s (hangStep g recorded s) := by
  refine .of_group ?_ (fun h hg => by rw [hangStep_group, if_neg (Ne.symm hg)]) (by simp)
  rw [hangStep_group, if_pos rfl]
  exact .of_eq rfl rfl rfl rfl

theorem floorsKeep_applyGroup (c : GroupArgs) (hoots : List LineId) (policy : Policy) (old : GroupRec) (s : State) :
    FloorsKeep s (applyGroup g c hoots policy old s) := by
  have config := modGroup_floorStep s g (GroupRec.configured c hoots policy)
  have bridged := offFloor_rebridged g old.hootLines hoots (s.modGroup g (GroupRec.configured c hoots policy))
  rw [applyGroup_eq, unhung]
  generalize rebridged g old.hootLines hoots (s.modGroup g (GroupRec.configured c hoots policy)) = v at *
  have group (h : GroupId) : v.group h = (s.modGroup g (GroupRec.configured c hoots policy)).group h := by
    simp only [State.group, bridged.fc]
  have settles := floorSettled_settles (s := v) (g := g) c.members (most := clampTalkers c.maxTalkers)
    (by rw [group, config.group]; rfl)
  have settled : FloorsKeep s (floorSettled g c.members (clampTalkers c.maxTalkers) v) := by
    refine .of_group ?_ (fun h hg => by rw [settles.others h hg, group, config.others h hg]) ?_
    · rw [settles.group, group, config.group]
      exact .settled c hoots policy v
    · rw [floorSettled_frame, State.running, State.running]
      exact congrArg (fun l : Loader => l.op == .running) bridged.ld
  exact settled.trans (floorsKeep_hangStep ..)

theorem recordingStep_recorded {members : PosSet} {hoots : List LineId} {most : Nat} {policy : Policy} {st : Status}
    (records : recordingStep g members hoots most policy s = some (v, st)) : ∃ ru recorder, v = groupRecorded s g ru recorder := by
  have same : ∃ ru recorder, s = groupRecorded s g ru recorder := ⟨_, _, (groupRecorded_same s g).symm⟩
  unfold recordingStep at records
  dsimp only at records
  split_ifs at records
  · cases records; exact same
  · exact groupCheck_recorded records
  · exact groupCheck_recorded records
  · cases records; exact same

theorem floorsKeep_groupSet (group : Byte) (c : GroupArgs) (s : State) : FloorsKeep s (groupSet group c s).1 := by
  unfold groupSet
  split
  · split
    · split
      · exact .refl s
      · split
        · exact .refl s
        · next records =>
          obtain ⟨ru, recorder, rfl⟩ := recordingStep_recorded records
          dsimp only
          exact (floorsKeep_groupRecorded ..).trans (floorsKeep_applyGroup ..)
    · exact .refl s
  · exact .refl s

theorem floorsKeep_bridgedOut (l : LineId) (s : State) : FloorsKeep s (bridgedOut l s) := by
  have out (v : State) : FloorsKeep v (setLineState l .outOfService .outOfService v) := (OffFloor.of_eq).floorsKeep
  unfold bridgedOut
  split
  · exact out s
  · next g _ =>
    have removed : FloorsKeep s (removeHoot g l s) := floorsKeep_modGroup (.of_eq rfl rfl rfl rfl)
    have ungrouped : OffFloor (removeHoot g l s) ((removeHoot g l s).modLine l fun r => { r with group := none }) := .of_eq rfl rfl
    exact ((removed.trans ungrouped.floorsKeep).trans (out _)).trans (floorsKeep_startHang ..)

theorem floorsKeep_lineService (line dir : Byte) (s : State) : FloorsKeep s (lineService line dir s).1 := by
  unfold lineService
  split
  · split
    · exact (OffFloor.of_eq).floorsKeep
    · exact .refl s
  · split
    · exact .refl s
    · exact (OffFloor.of_eq).floorsKeep
    · exact (OffFloor.of_eq).floorsKeep
    · exact (OffFloor.of_eq).floorsKeep
    · exact (OffFloor.of_eq).floorsKeep
    · exact floorsKeep_bridgedOut ..
  · exact .refl s

theorem offFloor_restartLine (l : LineId) (s : State) : OffFloor s (restartLine l s) := by
  unfold restartLine
  split <;> exact .of_eq

theorem floorsKeep_restart (s : State) : FloorsKeep s (restart s).1 := by
  have lines : OffFloor s (restartLines s) := .foldl (fun s l => offFloor_restartLine l s) _ s
  rw [restart_eq]
  generalize restartLines s = v at *
  have groups := restartGroups_restarts (List.finRange 16) v (List.nodup_finRange 16)
  rw [← restartGroups] at groups
  generalize restartGroups v = w at *
  have emptied : FloorsKeep v w := by
    refine ⟨fun g => ?_, by rw [groups.frame]; rfl⟩
    rw [groups.group, if_pos (List.mem_finRange g)]
    exact .of_sublist rfl rfl (List.nil_sublist _) (List.nil_sublist _)
  have flush : OffFloor w (flushed w) := by rw [flushed_eq]; exact .of_eq rfl rfl
  exact (lines.floorsKeep.trans emptied).trans flush.floorsKeep

/-! ## Outside RUNNING: every floor is empty (R177 to R180) -/

/-- Every group keeps its laws with nobody on its floor. -/
structure FloorsEmpty (s : State) : Prop where
  ok : ∀ g, FloorOk (s.group g)
  nobody : ∀ g, (s.group g).onFloor = []

theorem FloorsEmpty.law (empty : FloorsEmpty s) : FloorLaw s :=
  floorLaw_iff.2 ⟨empty.ok, fun g _ _ hg => absurd hg (by simp [empty.nobody g]), fun _ => empty.nobody⟩

theorem FloorLaw.empty (law : FloorLaw s) (off : s.running = false) : FloorsEmpty s :=
  ⟨law.ok, fun g => onFloor_eq_nil.2 (law.outside off g)⟩

theorem FloorOk.of_empty (least : 1 ≤ r.maxTalkers) (most : r.maxTalkers ≤ 3) (empty : r.onFloor = []) : FloorOk r := by
  obtain ⟨holders, queue⟩ := onFloor_eq_nil.1 empty
  exact ⟨least, most, by simp [holders], by simp [queue], by simp [empty], by simp [empty]⟩

theorem FloorsEmpty.keep (empty : FloorsEmpty s) (keep : ∀ g, KeepsFloor (s.group g) (t.group g)) : FloorsEmpty t := by
  refine ⟨fun g => (keep g).ok (empty.ok g), fun g => ?_⟩
  have nobody := (keep g).nobody
  rw [empty.nobody] at nobody
  exact List.subset_nil.1 nobody

theorem FloorsEmpty.of_group (empty : FloorsEmpty s) (group : ∀ g, t.group g = s.group g) : FloorsEmpty t :=
  ⟨fun g => group g ▸ empty.ok g, fun g => group g ▸ empty.nobody g⟩

/-- A floor that was empty is empty under the settings of the image. -/
theorem FloorsEmpty.of_loaded (empty : FloorsEmpty s) (least : ∀ g, 1 ≤ (t.group g).maxTalkers)
    (most : ∀ g, (t.group g).maxTalkers ≤ 3) (floor : ∀ g, (t.group g).onFloor = (s.group g).onFloor) : FloorsEmpty t :=
  have none_ (g : GroupId) : (t.group g).onFloor = [] := (floor g).trans (empty.nobody g)
  ⟨fun g => .of_empty (least g) (most g) (none_ g), none_⟩

theorem FloorsEmpty.loadGroups (empty : FloorsEmpty s) (body : List Byte) : FloorsEmpty (loadGroups body s) := by
  have group (g : GroupId) : (Machine.loadGroups body s).group g = loadGroup (record 12 body g.val) (s.group g) :=
    Table.get_build ..
  have bounds (g : GroupId) := clampTalkers_bounds (groupArgs (record 12 body g.val) 0).maxTalkers
  exact empty.of_loaded (fun g => by rw [group]; exact (bounds g).1) (fun g => by rw [group]; exact (bounds g).2)
    fun g => by rw [group]; rfl

theorem FloorsEmpty.nextSection (empty : FloorsEmpty s) (length : Nat) : FloorsEmpty (nextSection length s) := by
  by_cases fifth : s.ld.expected = 5
  · unfold Machine.nextSection
    rw [fifth]
    exact (empty.loadGroups _).of_group fun _ => rfl
  · exact empty.of_group (storeSection_group fifth _ s)

theorem floorsKeep_bridgeGroup (g : GroupId) (s : State) : FloorsKeep s (bridgeGroup g s) := by
  rw [bridgeGroup_eq]
  split
  · exact .refl s
  · obtain ⟨ru, recorder, eq, -⟩ := hootRecorded_recorded g s
    rw [eq]
    have bridged : OffFloor (groupRecorded s g ru recorder) (bridgeHoots g (s.group g).hootLines (groupRecorded s g ru recorder)) :=
      .foldl (f := fun s l => bridge g l s) (fun _ _ => .of_eq) _ _
    exact (floorsKeep_groupRecorded ..).trans bridged.floorsKeep

theorem FloorsEmpty.bridgeGroups (gs : List GroupId) : ∀ {s : State}, FloorsEmpty s →
    FloorsEmpty (gs.foldl (fun s g => bridgeGroup g s) s) := by
  induction gs with
  | nil => exact id
  | cons g gs ih => exact fun {s} empty => ih (empty.keep (floorsKeep_bridgeGroup g s).groups)

theorem FloorsEmpty.enterRunning (empty : FloorsEmpty s) (length : Nat) : FloorsEmpty (enterRunning length s) := by
  have steps := entered_entered s
  rw [enterRunning_eq]
  generalize entered s = v at *
  have bridged : FloorsEmpty (Machine.bridgeGroups v) := .bridgeGroups (List.finRange 16) (empty.of_group steps.group)
  generalize Machine.bridgeGroups v = w at *
  exact bridged.of_group fun _ => rfl

theorem FloorsEmpty.takeSections : ∀ (n : Nat) {s : State}, FloorsEmpty s → FloorsEmpty (takeSections n s)
  | 0, _, empty => empty.of_group fun _ => rfl
  | n + 1, s, empty => by
    unfold Machine.takeSections
    split
    · exact empty.of_group fun _ => rfl
    · exact empty.of_group fun _ => rfl
    · exact empty.of_group fun _ => rfl
    · exact (empty.nextSection _).takeSections n
    · exact empty.enterRunning _

theorem floorLaw_configReadResponse (law : FloorLaw s) {error : Bool} {data : List Byte}
    (next : execConfigReadResponse error data s = .next t) : FloorLaw t := by
  unfold execConfigReadResponse at next
  split at next
  · cases next; exact law
  · next a u back =>
    have taken := offFloor_takeFlight back
    split at next
    · next loading =>
      have empty : FloorsEmpty u :=
        (law.empty (by simp [State.running, loading])).keep taken.floorsKeep.groups
      split at next <;> cases next
      · exact (empty.of_group (t := configFault .memoryError (s.ld.cursor + s.ld.buf.length) u) fun _ => rfl).law
      · have held : FloorsEmpty (imageHeld data u) := empty.of_group fun _ => rfl
        exact (held.takeSections 10).law
    · cases next
      exact (offFloor_faulted back error).floorsKeep.law law

theorem floorLaw_anchorWrite (law : FloorLaw s) (n : Word) : FloorLaw (anchorWrite n s) := by
  have loads (off : s.running = false) : FloorLaw (if n = 0 then s else startLoad n s) := by
    split
    · exact law
    · have group (g : GroupId) : (startLoad n s).group g = (s.group g).unloaded := Table.get_map ..
      exact ((law.empty off).of_loaded (fun g => by rw [group]; exact le_rfl)
        (fun g => by rw [group]; simp [GroupRec.unloaded]) fun g => by rw [group]; rfl).law
  unfold anchorWrite
  split
  · next op => exact loads (by simp [State.running, op])
  · next op => exact loads (by simp [State.running, op])
  · exact law
  · exact law

/-! ## Every command -/

theorem exec_floorLaw {c : Instr} (law : FloorLaw s) (next : exec c s = .next t) : FloorLaw t := by
  have command {c : Instr} {act : State → State × Status} (acts : s.running = true → FloorLaw (act s).1)
      (next : runCommand c act s = .next t) : FloorLaw t := by
    unfold runCommand at next
    split at next <;> cases next
    · next holds => exact (offFloor_complete ..).floorsKeep.law (acts (holds_iff.1 holds).1)
    · exact law
  have arrival {act : State → State} (acts : FloorsKeep s (act s)) (next : inRunning act s = .next t) : FloorLaw t :=
    inRunning_keeps law (fun _ => acts.law law) next
  by_cases touches : TouchesFloor c
  · cases c with
    | lineService line dir => exact command (fun _ => (floorsKeep_lineService line dir s).law law) next
    | groupSet group cfg => exact command (fun _ => (floorsKeep_groupSet group cfg s).law law) next
    | talk pos group => exact command (fun run => floorLaw_talk law run pos group) next
    | talkEnd pos group => exact command (fun _ => (floorsKeep_talkEnd pos group s).law law) next
    | restart => exact command (fun _ => (floorsKeep_restart s).law law) next
    | queueTimeoutExpiry g => exact arrival (floorsKeep_queueTimeoutExpiry g s) next
    | talkLimitExpiry g => exact arrival (floorsKeep_talkLimitExpiry g s) next
    | hangExpiry g => exact arrival (floorsKeep_hangExpiry g s) next
    | configReadResponse error data => exact floorLaw_configReadResponse law next
    | anchorWrite n =>
      cases next
      have taken : OffFloor s (takeHanded (.anchor n) s) := .of_eq rfl rfl
      exact floorLaw_anchorWrite (taken.floorsKeep.law law) n
    | powerOn straps => cases next; exact floorLaw_afterReset ..
    | resetN straps => cases next; exact floorLaw_afterReset ..
    | _ => exact touches.elim
  · exact (exec_offFloor touches next).floorsKeep.law law

/-- Settles O8: `exec_floorLaw` over all commands. -/
theorem stepKeepsFloorLaw : Obligations.StepKeepsFloorLaw := by
  intro s t law next
  have same {u : State} (off : OffFloor s u) : FloorLaw u := off.floorsKeep.law law
  unfold step at next
  split at next
  · cases next; exact same ⟨rfl, rfl⟩
  · next rest _ => exact exec_floorLaw (same (u := { s with pending := rest }) ⟨rfl, rfl⟩) next

end Sys2Proof.Machine

namespace Sys2Proof.Machine

variable {s t : State} {g : GroupId} {p : PosId}

/-! # Refusals of GROUP_SET (R58, R63) -/

section
variable {hoots : List LineId}

theorem hootStatus_wrongType (wrong : ∃ l ∈ hoots, (s.line l).type ≠ .hoot) : hootStatus g hoots s = some .badArgument := by
  have found : hoots.any (fun l => (s.line l).type != .hoot) = true := by simpa using wrong
  rw [hootStatus, if_pos found]

theorem hootStatus_taken (right : ¬∃ l ∈ hoots, (s.line l).type ≠ .hoot)
    (taken : ∃ l ∈ hoots, (s.line l).state = .bridged ∧ (s.line l).group ≠ some g) : hootStatus g hoots s = some .busy := by
  have none_ : ¬hoots.any (fun l => (s.line l).type != .hoot) = true := by simpa using right
  have found : hoots.any (fun l => (s.line l).state == .bridged && (s.line l).group != some g) = true := by simpa using taken
  rw [hootStatus, if_neg none_, if_pos found]

theorem hootStatus_out (right : ¬∃ l ∈ hoots, (s.line l).type ≠ .hoot)
    (open_ : ¬∃ l ∈ hoots, (s.line l).state = .bridged ∧ (s.line l).group ≠ some g)
    (out : ∃ l ∈ hoots, (s.line l).state = .outOfService) : hootStatus g hoots s = some .outOfService := by
  have none_ : ¬hoots.any (fun l => (s.line l).type != .hoot) = true := by simpa using right
  have none' : ¬hoots.any (fun l => (s.line l).state == .bridged && (s.line l).group != some g) = true := by simpa using open_
  have found : hoots.any (fun l => (s.line l).state == .outOfService) = true := by simpa using out
  rw [hootStatus, if_neg none_, if_neg none', if_pos found]

/-- A REQUIRED group that is to talk gets no channel where none is FREE (R63). -/
theorem recordingStep_refuses {members : PosSet} (noRecorder : (s.group g).recorder = none)
    (talk : WillTalk members hoots (s.group g)) (none_ : NoneFree s) (most : Nat) :
    recordingStep g members hoots most .required s = none := by
  have refused (ps : List PosId) : groupCheck g .required ps s = none := by
    rw [groupCheck, allocateGroup_of_noneFree none_]; rfl
  rw [recordingStep_eq members hoots most .required ⟨noRecorder, talk⟩, if_pos rfl, refused, refused, ite_self]

end

section
variable {c : GroupArgs} {hoots : List LineId} {policy : Policy} (args : hootArg c = some hoots) (once : hoots.Nodup)
  (pol : c.policy = policy.code)
include args once pol

theorem groupSet_of_hootStatus {st : Status} (stopped : hootStatus g hoots s = some st) :
    groupSet (finByte g) c s = (s, st) := by
  simp only [groupSet, idArg_finByte_group, args, pol, policyArg_code, if_pos once, stopped]

theorem groupSet_of_noRecorder (passed : hootStatus g hoots s = none)
    (refused : recordingStep g c.members hoots (clampTalkers c.maxTalkers) policy s = none) :
    groupSet (finByte g) c s = (s, .noRecorder) := by
  simp only [groupSet, idArg_finByte_group, args, pol, policyArg_code, if_pos once, passed, refused]

end

/-- Settles O32: the hoot lines are looked at in R58's order, then the recording step. -/
theorem groupSetIsRefused : Obligations.GroupSetIsRefused := by
  intro g a hoots policy s c r stays wrongType taken out holds args once pol
  have refused {st : Status} (act : groupSet (finByte g) a s = (s, st)) : OnlyAnswers c st s :=
    onlyAnswers_of_eq s (runCommand_next holds act)
  have stopped {st : Status} (h : hootStatus g hoots s = some st) : OnlyAnswers c st s :=
    refused (groupSet_of_hootStatus args once pol h)
  refine ⟨fun wrong => stopped (hootStatus_wrongType wrong), fun right busy => stopped (hootStatus_taken right busy),
    fun right open_ gone => stopped (hootStatus_out right open_ gone), fun right open_ inService noRecorder required none_ talk =>
    refused (groupSet_of_noRecorder args once pol (hootStatus_eq_none fun l hl => ⟨?_, fun x => inService ⟨l, hl, x⟩, fun x => ?_⟩)
      (required ▸ recordingStep_refuses noRecorder talk none_ _))⟩
  · by_contra x; exact right ⟨l, hl, x⟩
  · by_contra y; exact open_ ⟨l, hl, x, y⟩

end Sys2Proof.Machine

namespace Sys2Proof.Machine

variable {s t v : State} {g : GroupId} {p : PosId}

/-! # TALK and TALK_END (R48 to R53) -/

/-! ## TALK, case by case (R48) -/

section
variable (member : inSet (s.group g).members p = true)
include member

theorem talk_of_holder (holds : entryOf p (s.group g).holders = true) : talk (finByte p) (finByte g) s = (s, .ok) := by
  simp [talk, member, holds]

theorem talk_of_queued (silent : entryOf p (s.group g).holders = false) (queued : entryOf p (s.group g).queue = true) :
    talk (finByte p) (finByte g) s = (s, .queued) := by
  simp [talk, member, silent, queued]

theorem talk_of_elsewhere (off : ¬s.onFloor g p) (elsewhere : ∃ h, h ≠ g ∧ s.onFloor h p) :
    talk (finByte p) (finByte g) s = (s, .micBusy) := by
  obtain ⟨silent, unqueued⟩ := not_or.1 off
  simp [talk, member, silent, unqueued, talksElsewhere_iff.2 elsewhere]

/-- A member that is on no floor: what happens to it turns on the places (R48). -/
theorem talk_of_ready (away : ∀ h, ¬s.onFloor h p) : talk (finByte p) (finByte g) s =
    if (s.group g).holders.length < (s.group g).maxTalkers then
      if (s.group g).hasTalkers = false ∧ (s.group g).recorder = none then
        (groupCheck g (s.group g).policy [] s).elim (s, .noRecorder) fun r => (grantPlace g p (s.settings p).supervisor r.1, r.2)
      else (grantPlace g p (s.settings p).supervisor s, .ok)
    else talkFull g p s := by
  obtain ⟨silent, unqueued⟩ := not_or.1 (away g)
  have nowhere : ¬talksElsewhere p g s = true := fun x => by
    obtain ⟨h, -, there⟩ := talksElsewhere_iff.1 x
    exact away h there
  simp only [talk, idArg_finByte_pos, idArg_finByte_group, member, silent, unqueued, nowhere, Bool.true_eq_false, if_false]
  cases groupCheck g (s.group g).policy [] s <;> rfl

end

theorem talk_of_outsider (outsider : inSet (s.group g).members p = false) :
    talk (finByte p) (finByte g) s = (s, .notMember) := by
  simp [talk, outsider]

/-! ## The group recorder check (R49) -/

theorem groupCheck_of_lowest {policy : Policy} (recorded : policy ≠ .none) {d : ChanId} {u : State} (low : LowestFree s d)
    (given : allocate (.group g) [] s = some (d, u)) : groupCheck g policy [] s = some (groupRecorded s g u.ru (some d), .ok) := by
  rw [allocate_of_lowest low] at given
  obtain ⟨-, rfl⟩ := Prod.mk.inj (Option.some.inj given)
  cases policy with
  | none => exact absurd rfl recorded
  | optional => simp only [groupCheck, allocateGroup_of_lowest low]
  | required => simp only [groupCheck, allocateGroup_of_lowest low, Option.map_some]

/-! ## Every place is taken (R51, R52) -/

/-- The first holder without supervisor standing is found, and it alone is erased. -/
theorem first_split {α : Type} [DecidableEq α] {which : α → Bool} {before after : List α} {q : α} (picked : which q = true)
    (others : ∀ e ∈ before, which e = false) :
    (before ++ q :: after).find? which = some q ∧ (before ++ q :: after).erase q = before ++ after := by
  have fresh : q ∉ before := fun h => by simp [others q h] at picked
  refine ⟨?_, by rw [List.erase_append_right _ fresh, List.erase_cons_head]⟩
  rw [List.find?_append, List.find?_eq_none.2 (by simpa using others), Option.none_or, List.find?_cons_of_pos picked]

theorem talkFull_preempts {before after : List FloorEntry} {q : FloorEntry} (mark : (s.settings p).supervisor = true)
    (holders : (s.group g).holders = before ++ q :: after) (standing : q.standing = false)
    (first : ∀ e ∈ before, e.standing = true) : talkFull g p s =
      (grantPlace g p (s.settings p).supervisor (post (.floorRevoked g q.pos .preempt)
        (s.modGroup g fun r => { r with holders := r.holders.erase q })), .ok) := by
  have found : (s.group g).holders.find? (fun e => !e.standing) = some q := by
    rw [holders]
    exact (first_split (by simp [standing]) (by simpa using first)).1
  unfold talkFull
  dsimp only
  rw [mark, if_pos rfl, found]
  rfl

theorem talkFull_waits (none_ : (s.settings p).supervisor = true → ∀ e ∈ (s.group g).holders, e.standing = true) :
    talkFull g p s = if (s.group g).queue.length < 8 then (enqueue g p (s.settings p).supervisor s, .queued)
      else (s, .floorBusy) := by
  have stands : (if (s.settings p).supervisor then (s.group g).holders.find? (fun e => !e.standing) else none) = none := by
    split
    · next mark => exact List.find?_eq_none.2 (by simpa using none_ mark)
    · rfl
  unfold talkFull
  dsimp only
  rw [stands]
  rfl

/-! ## A place is granted and the command completes -/

/-- What the Recorder Unit is told turns on that unit alone. -/
theorem PartyTold.of_ru {recorder : Option ChanId} {ru : RecUnit} (told : PartyTold recorder p v ru) (same : v.ru = s.ru) :
    PartyTold recorder p s ru := by
  cases recorder with
  | none => exact told.trans same
  | some c => exact told.trans (partyArrival_ru_congr same c p)

/-- A grant made to a position, once the group's record has been prepared, and the completion of its TALK. -/
theorem grant_completes {es : List Event} (others : OnlyGroup g s v) (events : Posts es s v)
    (frame : v = { s with fc := v.fc, ru := v.ru, cu := v.cu, pu := v.pu }) (b : Bool) (st : Status) :
    let t := complete st (grantPlace g p b v)
    t.group g = { v.group g with
      holders := (v.group g).holders ++ [⟨p, b, ahead s (v.group g).talkLimit⟩], hangDeadline := none } ∧
      OnlyGroup g s t ∧ t = { s with fc := t.fc, ru := t.ru, cu := t.cu, pu := t.pu } ∧
      PartyTold (v.group g).recorder p v t.ru ∧ Answers (es ++ [.floorGrant g p]) st s t := by
  have now : v.now = s.now := by rw [frame]; rfl
  refine ⟨?_, fun h hg => ?_, ?_, ?_, (events.trans (posts_grantPlace v g p b)).answers st⟩
  · rw [complete_group, grantPlace_group, if_pos rfl, ahead, now]; rfl
  · rw [complete_group, grantPlace_others v g p b h hg, others h hg]
  · apply State.ext_parts <;> simp <;> rw [frame]
  · rw [complete_ru, grantPlace_ru]; exact partyTold_ruTold ..

/-- The position's request joins the queue and the command completes. -/
theorem enqueue_completes (s : State) (g : GroupId) (p : PosId) (b : Bool) :
    let t := complete .queued (enqueue g p b s)
    t.group g = { s.group g with queue := (s.group g).queue ++ [⟨p, b, ahead s (s.group g).queueTimeout⟩] } ∧
      OnlyGroup g s t ∧ Answers [] .queued s t ∧ t = { s with fc := t.fc, cu := t.cu, pu := t.pu } := by
  have step := modGroup_floorStep s g fun r => { r with queue := r.queue ++ [⟨p, b, deadlineIn s r.queueTimeout⟩] }
  refine ⟨?_, fun h hg => ?_, step.events.answers .queued, ?_⟩
  · rw [complete_group, ← ahead_eq s (s.group g).queueTimeout]
    exact step.group
  · rw [complete_group]; exact step.others h hg
  · apply State.ext_parts <;> simp [enqueue]

/-- Settles O34: TALK by who asks and who holds the places (`talk_of_ready`), TALK_END by the list its position stands in. -/
theorem talkAndTalkEnd : Obligations.TalkAndTalkEnd := by
  constructor
  · intro p g s c r mark member ready granted free silent holds
    have refused {st : Status} (act : talk (finByte p) (finByte g) s = (s, st)) : OnlyAnswers c st s :=
      onlyAnswers_of_eq s (runCommand_next holds act)
    have ready_free (here : ready) (room : free) := (talk_of_ready here.1 here.2).trans (if_pos room)
    have ready_full (here : ready) (full : ¬free) := (talk_of_ready here.1 here.2).trans (if_neg full)
    have quiet_of (alone : silent) : r.hasTalkers = false ∧ r.recorder = none :=
      ⟨hasTalkers_eq_false.2 ⟨alone.1, alone.2.1⟩, alone.2.2⟩
    have unrecorded (alone : silent) : r.recorder = none := alone.2.2
    have grants (ru : RecUnit) (recorder : Option ChanId) (st : Status) := grant_completes (g := g) (p := p) (es := [])
      (v := groupRecorded s g ru recorder) (fun h hg => by rw [groupRecorded_group, if_neg (Ne.symm hg)])
      (posts_groupRecorded s g ru recorder) rfl mark st
    simp only [groupRecorded_group, if_true, List.nil_append] at grants
    have here_grants (st : Status) := grants s.ru r.recorder st
    simp only [show groupRecorded s g s.ru r.recorder = s from groupRecorded_same s g] at here_grants
    refine ⟨fun outside => refused (talk_of_outsider (Bool.eq_false_iff.2 outside)),
      fun in_ holding => refused (talk_of_holder in_ holding), fun in_ off queued => refused (talk_of_queued in_ off queued),
      fun in_ off elsewhere => refused (talk_of_elsewhere in_ off elsewhere), fun here room alone policy none_ => refused ?_,
      fun here room talks => ?_, fun d u here room alone policy low given => ?_, fun here room alone policy none_ => ?_,
      fun before q after here full marked holders standing first => ?_, fun here full none_ => ⟨fun room => ?_, fun queue => ?_⟩⟩
    · rw [ready_free here room, if_pos (quiet_of alone), policy, groupCheck, allocateGroup_of_noneFree none_]
      rfl
    · have act : talk (finByte p) (finByte g) s = (grantPlace g p mark s, .ok) := by
        rw [ready_free here room]
        split
        · next quiet =>
          have policy : r.policy = .none := talks.resolve_left fun x =>
            x ⟨(hasTalkers_eq_false.1 quiet.1).1, (hasTalkers_eq_false.1 quiet.1).2, quiet.2⟩
          rw [policy]
          rfl
        · rfl
      obtain ⟨group, others, frame, told, answers⟩ := here_grants .ok
      exact ⟨_, runCommand_next holds act, ⟨group, others, frame⟩, told, answers⟩
    · have act : talk (finByte p) (finByte g) s = (grantPlace g p mark (groupRecorded s g u.ru (some d)), .ok) := by
        rw [ready_free here room, if_pos (quiet_of alone), groupCheck_of_lowest policy low given]
        rfl
      obtain ⟨group, others, frame, told, answers⟩ := grants u.ru (some d) .ok
      exact ⟨_, runCommand_next holds act, ⟨group, others, frame⟩, told.of_ru rfl, answers⟩
    · have act : talk (finByte p) (finByte g) s = (grantPlace g p mark s, .okUnrecorded) := by
        rw [ready_free here room, if_pos (quiet_of alone), policy]
        simp only [groupCheck, allocateGroup_of_noneFree none_]
        rfl
      obtain ⟨group, others, frame, told, answers⟩ := here_grants .okUnrecorded
      rw [unrecorded alone] at group told
      exact ⟨_, runCommand_next holds act, ⟨group, others, frame⟩, told, answers⟩
    · have left := modGroup_floorStep s g fun r => { r with holders := r.holders.erase q }
      have erased : r.holders.erase q = before ++ after := by
        rw [holders]
        exact (first_split (which := fun e => !e.standing) (by simp [standing]) (by simpa using first)).2
      obtain ⟨group, others, frame, told, answers⟩ := grant_completes (g := g) (p := p)
        (v := post (.floorRevoked g q.pos .preempt) (s.modGroup g fun r => { r with holders := r.holders.erase q }))
        (fun h hg => by rw [post_group]; exact left.others h hg) (left.events.trans (posts_post ..))
        (by apply State.ext_parts <;> simp) mark .ok
      rw [post_group, left.group] at group told
      rw [erased] at group
      exact ⟨_, runCommand_next holds ((ready_full here full).trans (talkFull_preempts marked holders standing first)),
        ⟨group, others, frame⟩, told.of_ru (by simp), answers⟩
    · have act := (ready_full here full).trans (talkFull_waits none_)
      rw [if_pos room] at act
      exact ⟨_, runCommand_next holds act, enqueue_completes s g p mark⟩
    · have act := (ready_full here full).trans (talkFull_waits none_)
      rw [if_neg (Nat.not_lt.2 queue)] at act
      exact refused act
  · intro p g s c r holds
    have act : talkEnd (finByte p) (finByte g) s =
        if entryOf p r.holders then
          (startHang g (grantPass g (s.modGroup g fun r => { r with holders := dropEntry p (s.group g).holders })), .ok)
        else if entryOf p r.queue then (s.modGroup g fun r => { r with queue := dropEntry p (s.group g).queue }, .ok)
        else (s, .notHolding) := by
      simp only [talkEnd, idArg_finByte_pos, idArg_finByte_group]
      rfl
    refine ⟨fun holding => ?_, fun off queued => ?_, fun off => ?_⟩
    · have left := modGroup_floorStep s g fun r => { r with holders := dropEntry p (s.group g).holders }
      rw [if_pos holding] at act
      exact ⟨_, left.group, left.others, rfl, runCommand_next holds act⟩
    · have left := modGroup_floorStep s g fun r => { r with queue := dropEntry p (s.group g).queue }
      rw [if_neg (by simp [off]), if_pos queued] at act
      refine ⟨_, runCommand_next holds act, by rw [complete_group]; exact left.group, fun h hg => ?_, left.events.answers .ok, ?_⟩
      · rw [complete_group]; exact left.others h hg
      · apply State.ext_parts <;> simp
    · obtain ⟨silent, unqueued⟩ := not_or.1 off
      rw [if_neg silent, if_neg unqueued] at act
      exact onlyAnswers_of_eq s (runCommand_next holds act)

end Sys2Proof.Machine

namespace Sys2Proof.Machine

variable {s : State} {g : GroupId}

/-! # The floor's deadlines (R55, R56, R66, R141) -/

theorem entryDue_iff {x : FloorEntry} :
    entryDue s x = true ↔ ∃ d, x.deadline = some d ∧ (s.ft.counter - d).toNat < 2 ^ 31 := by
  unfold entryDue
  split
  · next d deadline => simp only [deadline, Option.some.injEq, exists_eq_left']; exact decide_eq_true_iff
  · next none_ => simp [none_]

theorem inRunning_next {act : State → State} {t : State} (run : s.running = true) (h : act s = t) :
    inRunning act s = .next t := by rw [inRunning, if_pos run, h]

theorem queueTimeoutExpiry_idle (none_ : ∀ x ∈ (s.group g).queue, entryDue s x = false) : queueTimeoutExpiry g s = s := by
  rw [queueTimeoutExpiry, List.find?_eq_none.2 (by simpa using none_)]

theorem talkLimitExpiry_idle (none_ : ∀ x ∈ (s.group g).holders, entryDue s x = false) : talkLimitExpiry g s = s := by
  rw [talkLimitExpiry, List.find?_eq_none.2 (by simpa using none_)]

theorem hangExpiry_idle (off : (s.group g).hangDeadline = none ∨ ∃ d, (s.group g).hangDeadline = some d ∧ s.due d = false) :
    hangExpiry g s = s := by
  rcases off with none_ | ⟨d, deadline, early⟩
  · simp [hangExpiry, none_]
  · simp [hangExpiry, deadline, early]

section
variable {before after : List FloorEntry} {e : FloorEntry} (early : ∀ x ∈ before, entryDue s x = false)
  (due : entryDue s e = true)
include early due

/-- The first request whose deadline is due leaves the queue (R55). -/
theorem queueTimeoutExpiry_due (queue : (s.group g).queue = before ++ e :: after) : queueTimeoutExpiry g s =
    post (.floorTimeout g e.pos) (s.modGroup g fun r => { r with queue := r.queue.erase e }) := by
  rw [queueTimeoutExpiry, queue, (first_split due early).1]

/-- The first holder whose deadline is due loses its place (R56). -/
theorem talkLimitExpiry_due (holders : (s.group g).holders = before ++ e :: after) : talkLimitExpiry g s =
    startHang g (grantPass g
      (post (.floorRevoked g e.pos .talkLimit) (s.modGroup g fun r => { r with holders := r.holders.erase e }))) := by
  rw [talkLimitExpiry, holders, (first_split due early).1]

end

/-- A due hang ends the session of the group's recorder (R66). -/
theorem hangExpiry_due {d : Word} {k : ChanId} (deadline : (s.group g).hangDeadline = some d) (due : s.due d = true)
    (recorder : (s.group g).recorder = some k) : hangExpiry g s =
      (sessionEnd k .groupSilent (s.modGroup g fun r => { r with hangDeadline := none })).modGroup g
        fun r => { r with recorder := none } := by
  simp [hangExpiry, endGroupSession, deadline, due, recorder]

/-- Settles O46: the first due entry splits its list (`first_split`), and what is left of the list closes up. -/
theorem floorDeadlinesExpire : Obligations.FloorDeadlinesExpire := by
  intro g before after e s run r
  refine ⟨fun x => entryDue_iff, fun none_ => inRunning_next run (queueTimeoutExpiry_idle none_), fun queue early due => ?_,
    fun none_ => inRunning_next run (talkLimitExpiry_idle none_), fun holders early due => ?_,
    fun off => inRunning_next run (hangExpiry_idle off), fun d k deadline due recorder => ?_⟩
  · have left := modGroup_floorStep s g fun r => { r with queue := r.queue.erase e }
    refine ⟨_, inRunning_next run (queueTimeoutExpiry_due early due queue), ?_, fun h hg => ?_,
      left.events.trans (posts_post ..), ?_⟩
    · rw [post_group, left.group, ← (first_split due early).2, ← queue]
    · rw [post_group]; exact left.others h hg
    · apply State.ext_parts <;> simp
  · have left := modGroup_floorStep s g fun r => { r with holders := r.holders.erase e }
    refine ⟨_, ?_, fun h hg => ?_, left.events.trans (posts_post ..), ?_,
      inRunning_next run (talkLimitExpiry_due early due holders)⟩
    · rw [post_group, left.group, ← (first_split due early).2, ← holders]
    · rw [post_group]; exact left.others h hg
    · apply State.ext_parts <;> simp
  · refine ⟨_, inRunning_next run (hangExpiry_due deadline due recorder), ?_, fun h hg => ?_, ?_⟩
    · rw [modGroup_group_self, sessionEnd_group, modGroup_group_self]
    · rw [modGroup_group, if_neg (Ne.symm hg), sessionEnd_group, modGroup_group, if_neg (Ne.symm hg)]
    · apply State.ext_parts
      case ru => exact sessionEnd_ru_congr (s := s) (t := s.modGroup g _) rfl rfl k .groupSilent
      all_goals simp

end Sys2Proof.Machine

namespace Sys2Proof.Machine

/-! # Reading fields and records out of a section's bytes (R185, R186) -/

section
variable {bs : List Byte} {i j k m n o : Nat}

theorem leNat_lt (bs : List Byte) : leNat bs < 256 ^ bs.length := by
  induction bs with
  | nil => exact Nat.one_pos
  | cons b bs ih =>
    have := b.isLt
    rw [leNat, List.length_cons, Nat.pow_succ]
    omega

theorem leAt_lt (bs : List Byte) (o n : Nat) : leAt bs o n < 256 ^ n :=
  (leNat_lt _).trans_le (Nat.pow_le_pow_right (by decide) (List.length_take_le ..))

theorem byteAt_take (inside : o < m) : byteAt (bs.take m) o = byteAt bs o := by
  simp [byteAt, List.getD_eq_getElem?_getD, inside]

theorem leAt_take (inside : o + n ≤ m) : leAt (bs.take m) o n = leAt bs o n := by
  rw [leAt, List.drop_take, List.take_take, Nat.min_eq_left (by omega)]; rfl

theorem byteAt_drop : byteAt (bs.drop k) o = byteAt bs (k + o) := by
  simp [byteAt, List.getD_eq_getElem?_getD, List.getElem?_drop]

theorem leAt_drop : leAt (bs.drop k) o n = leAt bs (k + o) n := by
  rw [leAt, List.drop_drop]; rfl

theorem addrAt_take (inside : o + 5 ≤ m) : addrAt (bs.take m) o = addrAt bs o := by
  rw [addrAt, leAt_take inside]; rfl

theorem byteAt_record (inside : o < n) : byteAt (record n bs i) o = byteAt bs (n * i + o) := by
  rw [record, byteAt_take inside, byteAt_drop]

theorem leAt_record (inside : o + m ≤ n) : leAt (record n bs i) o m = leAt bs (n * i + o) m := by
  rw [record, leAt_take inside, leAt_drop]

theorem addrAt_record (inside : o + 5 ≤ n) : addrAt (record n bs i) o = addrAt bs (n * i + o) := by
  rw [addrAt, leAt_record inside]; rfl

theorem record_end_le {count : Nat} (l : Fin count) (n : Nat) : n * (l.val + 1) ≤ n * count := Nat.mul_le_mul_left n l.isLt

/-- A record that lies whole in the first `m` bytes is read from them. -/
theorem record_take (inside : n * (i + 1) ≤ m) : record n (bs.take m) i = record n bs i := by
  rw [Nat.mul_succ] at inside
  rw [record, List.drop_take, List.take_take, Nat.min_eq_left (by omega)]; rfl

/-- The records that have come whole all pass a test. -/
theorem wholeRecords_all {count : Nat} {ok : List Byte → Bool} (pos : 0 < n) (room : n * count ≤ m) :
    (wholeRecords n count (bs.take m)).all ok = true ↔
      ∀ i : Fin count, n * (i.val + 1) ≤ bs.length → ok (record n bs i.val) = true := by
  have whole (i : Nat) (hi : i < count) : i < (bs.take m).length / n ↔ n * (i + 1) ≤ bs.length := by
    have : n * (i + 1) ≤ n * count := Nat.mul_le_mul_left n hi
    rw [Nat.lt_iff_add_one_le, Nat.le_div_iff_mul_le pos, Nat.mul_comm, List.length_take]
    omega
  simp only [wholeRecords, List.all_map, List.all_eq_true, List.mem_range, Nat.lt_min, and_imp, Function.comp_apply]
  constructor
  · intro h i hi
    have := h i.val i.isLt ((whole i i.isLt).2 hi)
    rwa [← record_take ((record_end_le i n).trans room)]
  · intro h i hi come
    change ok (record n (bs.take m) i) = true
    rw [record_take ((Nat.mul_le_mul_left n hi).trans room)]
    exact h ⟨i, hi⟩ ((whole i hi).1 come)

end

/-! ## The byte that stands for an operand -/

section
variable {b : Byte}

theorem idArg_eq_some {n : Nat} (small : n ≤ 256) {i : Fin n} : idArg n b = some i ↔ b = finByte i := by
  have := i.isLt
  rw [finByte, byte_eq_ofNat (by omega), idArg]
  split
  · rw [Option.some.injEq, Fin.ext_iff]
  · simp; omega

theorem optIdArg_eq_some {n : Nat} (small : n ≤ 255) {x : Option (Fin n)} : optIdArg n b = some x ↔ b = idByte x := by
  cases x with
  | none => unfold optIdArg idByte; split <;> simp_all
  | some i =>
    have other : b = finByte i → b ≠ 255 := fun h full => by
      have := (byte_eq_ofNat (by omega)).1 h
      rw [full] at this
      have : 255 = i.val := this
      omega
    have same : idByte (some i) = finByte i := rfl
    rw [same, ← idArg_eq_some (by omega)] at *
    unfold optIdArg
    split
    · next full => simpa using fun h => other h full
    · simp

theorem typeArg_eq_some {x : LineType} : typeArg b = some x ↔ b = x.code := by
  revert b; cases x <;> decide

theorem policyArg_eq_some {x : Policy} : policyArg b = some x ↔ b = x.code := by
  revert b; cases x <;> decide

theorem flagArg_eq_some {x : Bool} : flagArg b = some x ↔ b = flagCode x := by
  revert b; cases x <;> decide

/-- The two bytes of a speaker channel's subject (R186). -/
theorem subjectArg_eq_some {number : Byte} {x : Option Subject} : subjectArg b number = some x ↔
    (b = 0 ∧ x = none) ∨ (∃ l : LineId, b = 1 ∧ number = finByte l ∧ x = some (.line l)) ∨
      (∃ g : GroupId, b = 2 ∧ number = finByte g ∧ x = some (.group g)) := by
  unfold subjectArg
  split
  · next kind => simp [kind, eq_comm (a := x)]
  · split
    · next kind => simp [kind, idArg_eq_some, eq_comm (a := x)]
    · split
      · next kind => simp [kind, idArg_eq_some, eq_comm (a := x)]
      · next zero one two => simp only [zero, one, two, reduceCtorEq, false_and, exists_false, or_self]

/-- The hoot lines that a group's arguments list (R58). -/
theorem hootArg_eq_some {c : GroupArgs} {hoots : List LineId} : hootArg c = some hoots ↔
    (c.hootCount = 0 ∧ hoots = []) ∨ (∃ l : LineId, c.hootCount = 1 ∧ c.hoot0 = finByte l ∧ hoots = [l]) ∨
      (∃ l m : LineId, c.hootCount = 2 ∧ c.hoot0 = finByte l ∧ c.hoot1 = finByte m ∧ hoots = [l, m]) := by
  have one (l : LineId) : hoots = [l] ↔ [l] = hoots := eq_comm
  have two (l m : LineId) : hoots = [l, m] ↔ [l, m] = hoots := eq_comm
  unfold hootArg
  split
  · next count => simp [count, eq_comm]
  · split
    · next count => simp [count, idArg_eq_some, one]
    · split
      · next count =>
        simp only [count, ← idArg_eq_some (show 96 ≤ 256 by decide)]
        cases idArg 96 c.hoot0 <;> cases idArg 96 c.hoot1 <;> simp [two]
      · next zero one two => simp only [zero, one, two, reduceCtorEq, false_and, exists_false, or_self]

theorem bufferOk_iff {base ceil : Addr} :
    bufferOk base ceil = true ↔ base.toNat % 32 = 0 ∧ ceil.toNat % 32 = 0 ∧ base.toNat < ceil.toNat := by
  simp [bufferOk, and_assoc]

end

/-! ## A table of optional entries -/

section
variable {α : Type} {n : Nat} {f : Nat → Option (Option α)}

theorem all_isSome_range : ((List.range n).map f).all Option.isSome = true ↔ ∀ i : Fin n, ∃ x, f i = some x := by
  simp only [List.all_map, List.all_eq_true, List.mem_range, Function.comp_apply, Option.isSome_iff_exists]
  exact ⟨fun h i => h i i.isLt, fun h i hi => h ⟨i, hi⟩⟩

theorem join_eq_some {o : Option (Option α)} {a : α} : o.join = some a ↔ o = some (some a) := by
  cases o <;> simp

theorem mem_filterMap_join_range {a : α} :
    a ∈ ((List.range n).map f).filterMap Option.join ↔ ∃ i : Fin n, f i = some (some a) := by
  simp only [List.mem_filterMap, List.mem_map, List.mem_range, join_eq_some]
  constructor
  · rintro ⟨_, ⟨i, hi, rfl⟩, named⟩; exact ⟨⟨i, hi⟩, named⟩
  · rintro ⟨i, named⟩; exact ⟨_, ⟨i, i.isLt, rfl⟩, named⟩

/-- No entry is named twice. -/
theorem nodup_filterMap_join_range : (((List.range n).map f).filterMap Option.join).Nodup ↔
    ∀ (i j : Fin n) (a : α), f i = some (some a) → f j = some (some a) → i = j := by
  rw [← List.map_coe_finRange_eq_range, List.map_map, List.filterMap_map, List.Nodup, List.pairwise_filterMap]
  simp only [Function.comp_apply, join_eq_some]
  constructor
  · intro apart i j a hi hj
    by_contra ne
    have earlier (i j : Fin n) (lt : i.val < j.val) (hi : f i = some (some a)) (hj : f j = some (some a)) : False := by
      have := List.pairwise_iff_getElem.1 apart i.val j.val (by simp) (by simp) lt
      simp only [List.getElem_finRange] at this
      exact this a hi a hj rfl
    rcases Nat.lt_or_gt_of_ne (Fin.val_ne_of_ne ne) with lt | gt
    · exact earlier i j lt hi hj
    · exact earlier j i gt hj hi
  · intro once
    refine (List.nodup_finRange n).pairwise_of_forall_ne fun i _ j _ ne a hi b hj same => ne ?_
    subst same
    exact once i j a hi hj

end

end Sys2Proof.Machine

namespace Sys2Proof.Machine

/-! # The records of a section's bytes: which have no index error (R10, R89, R162, R178, R186) -/

section
variable {body : List Byte}

/-- The fields of line `l`'s record are the codes of these values. -/
def LineRead (body : List Byte) (l : LineId) (ty : LineType) (pref : Option PosId) (pol : Policy) (service : Bool) : Prop :=
  byteAt body (8 * l.val) = ty.code ∧ byteAt body (8 * l.val + 2) = idByte pref ∧
    byteAt body (8 * l.val + 6) = pol.code ∧ byteAt body (8 * l.val + 7) = flagCode service

theorem lineRecordOk_iff {l : LineId} :
    lineRecordOk (record 8 body l.val) = true ↔ ∃ ty pref pol service, LineRead body l ty pref pol service := by
  simp only [lineRecordOk, Bool.and_eq_true, Option.isSome_iff_exists, typeArg_eq_some, policyArg_eq_some, flagArg_eq_some,
    optIdArg_eq_some (show 8 ≤ 255 by decide), byteAt_record (show 0 < 8 by decide), byteAt_record (show 2 < 8 by decide),
    byteAt_record (show 6 < 8 by decide), byteAt_record (show 7 < 8 by decide)]
  constructor
  · rintro ⟨⟨⟨⟨ty, h0⟩, pref, h2⟩, pol, h6⟩, service, h7⟩; exact ⟨ty, pref, pol, service, h0, h2, h6, h7⟩
  · rintro ⟨ty, pref, pol, service, h0, h2, h6, h7⟩; exact ⟨⟨⟨⟨ty, h0⟩, pref, h2⟩, pol, h6⟩, service, h7⟩

/-- Key `k` of position `p`'s record names `x`. -/
def KeyRead (body : List Byte) (p : PosId) (k : KeyId) (x : Option LineId) : Prop := byteAt body (108 * p.val + k.val) = idByte x

/-- Channel `j` of position `p`'s record names `x`. -/
def ChannelRead (body : List Byte) (p : PosId) (j : SpkId) (x : Option Subject) : Prop :=
  (byteAt body (108 * p.val + (60 + 4 * j.val)) = 0 ∧ x = none) ∨
  (∃ l : LineId, byteAt body (108 * p.val + (60 + 4 * j.val)) = 1 ∧
    byteAt body (108 * p.val + (61 + 4 * j.val)) = finByte l ∧ x = some (.line l)) ∨
  (∃ g : GroupId, byteAt body (108 * p.val + (60 + 4 * j.val)) = 2 ∧
    byteAt body (108 * p.val + (61 + 4 * j.val)) = finByte g ∧ x = some (.group g))

/-- Position `p`'s record has no index error and keeps the laws of R10 and R89. -/
def PositionRead (body : List Byte) (p : PosId) : Prop :=
  (∀ k, ∃ x, KeyRead body p k x) ∧ (∀ j k l, KeyRead body p j (some l) → KeyRead body p k (some l) → j = k) ∧
  (∃ mark, byteAt body (108 * p.val + 52) = flagCode mark) ∧ (∀ j, ∃ x, ChannelRead body p j x) ∧
  (∀ i j x, ChannelRead body p i (some x) → ChannelRead body p j (some x) → i = j) ∧
  (∀ j l, ChannelRead body p j (some (.line l)) → ∃ k, KeyRead body p k (some l))

variable {p : PosId}

theorem recordKey_eq_some {k : KeyId} {x : Option LineId} :
    optIdArg 96 (byteAt (record 108 body p.val) k.val) = some x ↔ KeyRead body p k x := by
  rw [optIdArg_eq_some (by decide), byteAt_record (by omega)]; rfl

theorem recordSubject_eq_some {j : SpkId} {x : Option Subject} :
    recordSubject (record 108 body p.val) j.val = some x ↔ ChannelRead body p j x := by
  rw [recordSubject, subjectArg_eq_some, byteAt_record (by omega), byteAt_record (by omega)]; rfl

theorem subjectPlaced_iff {keys : List LineId} {x : Subject} : subjectPlaced keys x = true ↔ ∀ l, x = .line l → l ∈ keys := by
  cases x <;> simp [subjectPlaced]

theorem positionRecordOk_iff : positionRecordOk (record 108 body p.val) = true ↔ PositionRead body p := by
  have keys := all_isSome_range (n := 48) (f := fun i => optIdArg 96 (byteAt (record 108 body p.val) i))
  have channels := all_isSome_range (n := 12) (f := recordSubject (record 108 body p.val))
  have once := nodup_filterMap_join_range (n := 48) (f := fun i => optIdArg 96 (byteAt (record 108 body p.val) i))
  have distinct := nodup_filterMap_join_range (n := 12) (f := recordSubject (record 108 body p.val))
  have placed : (((List.range 12).map (recordSubject (record 108 body p.val))).filterMap Option.join).all
      (subjectPlaced ((recordKeys (record 108 body p.val)).filterMap Option.join)) = true ↔
      ∀ j l, ChannelRead body p j (some (.line l)) → ∃ k, KeyRead body p k (some l) := by
    simp only [List.all_eq_true, mem_filterMap_join_range, subjectPlaced_iff, recordSubject_eq_some, recordKeys,
      recordKey_eq_some]
    exact ⟨fun h j l named => h _ ⟨j, named⟩ l rfl, fun h x ⟨j, named⟩ l line => h j l (line ▸ named)⟩
  simp only [recordKey_eq_some] at keys once
  simp only [recordSubject_eq_some] at channels distinct
  simp only [positionRecordOk, Bool.and_eq_true, decide_eq_true_eq, placed, channels, distinct, and_assoc]
  rw [recordKeys, keys, once, Option.isSome_iff_exists, byteAt_record (by decide)]
  simp only [flagArg_eq_some]
  rfl

/-- Group `g`'s record lists these hoot lines. -/
def HootsRead (body : List Byte) (g : GroupId) (hoots : List LineId) : Prop :=
  (byteAt body (12 * g.val + 1) = 0 ∧ hoots = []) ∨
  (∃ l : LineId, byteAt body (12 * g.val + 1) = 1 ∧ byteAt body (12 * g.val + 2) = finByte l ∧ hoots = [l]) ∨
  (∃ l m : LineId, byteAt body (12 * g.val + 1) = 2 ∧ byteAt body (12 * g.val + 2) = finByte l ∧
    byteAt body (12 * g.val + 3) = finByte m ∧ hoots = [l, m])

variable {g : GroupId}

/-- The fields of a group's record, by their places in the section. -/
theorem groupArgs_record : groupArgs (record 12 body g.val) 0 = groupArgs body (12 * g.val) := by
  simp [groupArgs, byteAt_record]

theorem hootArg_record {hoots : List LineId} :
    hootArg (groupArgs (record 12 body g.val) 0) = some hoots ↔ HootsRead body g hoots := by
  rw [groupArgs_record, hootArg_eq_some]; rfl

theorem groupRecordOk_iff : groupRecordOk (record 12 body g.val) = true ↔
    (∃ hoots, HootsRead body g hoots) ∧ ∃ pol : Policy, byteAt body (12 * g.val + 7) = pol.code := by
  rw [groupRecordOk, Bool.and_eq_true, Option.isSome_iff_exists, Option.isSome_iff_exists, byteAt_record (by decide)]
  simp only [hootArg_record, policyArg_eq_some]

theorem hootsLoaded_eq {hoots : List LineId} (listed : HootsRead body g hoots) : hootsLoaded body g = hoots := by
  rw [hootsLoaded, hootArg_record.2 listed, Option.getD_some]

/-- Address `i` of channel `k`'s record. -/
def placeRead (body : List Byte) (k : ChanId) (i : Nat) : Addr := addrAt body (32 * k.val + 8 * i)

theorem addrAt_channel {k : ChanId} {i : Nat} (inside : i < 4) : addrAt (record 32 body k.val) (8 * i) = placeRead body k i := by
  rw [addrAt_record (by omega), placeRead]

theorem channelRecordOk_iff {k : ChanId} : channelRecordOk (record 32 body k.val) = true ↔
    (∀ i, i < 4 → (placeRead body k i).toNat % 32 = 0) ∧ (placeRead body k 0).toNat < (placeRead body k 1).toNat ∧
      (placeRead body k 2).toNat < (placeRead body k 3).toNat := by
  have a0 := addrAt_channel (body := body) (k := k) (i := 0) (by decide)
  have a1 := addrAt_channel (body := body) (k := k) (i := 1) (by decide)
  have a2 := addrAt_channel (body := body) (k := k) (i := 2) (by decide)
  have a3 := addrAt_channel (body := body) (k := k) (i := 3) (by decide)
  rw [channelRecordOk, Bool.and_eq_true, bufferOk_iff, bufferOk_iff, a0, a1, a2, a3]
  constructor
  · rintro ⟨⟨h0, h1, low⟩, h2, h3, high⟩
    refine ⟨fun i inside => ?_, low, high⟩
    interval_cases i <;> assumption
  · rintro ⟨aligned, low, high⟩
    exact ⟨⟨aligned 0 (by decide), aligned 1 (by decide), low⟩, aligned 2 (by decide), aligned 3 (by decide), high⟩

end

end Sys2Proof.Machine

namespace Sys2Proof.Machine

variable {s u : State} {k : Nat}

/-! # The loader's next step (R178, R186) -/

theorem not_beyond {n : Nat} (room : n ≤ 65536) : ¬Config.imageLimit < n := Nat.not_lt.2 room

theorem loadStep_beyond (beyond : 65536 < s.ld.cursor + 8) : loadStep s = .bad .imageUnterminated s.ld.cursor := by
  unfold loadStep
  exact if_pos beyond

theorem loadStep_headerShort (room : s.ld.cursor + 8 ≤ 65536) (short : s.ld.buf.length < 8) : loadStep s = .needMore := by
  unfold loadStep
  dsimp only
  rw [if_neg (not_beyond room), if_pos short]

section
variable (room : s.ld.cursor + 8 ≤ 65536) (come : 8 ≤ s.ld.buf.length)
include room come

theorem loadStep_header {code : FaultCode}
    (fault : headerFault s.ld.cursor s.ld.expected (leAt s.ld.buf 0 4) (leAt s.ld.buf 4 4) = some code) :
    loadStep s = .bad code s.ld.cursor := by
  unfold loadStep
  dsimp only
  rw [if_neg (not_beyond room), if_neg (by omega), fault]

theorem loadStep_tooLong (long : 65536 < s.ld.cursor + leAt s.ld.buf 4 4) :
    loadStep s = .bad .imageUnterminated s.ld.cursor :=
  loadStep_header room come (if_pos long)

theorem loadStep_unexpected (fits : s.ld.cursor + leAt s.ld.buf 4 4 ≤ 65536)
    (other : leAt s.ld.buf 0 4 ≠ s.ld.expected ∨ leAt s.ld.buf 4 4 ≠ sectionLength s.ld.expected) :
    loadStep s = .bad .badSection s.ld.cursor :=
  loadStep_header room come ((if_neg (not_beyond fits)).trans (if_pos other))

end

/-- The header at the loader's cursor is that of section `k`, which is expected there and is not END. -/
structure AtSection (k : Nat) (s : State) : Prop where
  proper : 1 ≤ k ∧ k ≤ 8
  expected : s.ld.expected = k
  come : 8 ≤ s.ld.buf.length
  ident : leAt s.ld.buf 0 4 = k
  length : leAt s.ld.buf 4 4 = sectionLength k
  fits : s.ld.cursor + sectionLength k ≤ 65536

/-- What has come of the section at the cursor, its header apart. -/
def sectionBody (k : Nat) (s : State) : List Byte := (s.ld.buf.drop 8).take (sectionLength k - 8)

theorem sectionBody_eq (k : Nat) (s : State) : (s.ld.buf.take (sectionLength k)).drop 8 = sectionBody k s := List.drop_take ..

theorem sectionLength_le (proper : 1 ≤ k ∧ k ≤ 8) : 8 ≤ sectionLength k := by
  obtain ⟨one, eight⟩ := proper
  interval_cases k <;> decide

section
variable (here : AtSection k s)
include here

theorem AtSection.room : s.ld.cursor + 8 ≤ 65536 :=
  (Nat.add_le_add_left (sectionLength_le here.proper) _).trans here.fits

theorem AtSection.header : headerFault s.ld.cursor k k (sectionLength k) = none := by
  rw [headerFault, if_neg (not_beyond here.fits), if_neg (by simp)]

/-- Past its header the loader looks at a section's records, then at its end. -/
theorem AtSection.loadStep_eq : loadStep s =
    if recordsOk k (sectionBody k s) = false then .badInSection (sectionLength k)
    else if s.ld.buf.length < sectionLength k then .needMore
    else (endFault s k (sectionBody k s)).elim (.store (sectionLength k)) (.bad · (s.ld.cursor + sectionLength k)) := by
  have notEnd : k ≠ 9 := by have := here.proper; omega
  unfold loadStep
  dsimp only
  rw [if_neg (not_beyond here.room), if_neg (Nat.not_lt.2 here.come), here.ident, here.length, here.expected, here.header,
    sectionBody_eq]
  dsimp only
  rw [if_neg notEnd]
  cases endFault s k (sectionBody k s) <;> rfl

theorem AtSection.loadStep_badRecord (bad : recordsOk k (sectionBody k s) = false) :
    loadStep s = .badInSection (sectionLength k) := by
  rw [here.loadStep_eq, if_pos bad]

section
variable (good : recordsOk k (sectionBody k s) = true)
include good

theorem AtSection.loadStep_needMore (short : s.ld.buf.length < sectionLength k) : loadStep s = .needMore := by
  rw [here.loadStep_eq, if_neg (by simp [good]), if_pos short]

theorem AtSection.loadStep_endFault (whole : sectionLength k ≤ s.ld.buf.length) {code : FaultCode}
    (fault : endFault s k (sectionBody k s) = some code) : loadStep s = .bad code (s.ld.cursor + sectionLength k) := by
  rw [here.loadStep_eq, if_neg (by simp [good]), if_neg (Nat.not_lt.2 whole), fault]; rfl

theorem AtSection.loadStep_store (whole : sectionLength k ≤ s.ld.buf.length)
    (sound : endFault s k (sectionBody k s) = none) : loadStep s = .store (sectionLength k) := by
  rw [here.loadStep_eq, if_neg (by simp [good]), if_neg (Nat.not_lt.2 whole), sound]; rfl

end
end

/-! ## What a section leaves alone -/

@[simp] theorem storeSection_pu (ident : Nat) (body : List Byte) (s : State) : (storeSection ident body s).pu = s.pu := by
  unfold storeSection
  split <;> rfl

/-- Of the loader only the region table can have changed. -/
theorem storeSection_ld (ident : Nat) (body : List Byte) (s : State) :
    (storeSection ident body s).ld = { s.ld with regions := (storeSection ident body s).ld.regions } := by
  unfold storeSection
  split <;> rfl

theorem AtSection.nextSection_eq (here : AtSection k s) : nextSection (sectionLength k) s =
    { storeSection k (sectionBody k s) s with ld := { s.ld with
      cursor := s.ld.cursor + sectionLength k, buf := s.ld.buf.drop (sectionLength k), expected := k + 1
      regions := (storeSection k (sectionBody k s) s).ld.regions } } := by
  unfold nextSection
  rw [here.expected, sectionBody_eq]
  apply State.ext_parts
  case ld => dsimp only; rw [storeSection_ld, here.expected]
  all_goals rfl

theorem AtSection.nextSection_pu (here : AtSection k s) : (nextSection (sectionLength k) s).pu = s.pu := by
  rw [here.nextSection_eq]
  exact storeSection_pu ..

/-! # The bytes of the image arrive (R177, R178) -/

theorem takeSections_needMore {n : Nat} (step : loadStep s = .needMore) : takeSections (n + 1) s = requestImage s := by
  rw [takeSections, step]

/-- A load of `s` ends from the state `t`, which differs in its buffer alone. -/
theorem loadEnds_configFault {c : Instr} {code : FaultCode} {offset : Nat} {t : State} (ld : t.ld = { s.ld with buf := t.ld.buf })
    (cu : u.cu = s.cu) (same : t = { u with ld := t.ld }) (answer : exec c s = .next (configFault code offset t)) :
    LoadEnds c code offset s u (configFault code offset t) where
  answer := answer
  state := rfl
  fault := by
    rw [← cu, same]
    simp only [configFault, writeStatus, requestOwn_cu, recordFault]
    rw [ld]
  status := by
    rw [same]
    simp only [configFault, writeStatus, requestOwn_pu]
    rw [ld]
    rfl
  rest := by
    rw [same]
    apply State.ext_parts
    case ld => simp only [configFault, writeStatus, requestOwn_ld, recordFault_ld]; rw [ld]
    all_goals rfl

section
variable {data : List Byte} {a : OwnAccess} (back : Returns Purpose.isImageRead 0 a s u)
include back

theorem Returns.ld : u.ld = s.ld := by rw [back.removed]

/-- Outside LOADING the bytes are discarded. -/
theorem configReadResponse_discards (other : s.ld.op ≠ .loading) : exec (.configReadResponse false data) s = .next u := by
  change execConfigReadResponse false data s = _
  simp only [execConfigReadResponse, back.takeFlight, other, if_false]
  rfl

variable (loading : s.ld.op = .loading)
include loading

theorem configReadResponse_error : exec (.configReadResponse true data) s =
    .next (configFault .memoryError (s.ld.cursor + s.ld.buf.length) u) := by
  change execConfigReadResponse true data s = _
  simp only [execConfigReadResponse, back.takeFlight, loading, if_true]

theorem configReadResponse_eq : exec (.configReadResponse false data) s = .next (takeSections 10 (imageHeld data u)) := by
  change execConfigReadResponse false data s = _
  simp only [execConfigReadResponse, back.takeFlight, loading, if_true, Bool.false_eq_true, if_false]
  rfl

theorem loadEnds_error : LoadEnds (.configReadResponse true data) .memoryError (s.ld.cursor + s.ld.buf.length) s u
    (configFault .memoryError (s.ld.cursor + s.ld.buf.length) u) :=
  loadEnds_configFault (by rw [back.ld]) back.cu rfl (configReadResponse_error back loading)

theorem loadEnds_bad {code : FaultCode} {offset : Nat} (step : loadStep (imageHeld data u) = .bad code offset) :
    LoadEnds (.configReadResponse false data) code offset s u (configFault code offset (imageHeld data u)) :=
  loadEnds_configFault (by simp [imageHeld, back.ld]) back.cu rfl
    (by rw [configReadResponse_eq back loading, takeSections, step])

theorem loadEnds_badInSection {length : Nat} (step : loadStep (imageHeld data u) = .badInSection length) :
    ∃ t offset, s.ld.cursor ≤ offset ∧ offset ≤ s.ld.cursor + length ∧
      LoadEnds (.configReadResponse false data) .badIndex offset s { u with draws := u.draws + 1 } t := by
  have within := Nat.mod_lt (Config.badIndexOffset u.draws) (Nat.zero_lt_succ length)
  rw [Nat.succ_eq_add_one] at within
  refine ⟨_, s.ld.cursor + Config.badIndexOffset u.draws % (length + 1), by omega, by omega,
    loadEnds_configFault (t := { imageHeld data u with draws := u.draws + 1 }) (by simp [imageHeld, back.ld]) back.cu rfl ?_⟩
  rw [configReadResponse_eq back loading, takeSections, step, ← back.ld]
  rfl

end

end Sys2Proof.Machine

namespace Sys2Proof.Machine

variable {s u : State} {body : List Byte} {m : Nat}

/-! # The checks at the end of a section (R107, R178, R185) -/

/-! ## REGIONS -/

/-- Each region's base is a multiple of its size. -/
def RegionsAligned (body : List Byte) : Prop :=
  (addrAt body 0).toNat % 32768 = 0 ∧ (addrAt body 8).toNat % 65536 = 0 ∧ (addrAt body 16).toNat % 2048 = 0 ∧
    (addrAt body 24).toNat % 64 = 0

theorem endFault_regions : endFault s 1 body = none ↔ RegionsAligned body := by
  simp [endFault, regionBases, regionSizes, List.range_succ, RegionsAligned]

theorem endFault_regions_misaligned (not_ : ¬RegionsAligned body) : endFault s 1 body = some .regionMisaligned := by
  rw [← endFault_regions (s := s), endFault] at not_
  rw [endFault]
  exact if_neg fun aligned => not_ (if_pos aligned)

theorem regionsAligned_take (room : 29 ≤ m) : RegionsAligned (body.take m) ↔ RegionsAligned body := by
  simp only [RegionsAligned, addrAt_take (show 0 + 5 ≤ m by omega), addrAt_take (show 8 + 5 ≤ m by omega),
    addrAt_take (show 16 + 5 ≤ m by omega), addrAt_take (show 24 + 5 ≤ m by omega)]

/-! ## RINGS -/

theorem isPowerOfTwo_iff {n : Nat} (small : n ≤ 4096) : isPowerOfTwo n = true ↔ ∃ m, n = 2 ^ m := by
  simp only [isPowerOfTwo, List.contains_iff_mem, List.mem_map, List.mem_range]
  constructor
  · rintro ⟨m, -, power⟩; exact ⟨m, power.symm⟩
  · rintro ⟨m, rfl⟩
    have : m ≤ 12 := (Nat.pow_le_pow_iff_right (by decide)).1 small
    exact ⟨m, by omega, rfl⟩

theorem RingEntry.sizeOk_iff {base : Addr} {size slot least most : Nat} (small : most ≤ 4096) :
    (RingEntry.mk base size slot least most).sizeOk = true ↔ least ≤ size ∧ size ≤ most ∧ ∃ m, size = 2 ^ m := by
  simp only [RingEntry.sizeOk, Bool.and_eq_true, decide_eq_true_eq, and_assoc]
  exact and_congr_right fun _ => and_congr_right fun le => isPowerOfTwo_iff (le.trans small)

/-- Base of the command ring (0), the event ring (1) or the Recording Log (2), as the section gives it. -/
def ringBase (body : List Byte) (i : Nat) : Addr := addrAt body (16 * i)

/-- Its size in slots. -/
def ringSize (body : List Byte) (i : Nat) : Nat := leAt body (16 * i + 8) 4

def RingsAligned (body : List Byte) : Prop :=
  (ringBase body 0).toNat % 32 = 0 ∧ (ringBase body 1).toNat % 16 = 0 ∧ (ringBase body 2).toNat % 64 = 0

def RingSized (body : List Byte) (i least most : Nat) : Prop :=
  least ≤ ringSize body i ∧ ringSize body i ≤ most ∧ ∃ m, ringSize body i = 2 ^ m

def RingsSized (body : List Byte) : Prop := RingSized body 0 16 1024 ∧ RingSized body 1 64 4096 ∧ RingSized body 2 16 1024

/-- The spans of the four regions and of the three rings. -/
def ringSpans (r : Regions) (body : List Byte) : List (Addr × Nat) :=
  [(r.inbound.getD 0, 32768), (r.outbound.getD 0, 65536), (r.signal.getD 0, 2048), (r.control.getD 0, 64),
    (ringBase body 0, ringSize body 0 * 32), (ringBase body 1, ringSize body 1 * 16), (ringBase body 2, ringSize body 2 * 64)]

/-- Two of the spans hold one address. -/
def SpansOverlap (spans : List (Addr × Nat)) : Prop :=
  ∃ (i j : Nat) (p q : Addr × Nat) (x : Addr), i < j ∧ spans[i]? = some p ∧ spans[j]? = some q ∧
    (x - p.1).toNat < p.2 ∧ (x - q.1).toNat < q.2

/-- Of two spans that share an address, one begins in the other (log 23). -/
theorem spansMeet_iff {a b : Addr × Nat} (ha : 0 < a.2) (hb : 0 < b.2) :
    spansMeet a b = true ↔ ∃ x : Addr, (x - a.1).toNat < a.2 ∧ (x - b.1).toNat < b.2 := by
  simp only [spansMeet, Bool.or_eq_true, decide_eq_true_eq]
  constructor
  · rintro (inside | inside)
    · exact ⟨b.1, inside, by simpa using hb⟩
    · exact ⟨a.1, by simpa using ha, inside⟩
  · rintro ⟨x, inA, inB⟩
    bv_omega

theorem spansOverlap_cons {a : Addr × Nat} {as : List (Addr × Nat)} : SpansOverlap (a :: as) ↔
    (∃ q ∈ as, ∃ x : Addr, (x - a.1).toNat < a.2 ∧ (x - q.1).toNat < q.2) ∨ SpansOverlap as := by
  constructor
  · rintro ⟨i, j, p, q, x, lt, hi, hj, inP, inQ⟩
    obtain ⟨j, rfl⟩ : ∃ j', j = j' + 1 := ⟨j - 1, by omega⟩
    cases i with
    | zero => cases hi; exact .inl ⟨q, List.mem_of_getElem? hj, x, inP, inQ⟩
    | succ i => exact .inr ⟨i, j, p, q, x, by omega, hi, hj, inP, inQ⟩
  · rintro (⟨q, mem, x, inA, inQ⟩ | ⟨i, j, p, q, x, lt, hi, hj, inP, inQ⟩)
    · obtain ⟨j, hj⟩ := List.mem_iff_getElem?.1 mem
      exact ⟨0, j + 1, a, q, x, by omega, rfl, hj, inA, inQ⟩
    · exact ⟨i + 1, j + 1, p, q, x, by omega, hi, hj, inP, inQ⟩

theorem anyMeet_iff {spans : List (Addr × Nat)} (pos : ∀ p ∈ spans, 0 < p.2) : anyMeet spans = true ↔ SpansOverlap spans := by
  induction spans with
  | nil => simp [anyMeet, SpansOverlap]
  | cons a as ih =>
    have rest : ∀ p ∈ as, 0 < p.2 := fun p mem => pos p (List.mem_cons_of_mem a mem)
    rw [anyMeet, Bool.or_eq_true, ih rest, spansOverlap_cons, List.any_eq_true]
    refine or_congr_left (exists_congr fun q => and_congr_right fun mem => ?_)
    exact spansMeet_iff (pos a List.mem_cons_self) (rest q mem)

theorem ringSpans_pos (r : Regions) (sized : RingsSized body) : ∀ p ∈ ringSpans r body, 0 < p.2 := by
  obtain ⟨⟨cmd, -⟩, ⟨ev, -⟩, log, -⟩ := sized
  simp only [ringSpans, List.forall_mem_cons, List.not_mem_nil, false_imp_iff, implies_true, and_true]
  omega

theorem ringEntries_eq : ringEntries body = [⟨ringBase body 0, ringSize body 0, 32, 16, 1024⟩,
    ⟨ringBase body 1, ringSize body 1, 16, 64, 4096⟩, ⟨ringBase body 2, ringSize body 2, 64, 16, 1024⟩] := rfl

theorem ringEntries_misaligned :
    ((ringEntries body).any fun r => r.base.toNat % r.slot != 0) = true ↔ ¬RingsAligned body := by
  simp only [ringEntries_eq, RingsAligned, List.any_cons, List.any_nil, Bool.or_false, Bool.or_eq_true, bne_iff_ne]
  tauto

theorem ringEntries_missized : ((ringEntries body).any fun r => !r.sizeOk) = true ↔ ¬RingsSized body := by
  simp only [ringEntries_eq, RingsSized, RingSized, List.any_cons, List.any_nil, Bool.or_false, Bool.or_eq_true,
    Bool.not_eq_true', ← Bool.not_eq_true]
  rw [RingEntry.sizeOk_iff (by decide), RingEntry.sizeOk_iff (by decide), RingEntry.sizeOk_iff (by decide)]
  tauto

theorem endFault_rings_misaligned (not_ : ¬RingsAligned body) : endFault s 2 body = some .regionMisaligned := by
  rw [endFault]
  exact if_pos (ringEntries_misaligned.2 not_)

theorem endFault_rings_missized (aligned : RingsAligned body) (not_ : ¬RingsSized body) :
    endFault s 2 body = some .ringSize := by
  rw [endFault, if_neg fun h => ringEntries_misaligned.1 h aligned, if_pos (ringEntries_missized.2 not_)]

/-- Once bases and sizes are right only an overlap is looked for. -/
theorem endFault_rings (aligned : RingsAligned body) (sized : RingsSized body) :
    (SpansOverlap (ringSpans s.ld.regions body) → endFault s 2 body = some .regionOverlap) ∧
      (¬SpansOverlap (ringSpans s.ld.regions body) → endFault s 2 body = none) := by
  rw [endFault, if_neg fun h => ringEntries_misaligned.1 h aligned, if_neg fun h => ringEntries_missized.1 h sized,
    ← anyMeet_iff (ringSpans_pos _ sized)]
  exact ⟨fun meet => if_pos meet, fun apart => if_neg apart⟩

theorem ringBase_take {i : Nat} (room : 16 * i + 5 ≤ m) : ringBase (body.take m) i = ringBase body i := addrAt_take room

theorem ringSize_take {i : Nat} (room : 16 * i + 12 ≤ m) : ringSize (body.take m) i = ringSize body i := leAt_take room

end Sys2Proof.Machine

namespace Sys2Proof.Machine

variable {s u : State} {data : List Byte} {a : OwnAccess} {k : Nat}

/-! # What the loader does with the bytes that have come (R177, R178) -/

/-- The bytes after the header of the section at the cursor. -/
def bytesCome (data : List Byte) (s : State) : List Byte := (s.ld.buf ++ data).drop 8

/-- Section `k` has come whole. -/
def WholeSection (data : List Byte) (s : State) (k : Nat) : Prop :=
  s.ld.expected = k ∧ leAt (s.ld.buf ++ data) 0 4 = k ∧ leAt (s.ld.buf ++ data) 4 4 = sectionLength s.ld.expected ∧
    s.ld.cursor + sectionLength s.ld.expected ≤ 65536 ∧ sectionLength s.ld.expected ≤ (s.ld.buf ++ data).length

/-- Section `k` has come in part, its header whole. -/
def PartSection (data : List Byte) (s : State) (k : Nat) : Prop :=
  s.ld.expected = k ∧ 8 ≤ (s.ld.buf ++ data).length ∧ leAt (s.ld.buf ++ data) 0 4 = k ∧
    leAt (s.ld.buf ++ data) 4 4 = sectionLength s.ld.expected ∧ s.ld.cursor + sectionLength s.ld.expected ≤ 65536 ∧
    (s.ld.buf ++ data).length < sectionLength s.ld.expected

/-- The load ends with a code just past the section. -/
def EndsAfter (data : List Byte) (s u : State) (code : FaultCode) : Prop :=
  ∃ t, LoadEnds (.configReadResponse false data) code (s.ld.cursor + sectionLength s.ld.expected) s u t

/-- The load ends with an index error in the section. -/
def EndsInside (data : List Byte) (s u : State) : Prop :=
  ∃ t offset, s.ld.cursor ≤ offset ∧ offset ≤ s.ld.cursor + sectionLength s.ld.expected ∧
    LoadEnds (.configReadResponse false data) .badIndex offset s { u with draws := u.draws + 1 } t

/-- The image is read at an address, behind the pass-through writes that wait in `s`. -/
def asksFrom (s : State) (address : Addr) (v : State) : State :=
  { v with pu := { v.pu with own := v.pu.own ++ [⟨.imageRead, address, [], s.pu.writesWaiting⟩] } }

/-- A read of the image that is asked for while as many pass-through writes wait as in `s` (R124). -/
theorem requestImage_asks (waiting : u.pu.writesWaiting = s.pu.writesWaiting) :
    requestImage u = asksFrom s (u.ld.image + BitVec.ofNat 36 (u.ld.cursor + u.ld.buf.length)) u := by
  rw [asksFrom, ← waiting]; rfl

/-- The bytes are kept and the next are asked for. -/
def AsksMore (data : List Byte) (s u : State) : Prop :=
  exec (.configReadResponse false data) s = .next (asksFrom s
    (s.ld.image + BitVec.ofNat 36 (s.ld.cursor + (s.ld.buf ++ data).length)) { u with ld := { s.ld with buf := s.ld.buf ++ data } })

/-- The section is stored, which gives `v`, and the loader goes on with the bytes that are left. -/
def GoesOn (data : List Byte) (s v : State) : Prop :=
  exec (.configReadResponse false data) s = .next (takeSections 9 v) ∧
  v.ld = { s.ld with cursor := s.ld.cursor + sectionLength s.ld.expected
                     buf := (s.ld.buf ++ data).drop (sectionLength s.ld.expected), expected := s.ld.expected + 1
                     regions := v.ld.regions } ∧
  ((s.ld.buf ++ data).length = sectionLength s.ld.expected → s.ld.cursor + sectionLength s.ld.expected + 8 ≤ 65536 →
    exec (.configReadResponse false data) s =
      .next (asksFrom s (s.ld.image + BitVec.ofNat 36 (s.ld.cursor + sectionLength s.ld.expected)) v))

section
variable (back : Returns Purpose.isImageRead 0 a s u)
include back

/-- The loader of the state in which the bytes have come. -/
theorem Returns.held_ld : (imageHeld data u).ld = { s.ld with buf := s.ld.buf ++ data } := by
  rw [imageHeld, back.ld]

theorem Returns.held_body : sectionBody k (imageHeld data u) = (bytesCome data s).take (sectionLength k - 8) := by
  rw [sectionBody, back.held_ld]; rfl

theorem Returns.writesWaiting : u.pu.writesWaiting = s.pu.writesWaiting := by rw [back.removed]; rfl

variable (proper : 1 ≤ k ∧ k ≤ 8)
include proper

theorem WholeSection.at (whole : WholeSection data s k) : AtSection k (imageHeld data u) := by
  obtain ⟨rfl, ident, length, fits, come⟩ := whole
  refine ⟨proper, ?_, ?_, ?_, ?_, ?_⟩ <;> rw [back.held_ld]
  · exact (sectionLength_le proper).trans come
  · exact ident
  · exact length
  · exact fits

theorem PartSection.at (part : PartSection data s k) : AtSection k (imageHeld data u) := by
  obtain ⟨rfl, come, ident, length, fits, -⟩ := part
  refine ⟨proper, ?_, ?_, ?_, ?_, ?_⟩ <;> rw [back.held_ld]
  · exact come
  · exact ident
  · exact length
  · exact fits

end

section
variable (back : Returns Purpose.isImageRead 0 a s u) (loading : s.ld.op = .loading)
include back loading

theorem asksMore_of_needMore (step : loadStep (imageHeld data u) = .needMore) : AsksMore data s u := by
  rw [AsksMore, configReadResponse_eq back loading, takeSections_needMore step,
    requestImage_asks (u := imageHeld data u) back.writesWaiting, back.held_ld, imageHeld, back.ld]

theorem loadEnds_atHeader {code : FaultCode} (step : loadStep (imageHeld data u) = .bad code (imageHeld data u).ld.cursor) :
    ∃ t, LoadEnds (.configReadResponse false data) code s.ld.cursor s u t := by
  rw [back.held_ld] at step
  exact ⟨_, loadEnds_bad back loading step⟩

theorem AtSection.endsInside (here : AtSection k (imageHeld data u)) (expected : s.ld.expected = k)
    (bad : recordsOk k (sectionBody k (imageHeld data u)) = false) : EndsInside data s u := by
  rw [EndsInside, expected]
  exact loadEnds_badInSection back loading (here.loadStep_badRecord bad)

variable (proper : 1 ≤ k ∧ k ≤ 8)
include proper

section
variable (part : PartSection data s k)
include part

theorem PartSection.endsInside (bad : recordsOk k ((bytesCome data s).take (sectionLength k - 8)) = false) :
    EndsInside data s u :=
  (part.at back proper).endsInside back loading part.1 (back.held_body ▸ bad)

theorem PartSection.asksMore (good : recordsOk k ((bytesCome data s).take (sectionLength k - 8)) = true) :
    AsksMore data s u := by
  refine asksMore_of_needMore back loading ((part.at back proper).loadStep_needMore (back.held_body ▸ good) ?_)
  obtain ⟨rfl, -, -, -, -, short⟩ := part
  rw [back.held_ld]
  exact short

end

section
variable (whole : WholeSection data s k)
include whole

theorem WholeSection.endsInside (bad : recordsOk k ((bytesCome data s).take (sectionLength k - 8)) = false) :
    EndsInside data s u :=
  (whole.at back proper).endsInside back loading whole.1 (back.held_body ▸ bad)

variable (good : recordsOk k ((bytesCome data s).take (sectionLength k - 8)) = true)
include good

theorem WholeSection.endsAfter {code : FaultCode}
    (fault : endFault (imageHeld data u) k ((bytesCome data s).take (sectionLength k - 8)) = some code) :
    EndsAfter data s u code := by
  have step := (whole.at back proper).loadStep_endFault (back.held_body ▸ good)
    (by obtain ⟨rfl, -, -, -, come⟩ := whole; rw [back.held_ld]; exact come) (back.held_body ▸ fault)
  rw [back.held_ld] at step
  obtain ⟨rfl, -⟩ := whole
  exact ⟨_, loadEnds_bad back loading step⟩

/-- A whole section that has passed its checks is stored (R177), and the loader goes on. -/
theorem WholeSection.goesOn
    (sound : endFault (imageHeld data u) k ((bytesCome data s).take (sectionLength k - 8)) = none) :
    GoesOn data s (nextSection (sectionLength k) (imageHeld data u)) := by
  have here := whole.at back proper
  have answer : exec (.configReadResponse false data) s =
      .next (takeSections 9 (nextSection (sectionLength k) (imageHeld data u))) := by
    rw [configReadResponse_eq back loading, takeSections, here.loadStep_store (back.held_body ▸ good)
      (by obtain ⟨rfl, -, -, -, come⟩ := whole; rw [back.held_ld]; exact come) (back.held_body ▸ sound)]
  have ld : (nextSection (sectionLength k) (imageHeld data u)).ld = { s.ld with
      cursor := s.ld.cursor + sectionLength k, buf := (s.ld.buf ++ data).drop (sectionLength k), expected := k + 1
      regions := (nextSection (sectionLength k) (imageHeld data u)).ld.regions } := by
    rw [here.nextSection_eq, back.held_ld]
  obtain ⟨rfl, -⟩ := whole
  refine ⟨answer, ld, fun all room => ?_⟩
  have empty : (s.ld.buf ++ data).drop (sectionLength s.ld.expected) = [] := List.drop_eq_nil_of_le all.le
  have waiting : (nextSection (sectionLength s.ld.expected) (imageHeld data u)).pu.writesWaiting = s.pu.writesWaiting := by
    rw [here.nextSection_pu]; exact back.writesWaiting
  rw [empty] at ld
  rw [answer, takeSections_needMore (loadStep_headerShort (by rw [ld]; exact room) (by rw [ld]; exact Nat.zero_lt_succ 7)),
    requestImage_asks waiting]
  generalize nextSection (sectionLength s.ld.expected) (imageHeld data u) = v at ld
  rw [ld]
  rfl

end
end

end Sys2Proof.Machine

namespace Sys2Proof.Machine

variable {s u : State} {data : List Byte} {a : OwnAccess} {body : List Byte} {k n count : Nat} {ok : List Byte → Bool}

/-! # The sections, read and stored (R177, R179, R185, R186) -/

/-! ## Records that are checked as they come (R178) -/

/-- The records of section `k`, `count` of `n` bytes each, are checked in the section. -/
structure CheckedRecords (k n count : Nat) (ok : List Byte → Bool) : Prop where
  proper : 1 ≤ k ∧ k ≤ 8
  pos : 0 < n
  room : n * count ≤ sectionLength k - 8
  checks : ∀ bs, recordsOk k bs = (wholeRecords n count bs).all ok

theorem linesChecked : CheckedRecords 3 8 96 lineRecordOk := ⟨by decide, by decide, by decide, fun _ => rfl⟩
theorem positionsChecked : CheckedRecords 4 108 8 positionRecordOk := ⟨by decide, by decide, by decide, fun _ => rfl⟩
theorem groupsChecked : CheckedRecords 5 12 16 groupRecordOk := ⟨by decide, by decide, by decide, fun _ => rfl⟩
theorem recordersChecked : CheckedRecords 7 32 32 channelRecordOk := ⟨by decide, by decide, by decide, fun _ => rfl⟩

theorem CheckedRecords.record_eq (checked : CheckedRecords k n count ok) (i : Fin count) :
    record n (body.take (sectionLength k - 8)) i.val = record n body i.val :=
  record_take ((record_end_le i n).trans checked.room)

/-- A section come in part ends the load exactly where a record that has come whole is not good. -/
def PartChecked (data : List Byte) (s u : State) (k n count : Nat) (good : Fin count → Prop) : Prop :=
  PartSection data s k →
    ((∃ i, 8 + n * (i.val + 1) ≤ (s.ld.buf ++ data).length ∧ ¬good i) → EndsInside data s u) ∧
    ((∀ i, 8 + n * (i.val + 1) ≤ (s.ld.buf ++ data).length → good i) → AsksMore data s u)

section
variable (checked : CheckedRecords k n count ok) {good : Fin count → Prop}
  (agree : ∀ i : Fin count, ok (record n (bytesCome data s) i.val) = true ↔ good i)
include checked agree

theorem CheckedRecords.recordsOk_iff : recordsOk k ((bytesCome data s).take (sectionLength k - 8)) = true ↔
    ∀ i, 8 + n * (i.val + 1) ≤ (s.ld.buf ++ data).length → good i := by
  rw [checked.checks, wholeRecords_all checked.pos checked.room]
  refine forall_congr' fun i => imp_congr ?_ (agree i)
  have : 0 < n * (i.val + 1) := Nat.mul_pos checked.pos i.val.succ_pos
  rw [bytesCome, List.length_drop]
  omega

theorem CheckedRecords.good_of_whole (all : ∀ i, good i) :
    recordsOk k ((bytesCome data s).take (sectionLength k - 8)) = true :=
  (checked.recordsOk_iff agree).2 fun i _ => all i

variable (back : Returns Purpose.isImageRead 0 a s u) (loading : s.ld.op = .loading)
include back loading

theorem CheckedRecords.part : PartChecked data s u k n count good := by
  refine fun part => ⟨fun ⟨i, come, bad⟩ => ?_, fun all => ?_⟩
  · refine part.endsInside back loading checked.proper (Bool.eq_false_iff.2 fun all => bad ?_)
    exact (checked.recordsOk_iff agree).1 all i come
  · exact part.asksMore back loading checked.proper ((checked.recordsOk_iff agree).2 all)

theorem CheckedRecords.endsInside (whole : WholeSection data s k) : (∃ i, ¬good i) → EndsInside data s u := by
  rintro ⟨i, bad⟩
  refine whole.endsInside back loading checked.proper (Bool.eq_false_iff.2 fun all => bad ?_)
  refine (checked.recordsOk_iff agree).1 all i ?_
  obtain ⟨rfl, -, -, -, come⟩ := whole
  have := sectionLength_le checked.proper
  have := (record_end_le i n).trans checked.room
  omega

end

/-! ## A record's fields, clamped (R179) -/

theorem recallFrames_eq (seconds : Half) :
    recallFrames seconds = if seconds.toNat = 0 then 0 else 1000 * min (max seconds.toNat 10) 600 := by
  simp only [recallFrames, ← BitVec.toNat_inj]
  rfl

theorem loadLine_of_read {l : LineId} {ty : LineType} {pref : Option PosId} {pol : Policy} {service : Bool} (r : LineRec)
    (read : LineRead body l ty pref pol service) : loadLine (record 8 body l.val) r =
      { r with
        type := ty, pad := min (byteAt body (8 * l.val + 1)).toNat 24, preferred := pref
        ringDelay := 100 * min (byteAt body (8 * l.val + 3)).toNat 100
        recallTime := if leAt body (8 * l.val + 4) 2 = 0 then 0 else 1000 * min (max (leAt body (8 * l.val + 4) 2) 10) 600
        policy := pol, state := if service then .idle else .outOfService } := by
  obtain ⟨type, preferred, policy, flag⟩ := read
  have seconds : recallFrames (BitVec.ofNat 16 (leAt body (8 * l.val + 4) 2)) =
      if leAt body (8 * l.val + 4) 2 = 0 then 0 else 1000 * min (max (leAt body (8 * l.val + 4) 2) 10) 600 := by
    rw [recallFrames_eq, BitVec.toNat_ofNat, Nat.mod_eq_of_lt (show _ < 2 ^ 16 from leAt_lt ..)]
  simp only [loadLine, byteAt_record (show 0 < 8 by decide), byteAt_record (show 1 < 8 by decide),
    byteAt_record (show 2 < 8 by decide), byteAt_record (show 3 < 8 by decide), byteAt_record (show 6 < 8 by decide),
    byteAt_record (show 7 < 8 by decide), leAt_record (show 4 + 2 ≤ 8 by decide), seconds, Nat.add_zero, type, preferred, policy,
    flag, typeArg_code, policyArg_code, optIdArg_idByte_pos, Option.getD_some]
  cases service <;> rfl

theorem loadGroup_of_read {g : GroupId} {hoots : List LineId} {pol : Policy} (r : GroupRec) (listed : HootsRead body g hoots)
    (policy : byteAt body (12 * g.val + 7) = pol.code) : loadGroup (record 12 body g.val) r =
      { r with
        members := byteAt body (12 * g.val), hootLines := hoots
        maxTalkers := min (max (byteAt body (12 * g.val + 4)).toNat 1) 3
        queueTimeout := 100 * (byteAt body (12 * g.val + 5)).toNat, talkLimit := 1000 * (byteAt body (12 * g.val + 6)).toNat
        policy := pol, hangTime := 1000 * min (byteAt body (12 * g.val + 8)).toNat 60 } := by
  have lines : hootArg (groupArgs body (12 * g.val)) = some hoots := groupArgs_record ▸ hootArg_record.2 listed
  simp only [loadGroup, groupArgs_record, lines]
  simp only [groupArgs, policy, policyArg_code, Option.getD_some]
  rfl

theorem loadSpeaker_of_read {p : PosId} {j : SpkId} {x : Option Subject} (read : ChannelRead body p j x) :
    loadSpeaker (record 108 body p.val) j.val =
      ⟨x, if (byteAt body (108 * p.val + (62 + 4 * j.val))).getLsbD 0 then .right else .left,
        min (byteAt body (108 * p.val + (63 + 4 * j.val))).toNat 72,
        (byteAt body (108 * p.val + (62 + 4 * j.val))).getLsbD 1⟩ := by
  unfold loadSpeaker
  rw [recordSubject_eq_some.2 read, byteAt_record (by omega), byteAt_record (by omega)]
  rfl

theorem loadSettings_of_read {p : PosId} {mark : Bool} (read : byteAt body (108 * p.val + 52) = flagCode mark) :
    loadSettings (record 108 body p.val) =
      ⟨min (byteAt body (108 * p.val + 48)).toNat 24, min (byteAt body (108 * p.val + 49)).toNat 24,
        min (byteAt body (108 * p.val + 50)).toNat 72, min (byteAt body (108 * p.val + 51)).toNat 72, mark⟩ := by
  simp only [loadSettings, byteAt_record (show 48 < 108 by decide), byteAt_record (show 49 < 108 by decide),
    byteAt_record (show 50 < 108 by decide), byteAt_record (show 51 < 108 by decide), byteAt_record (show 52 < 108 by decide),
    read]
  cases mark <;> rfl

/-- The place of a handset's volume in its position's record; its pad follows. -/
def handsetOffset : Side → Nat
  | .left => 53
  | .right => 55

theorem loadHandset_read (h : Handset) (r : HandsetRec) :
    loadHandset (record 108 body (h.idx.val / 2)) (placeSide h.idx) r =
      ⟨r.binding, min (byteAt body (108 * h.pos.val + handsetOffset h.side)).toNat 72,
        min (byteAt body (108 * h.pos.val + (handsetOffset h.side + 1))).toNat 24⟩ := by
  obtain ⟨p, side⟩ := h
  unfold loadHandset
  cases side with
  | left =>
    have pos : (Handset.idx ⟨p, .left⟩).val / 2 = p.val := by simp only [Handset.idx]; omega
    have left : placeSide (Handset.idx ⟨p, .left⟩) = 0 := by simp only [placeSide, Handset.idx]; omega
    rw [pos, left, byteAt_record (by decide), byteAt_record (by decide)]
    rfl
  | right =>
    have pos : (Handset.idx ⟨p, .right⟩).val / 2 = p.val := by simp only [Handset.idx]; omega
    have right : placeSide (Handset.idx ⟨p, .right⟩) = 1 := by simp only [placeSide, Handset.idx]; omega
    rw [pos, right, byteAt_record (by decide), byteAt_record (by decide)]
    rfl

theorem loadChannel_read (k : ChanId) (c : Channel) : loadChannel (record 32 body k.val) c =
    { c with
      bufA := ⟨placeRead body k 0, placeRead body k 1, .part, placeRead body k 0, none, none⟩
      bufB := ⟨placeRead body k 2, placeRead body k 3, .part, placeRead body k 2, none, none⟩, current := .bufA } := by
  have a0 := addrAt_channel (body := body) (k := k) (i := 0) (by decide)
  have a1 := addrAt_channel (body := body) (k := k) (i := 1) (by decide)
  have a2 := addrAt_channel (body := body) (k := k) (i := 2) (by decide)
  have a3 := addrAt_channel (body := body) (k := k) (i := 3) (by decide)
  rw [loadChannel, a0, a1, a2, a3]
  rfl

end Sys2Proof.Machine

namespace Sys2Proof.Machine

variable {s u : State} {data : List Byte} {a : OwnAccess} {k : Nat}

section
variable (back : Returns Purpose.isImageRead 0 a s u) (loading : s.ld.op = .loading)
include back

theorem Returns.lc : u.lc = s.lc := by rw [back.removed]
theorem Returns.fc : u.fc = s.fc := by rw [back.removed]
theorem Returns.mp : u.mp = s.mp := by rw [back.removed]
theorem Returns.me : u.me = s.me := by rw [back.removed]
theorem Returns.ft : u.ft = s.ft := by rw [back.removed]
theorem Returns.ru : u.ru = s.ru := by rw [back.removed]
theorem Returns.line (l : LineId) : u.line l = s.line l := by rw [State.line, back.lc]; rfl

/-- The state in which a whole section has been stored and the loader stands behind it. -/
theorem WholeSection.stored (whole : WholeSection data s k) (proper : 1 ≤ k ∧ k ≤ 8) :
    ∃ x, nextSection (sectionLength k) (imageHeld data u) =
      { storeSection k ((bytesCome data s).take (sectionLength k - 8)) (imageHeld data u) with ld := x } ∧
      x.regions = (storeSection k ((bytesCome data s).take (sectionLength k - 8)) (imageHeld data u)).ld.regions := by
  rw [(whole.at back proper).nextSection_eq, back.held_body]
  exact ⟨_, rfl, rfl⟩

/-- Every section but REGIONS leaves the region table alone. -/
theorem Returns.regions_kept (other : k ≠ 1) (body : List Byte) :
    (storeSection k body (imageHeld data u)).ld.regions = s.ld.regions := by
  rw [← back.ld]
  unfold storeSection
  split
  case h_1 => exact absurd rfl other
  all_goals rfl

include loading

/-- Sections without records that are checked as they come wait until they are whole. -/
theorem asksMore_of_part : PartSection data s 1 ∨ PartSection data s 2 ∨ PartSection data s 6 ∨ PartSection data s 8 →
    AsksMore data s u := by
  rintro (part | part | part | part) <;> exact part.asksMore back loading (by decide) rfl

/-- REGIONS (R107). -/
theorem regionsSection (whole : WholeSection data s 1) :
    (¬RegionsAligned (bytesCome data s) → EndsAfter data s u .regionMisaligned) ∧
    (RegionsAligned (bytesCome data s) → ∃ v, GoesOn data s v ∧ v = { u with ld := v.ld } ∧
      v.ld.regions = ⟨some (addrAt (bytesCome data s) 0), some (addrAt (bytesCome data s) 8),
        some (addrAt (bytesCome data s) 16), some (addrAt (bytesCome data s) 24)⟩) := by
  have same : RegionsAligned ((bytesCome data s).take 32) ↔ RegionsAligned (bytesCome data s) := regionsAligned_take (by decide)
  rw [← same]
  refine ⟨fun not_ => whole.endsAfter back loading (by decide) rfl (endFault_regions_misaligned not_), fun aligned => ?_⟩
  obtain ⟨x, stored, regions⟩ := whole.stored back (by decide)
  refine ⟨_, whole.goesOn back loading (by decide) rfl (endFault_regions.2 aligned), ?_⟩
  rw [stored]
  refine ⟨rfl, regions.trans ?_⟩
  simp only [storeSection, loadRegions, sectionLength, addrAt_take (show 0 + 5 ≤ 40 - 8 by decide),
    addrAt_take (show 8 + 5 ≤ 40 - 8 by decide), addrAt_take (show 16 + 5 ≤ 40 - 8 by decide),
    addrAt_take (show 24 + 5 ≤ 40 - 8 by decide)]

/-- RINGS. -/
theorem ringsSection (whole : WholeSection data s 2) :
    (¬RingsAligned (bytesCome data s) → EndsAfter data s u .regionMisaligned) ∧
    (RingsAligned (bytesCome data s) → ¬RingsSized (bytesCome data s) → EndsAfter data s u .ringSize) ∧
    (RingsAligned (bytesCome data s) → RingsSized (bytesCome data s) →
      SpansOverlap (ringSpans s.ld.regions (bytesCome data s)) → EndsAfter data s u .regionOverlap) ∧
    (RingsAligned (bytesCome data s) → RingsSized (bytesCome data s) →
      ¬SpansOverlap (ringSpans s.ld.regions (bytesCome data s)) → ∃ v, GoesOn data s v ∧ v.ld.regions = s.ld.regions ∧
      v = { u with
        ld := v.ld, ru := { s.ru with logBase := ringBase (bytesCome data s) 2, logSize := ringSize (bytesCome data s) 2 }
        cu := { s.cu with cmdBase := ringBase (bytesCome data s) 0, cmdSize := ringSize (bytesCome data s) 0
                          evBase := ringBase (bytesCome data s) 1, evSize := ringSize (bytesCome data s) 1 } }) := by
  have base (i : Nat) (hi : i ≤ 2) : ringBase ((bytesCome data s).take 48) i = ringBase (bytesCome data s) i :=
    ringBase_take (by omega)
  have size (i : Nat) (hi : i ≤ 2) : ringSize ((bytesCome data s).take 48) i = ringSize (bytesCome data s) i :=
    ringSize_take (by omega)
  have aligned_iff : RingsAligned ((bytesCome data s).take 48) ↔ RingsAligned (bytesCome data s) := by
    simp only [RingsAligned, base 0 (by decide), base 1 (by decide), base 2 (by decide)]
  have sized_iff : RingsSized ((bytesCome data s).take 48) ↔ RingsSized (bytesCome data s) := by
    simp only [RingsSized, RingSized, size 0 (by decide), size 1 (by decide), size 2 (by decide)]
  have spans : ringSpans (imageHeld data u).ld.regions ((bytesCome data s).take 48) =
      ringSpans s.ld.regions (bytesCome data s) := by
    simp only [ringSpans, base 0 (by decide), base 1 (by decide), base 2 (by decide), size 0 (by decide), size 1 (by decide),
      size 2 (by decide), back.held_ld]
  rw [← aligned_iff, ← sized_iff, ← spans]
  refine ⟨fun not_ => whole.endsAfter back loading (by decide) rfl (endFault_rings_misaligned not_),
    fun aligned not_ => whole.endsAfter back loading (by decide) rfl (endFault_rings_missized aligned not_),
    fun aligned sized meet => whole.endsAfter back loading (by decide) rfl ((endFault_rings aligned sized).1 meet),
    fun aligned sized apart => ?_⟩
  obtain ⟨x, stored, regions⟩ := whole.stored back (by decide)
  refine ⟨_, whole.goesOn back loading (by decide) rfl ((endFault_rings aligned sized).2 apart), ?_⟩
  rw [stored, ← base 0 (by decide), ← base 1 (by decide), ← base 2 (by decide), ← size 0 (by decide), ← size 1 (by decide),
    ← size 2 (by decide), ← back.ru, ← back.cu, ← back.ld]
  exact ⟨regions, rfl⟩

/-- LINES (R1). -/
theorem linesSection (whole : WholeSection data s 3)
    (good : ∀ l, ∃ ty pref pol service, LineRead (bytesCome data s) l ty pref pol service) :
    ∃ v, GoesOn data s v ∧ v.ld.regions = s.ld.regions ∧
      (∀ l, v.line l = loadLine (record 8 (bytesCome data s) l.val) (s.line l)) ∧
      v = { u with ld := v.ld, lc := { s.lc with lines := v.lc.lines } } := by
  obtain ⟨x, stored, regions⟩ := whole.stored back (by decide)
  refine ⟨_, whole.goesOn back loading (by decide) (linesChecked.good_of_whole (fun _ => lineRecordOk_iff) good) rfl, ?_⟩
  rw [stored]
  refine ⟨regions.trans (back.regions_kept (by decide) _), fun l => ?_, ?_⟩
  · simp only [storeSection, loadLines, State.line, Table.get_build, linesChecked.record_eq, imageHeld, back.lc]
  · rw [← back.lc]; rfl

/-- POSITIONS (R10, R89). -/
theorem positionsSection (whole : WholeSection data s 4) (good : ∀ p, PositionRead (bytesCome data s) p) :
    ∃ v, GoesOn data s v ∧ v.ld.regions = s.ld.regions ∧
      (∀ p k x, KeyRead (bytesCome data s) p k x → (v.map p).get k = x) ∧
      (∀ p, v.settings p = loadSettings (record 108 (bytesCome data s) p.val)) ∧
      (∀ h : Handset, v.handset h = loadHandset (record 108 (bytesCome data s) (h.idx.val / 2)) (placeSide h.idx) (s.handset h)) ∧
      (∀ p (j : SpkId), (v.speakers p).get j = loadSpeaker (record 108 (bytesCome data s) p.val) j.val) ∧
      v = { u with ld := v.ld, lc := { v.lc with lines := s.lc.lines }, mp := { v.mp with holdLevel := s.mp.holdLevel } } := by
  obtain ⟨x, stored, regions⟩ := whole.stored back (by decide)
  refine ⟨_, whole.goesOn back loading (by decide) (positionsChecked.good_of_whole (fun _ => positionRecordOk_iff) good) rfl, ?_⟩
  rw [stored]
  refine ⟨regions.trans (back.regions_kept (by decide) _), fun p k x key => ?_, fun p => ?_, fun h => ?_, fun p j => ?_, ?_⟩
  · simp only [storeSection, loadPositions, State.map, Table.get_build, positionsChecked.record_eq, recordKey_eq_some.2 key,
      Option.getD_some]
  · simp only [storeSection, loadPositions, State.settings, Table.get_build, positionsChecked.record_eq]
  · have := positionsChecked.record_eq (body := bytesCome data s) ⟨h.idx.val / 2, by omega⟩
    simp only [storeSection, loadPositions, State.handset, Table.get_build, this, imageHeld, back.lc]
  · simp only [storeSection, loadPositions, State.speakers, Table.get_build, positionsChecked.record_eq]
  · rw [← back.lc, ← back.mp]; rfl

/-- Each hoot line is listed once, and is of type HOOT and in service (R47). -/
def HootsSound (s : State) (hoots : GroupId → List LineId) : Prop :=
  ((List.finRange 16).flatMap hoots).Nodup ∧
    ∀ g, ∀ l ∈ hoots g, (s.line l).type = .hoot ∧ (s.line l).state ≠ .outOfService

/-- Group `g`'s record has no index error. -/
def GroupRead (body : List Byte) (g : GroupId) : Prop :=
  (∃ hoots, HootsRead body g hoots) ∧ ∃ pol : Policy, byteAt body (12 * g.val + 7) = pol.code

/-- GROUPS (R45, R47). -/
theorem groupsSection (whole : WholeSection data s 5) (hoots : GroupId → List LineId)
    (good : ∀ g, GroupRead (bytesCome data s) g) (listed : ∀ g, HootsRead (bytesCome data s) g (hoots g)) :
    (¬HootsSound s hoots → EndsAfter data s u .badIndex) ∧
    (HootsSound s hoots → ∃ v, GoesOn data s v ∧ v.ld.regions = s.ld.regions ∧
      (∀ g, v.group g = loadGroup (record 12 (bytesCome data s) g.val) (s.group g)) ∧ v = { u with ld := v.ld, fc := v.fc }) := by
  have loaded : hootsLoaded ((bytesCome data s).take (sectionLength 5 - 8)) = hoots := by
    funext g
    rw [← hootsLoaded_eq (listed g), hootsLoaded, groupsChecked.record_eq]
    rfl
  have sound_iff : groupsOk (imageHeld data u) ((bytesCome data s).take (sectionLength 5 - 8)) = true ↔ HootsSound s hoots := by
    rw [groupsOk_iff, loaded]
    change _ ∧ (∀ g, ∀ l ∈ hoots g, (u.line l).type = .hoot ∧ (u.line l).state ≠ .outOfService) ↔ _
    simp only [back.line]
    rfl
  have records := groupsChecked.good_of_whole (fun _ => groupRecordOk_iff) good
  refine ⟨fun not_ => whole.endsAfter back loading (by decide) records (if_neg fun ok => not_ (sound_iff.1 ok)), fun sound => ?_⟩
  obtain ⟨x, stored, regions⟩ := whole.stored back (by decide)
  refine ⟨_, whole.goesOn back loading (by decide) records (if_pos (sound_iff.2 sound)), ?_⟩
  rw [stored]
  refine ⟨regions.trans (back.regions_kept (by decide) _), fun g => ?_, rfl⟩
  simp only [storeSection, loadGroups, State.group, Table.get_build, groupsChecked.record_eq, imageHeld, back.fc]

/-- TONES (R101). -/
theorem tonesSection (whole : WholeSection data s 6) : ∃ v, GoesOn data s v ∧ v.ld.regions = s.ld.regions ∧
    (∀ x, v.me.tones.get x = loadTone (record 68 (bytesCome data s) x.val)) ∧
    v = { u with ld := v.ld, me := { s.me with tones := v.me.tones }
                 mp := { s.mp with holdLevel := clampLevel (byteAt (bytesCome data s) 204) } } := by
  obtain ⟨x, stored, regions⟩ := whole.stored back (by decide)
  refine ⟨_, whole.goesOn back loading (by decide) rfl rfl, ?_⟩
  rw [stored]
  refine ⟨regions.trans (back.regions_kept (by decide) _), fun x => ?_, ?_⟩
  · rw [← record_take ((record_end_le x 68).trans (show 68 * 3 ≤ sectionLength 6 - 8 by decide))]
    simp only [storeSection, loadTones, Table.get_build]
  · rw [← back.me, ← back.mp, ← byteAt_take (show 204 < sectionLength 6 - 8 by decide)]; rfl

/-- RECORDERS (R162). -/
theorem recordersSection (whole : WholeSection data s 7)
    (good : ∀ k, channelRecordOk (record 32 (bytesCome data s) (k : ChanId).val) = true) :
    ∃ v, GoesOn data s v ∧ v.ld.regions = s.ld.regions ∧
      (∀ k, v.chan k = loadChannel (record 32 (bytesCome data s) k.val) (s.chan k)) ∧
      v = { u with ld := v.ld, ru := { s.ru with
        channels := v.ru.channels, segLen := segmentFrames (leAt (bytesCome data s) 1024 4) } } := by
  obtain ⟨x, stored, regions⟩ := whole.stored back (by decide)
  refine ⟨_, whole.goesOn back loading (by decide) (recordersChecked.good_of_whole (fun _ => Iff.rfl) good) rfl, ?_⟩
  rw [stored]
  refine ⟨regions.trans (back.regions_kept (by decide) _), fun k => ?_, ?_⟩
  · simp only [storeSection, loadRecorders, State.chan, Table.get_build, recordersChecked.record_eq, imageHeld, back.ru]
  · rw [← back.ru, ← leAt_take (show 1024 + 4 ≤ sectionLength 7 - 8 by decide)]; rfl

/-- TIMING. -/
theorem timingSection (whole : WholeSection data s 8) : ∃ v, GoesOn data s v ∧ v.ld.regions = s.ld.regions ∧
    v = { u with ld := v.ld, ft := { s.ft with clkPerMs := clampClk (leAt (bytesCome data s) 0 4) } } := by
  obtain ⟨x, stored, regions⟩ := whole.stored back (by decide)
  refine ⟨_, whole.goesOn back loading (by decide) rfl rfl, ?_⟩
  rw [stored]
  refine ⟨regions.trans (back.regions_kept (by decide) _), ?_⟩
  rw [← back.ft, ← leAt_take (show 0 + 4 ≤ sectionLength 8 - 8 by decide)]; rfl

end

end Sys2Proof.Machine

namespace Sys2Proof.Machine

/-- Settles O56: what the loader does with the section at its cursor (`AtSection.loadStep_eq`) is followed for each section;
a record is good where its fields are codes of values, and is then stored with these values. -/
theorem imageBytesAreRead : Obligations.ImageBytesAreRead := by
  intro data a s u
  dsimp only
  intro back
  refine ⟨configReadResponse_discards back, fun loading => ⟨⟨_, loadEnds_error back loading⟩, fun beyond => ?_,
    fun room short => ?_, asksMore_of_part back loading, fun room come long => ?_, fun room come fits other => ?_,
    regionsSection back loading, ringsSection back loading, ⟨?_, ?_, ?_⟩, ⟨?_, ?_, ?_⟩, ⟨?_, ?_, ?_⟩, fun whole => ?_,
    ⟨?_, ?_, ?_⟩, fun whole => ?_⟩⟩
  · exact loadEnds_atHeader back loading (loadStep_beyond (by rw [back.held_ld]; exact beyond))
  · exact asksMore_of_needMore back loading
      (loadStep_headerShort (by rw [back.held_ld]; exact room) (by rw [back.held_ld]; exact short))
  · exact loadEnds_atHeader back loading (loadStep_tooLong (by rw [back.held_ld]; exact room)
      (by rw [back.held_ld]; exact come) (by rw [back.held_ld]; exact long))
  · exact loadEnds_atHeader back loading (loadStep_unexpected (by rw [back.held_ld]; exact room)
      (by rw [back.held_ld]; exact come) (by rw [back.held_ld]; exact fits) (by rw [back.held_ld]; exact other))
  -- LINES
  · exact linesChecked.part (fun _ => lineRecordOk_iff) back loading
  · rintro whole ⟨l, bad⟩
    exact linesChecked.endsInside (fun _ => lineRecordOk_iff) back loading whole
      ⟨l, fun ⟨ty, pref, pol, service, read⟩ => bad ty pref pol service read⟩
  · intro whole good
    obtain ⟨v, goesOn, regions, lines, frame⟩ := linesSection back loading whole good
    exact ⟨v, goesOn, regions, fun l ty pref pol service read => (lines l).trans (loadLine_of_read _ read), frame⟩
  -- POSITIONS
  · exact positionsChecked.part (fun _ => positionRecordOk_iff) back loading
  · exact positionsChecked.endsInside (fun _ => positionRecordOk_iff) back loading
  · intro whole good
    obtain ⟨v, goesOn, regions, keys, settings, handsets, speakers, frame⟩ := positionsSection back loading whole good
    refine ⟨v, goesOn, regions, keys, fun p mark read => (settings p).trans (loadSettings_of_read read),
      fun h => (handsets h).trans ?_, fun p j x read => (speakers p j).trans (loadSpeaker_of_read read), frame⟩
    rw [loadHandset_read]
    cases h.side <;> rfl
  -- GROUPS
  · exact groupsChecked.part (fun _ => groupRecordOk_iff) back loading
  · exact groupsChecked.endsInside (fun _ => groupRecordOk_iff) back loading
  · intro whole hoots good listed
    obtain ⟨unsound, sound⟩ := groupsSection back loading whole hoots good listed
    refine ⟨unsound, fun ok => ?_⟩
    obtain ⟨v, goesOn, regions, groups, frame⟩ := sound ok
    exact ⟨v, goesOn, regions, fun g pol read => (groups g).trans (loadGroup_of_read _ (listed g) read), frame⟩
  -- TONES
  · obtain ⟨v, goesOn, regions, tones, frame⟩ := tonesSection back loading whole
    refine ⟨v, goesOn, regions, fun x => ?_, frame⟩
    rw [tones, loadTone, leAt_record (by decide), leAt_record (by decide)]
    exact ⟨rfl, rfl, fun k => by rw [Table.get_build, leAt_record (by omega)]; rfl⟩
  -- RECORDERS
  · exact recordersChecked.part (fun _ => channelRecordOk_iff) back loading
  · exact recordersChecked.endsInside (fun _ => channelRecordOk_iff) back loading
  · intro whole good
    obtain ⟨v, goesOn, regions, channels, frame⟩ := recordersSection back loading whole fun k => channelRecordOk_iff.2 (good k)
    exact ⟨v, goesOn, regions, fun k => (channels k).trans (loadChannel_read k _), frame⟩
  -- TIMING
  · exact timingSection back loading whole

end Sys2Proof.Machine

namespace Sys2Proof.Machine

variable {s : State} {p : PosId} {k : SpkId} {kind number flags volume : Byte}

/-! # SPEAKER_SET (R72, R73) -/

/-- What the two bytes of a subject must be to name it (R186). -/
def NamesSubject (kind number : Byte) (subject : Option Subject) : Prop :=
  (kind = 0 ∧ subject = none) ∨ (∃ l : LineId, kind = 1 ∧ number = finByte l ∧ subject = some (.line l)) ∨
    (∃ g : GroupId, kind = 2 ∧ number = finByte g ∧ subject = some (.group g))

theorem subjectArg_of_names {subject : Option Subject} (names : NamesSubject kind number subject) :
    subjectArg kind number = some subject := by
  rcases names with ⟨rfl, rfl⟩ | ⟨l, rfl, rfl, rfl⟩ | ⟨g, rfl, rfl, rfl⟩
  · rfl
  · simp [subjectArg]
  · simp [subjectArg]

theorem subjectElsewhere_iff {x : Subject} :
    subjectElsewhere p k x s = true ↔ ∃ j, j ≠ k ∧ ((s.speakers p).get j).subject = some x := by
  simp [subjectElsewhere]

/-- Conditions 2 and 3 of R72: a line appears on the position's map, a group has the position as a member. -/
def MayHear (p : PosId) (s : State) : Subject → Prop
  | .line l => s.appears p l = true
  | .group g => inSet (s.group g).members p = true

theorem speakerSet_notAppearing {l : LineId} (read : subjectArg kind number = some (some (.line l)))
    (absent : s.appears p l = false) :
    speakerSet (finByte p) (finByte k) kind number flags volume s = (s, .notAppearing) := by
  simp [speakerSet, read, absent]

theorem speakerSet_notMember {g : GroupId} (read : subjectArg kind number = some (some (.group g)))
    (outside : inSet (s.group g).members p = false) :
    speakerSet (finByte p) (finByte k) kind number flags volume s = (s, .notMember) := by
  simp [speakerSet, read, outside]

theorem speakerSet_duplicate {x : Subject} (read : subjectArg kind number = some (some x)) (may : MayHear p s x)
    (taken : subjectElsewhere p k x s = true) :
    speakerSet (finByte p) (finByte k) kind number flags volume s = (s, .duplicate) := by
  cases x <;> simp_all [speakerSet, MayHear]

theorem speakerSet_clears (read : subjectArg kind number = some none) :
    speakerSet (finByte p) (finByte k) kind number flags volume s = (setSpeaker p k (spkChan none flags volume) s, .ok) := by
  simp [speakerSet, read]

theorem speakerSet_stores {x : Subject} (read : subjectArg kind number = some (some x)) (may : MayHear p s x)
    (new : subjectElsewhere p k x s = false) :
    speakerSet (finByte p) (finByte k) kind number flags volume s =
      (setSpeaker p k (spkChan (some x) flags volume) s, .ok) := by
  cases x <;> simp_all [speakerSet, MayHear]

theorem setSpeaker_speakers (x : SpkChan) (q : PosId) (j : SpkId) :
    ((setSpeaker p k x s).speakers q).get j = if q = p ∧ j = k then x else (s.speakers q).get j := by
  by_cases hp : p = q
  · subst hp
    simp [setSpeaker, State.speakers, Table.get_set, eq_comm (a := k)]
  · simp [setSpeaker, State.speakers, hp, Ne.symm hp]

/-- Settles O30: the subject is read back from its bytes, and SPEAKER_SET goes through R72's conditions in order. -/
theorem speakerSetStoresChannel : Obligations.SpeakerSetStoresChannel := by
  intro p k kind number flags volume subject s
  dsimp only
  intro holds names
  have read := subjectArg_of_names names
  have mayHear (lines : ∀ l, subject = some (.line l) → s.appears p l = true)
      (groups : ∀ g, subject = some (.group g) → inSet (s.group g).members p = true) (x : Subject) (is : subject = some x) :
      MayHear p s x := by
    cases x with
    | line l => exact lines l is
    | group g => exact groups g is
  refine ⟨fun l isLine absent => ?_, fun g isGroup outside => ?_, fun lines groups => ⟨?_, fun new => ?_⟩⟩
  · exact onlyAnswers_of_eq s (runCommand_next holds (speakerSet_notAppearing (isLine ▸ read) absent))
  · exact onlyAnswers_of_eq s (runCommand_next holds (speakerSet_notMember (isGroup ▸ read) outside))
  · rintro ⟨j, other, some_, same⟩
    obtain ⟨x, rfl⟩ := Option.ne_none_iff_exists'.1 some_
    exact onlyAnswers_of_eq s (runCommand_next holds
      (speakerSet_duplicate read (mayHear lines groups x rfl) (subjectElsewhere_iff.2 ⟨j, other, same⟩)))
  · have act : speakerSet (finByte p) (finByte k) kind number flags volume s =
        (setSpeaker p k (spkChan subject flags volume) s, .ok) := by
      cases subject with
      | none => exact speakerSet_clears read
      | some x =>
        refine speakerSet_stores read (mayHear lines groups x rfl) ?_
        rw [← Bool.not_eq_true, subjectElsewhere_iff]
        rintro ⟨j, other, same⟩
        exact new ⟨j, other, by simp, same⟩
    have posts : Posts [] s (setSpeaker p k (spkChan subject flags volume) s) := .of_eq rfl rfl fun _ => rfl
    refine ⟨_, runCommand_next holds act, posts.answers .ok, fun q j => ?_, ?_⟩
    · rw [complete_speakers, setSpeaker_speakers]; rfl
    · apply State.ext_parts <;> rfl

end Sys2Proof.Machine

namespace Sys2Proof.Machine

variable (s : State)

/-! # The plan of a frame event (R74 to R84) -/

/-! ## Sources and listeners by number (00_scope.md section 4) -/

theorem lineSource_injective : Function.Injective lineSource := fun l m e => by
  simpa [lineSource, Fin.ext_iff] using e

theorem speakerSource_injective : Function.Injective speakerSource := fun p q e => by
  simp [speakerSource, Fin.ext_iff] at e ⊢; omega

theorem Handset.source_injective : Function.Injective Handset.source := by
  rintro ⟨p, a⟩ ⟨q, b⟩ e
  cases a <;> cases b <;> simp [Handset.source, Fin.ext_iff] at e ⊢ <;> omega

theorem Handset.source_ne_lineSource (h : Handset) (l : LineId) : h.source ≠ lineSource l := by
  obtain ⟨p, side⟩ := h
  cases side <;> simp [Handset.source, lineSource, Fin.ext_iff] <;> omega

theorem speakerSource_ne_lineSource (p : PosId) (l : LineId) : speakerSource p ≠ lineSource l := by
  simp [speakerSource, lineSource, Fin.ext_iff]; omega

/-- The place of a side in a position's pairs of listeners. -/
def Side.offset : Side → Nat
  | .left => 0
  | .right => 1

theorem listenerTerms_line (l : LineId) {j : ListenerId} (is : j.val = l.val) : listenerTerms s j = lineTerms s l := by
  have here : j.val < 96 := is ▸ l.isLt
  have same : (⟨j.val, here⟩ : LineId) = l := Fin.ext is
  rw [listenerTerms, dif_pos here, same]

/-- The four listeners of a position (00_scope.md section 4): two earpieces, then two loudspeakers. -/
theorem listenerTerms_position (p : PosId) {r : Nat} (small : r < 4) {j : ListenerId} (is : j.val = 96 + 4 * p.val + r) :
    listenerTerms s j = if r = 0 then handsetTerms s ⟨p, .left⟩ else if r = 1 then handsetTerms s ⟨p, .right⟩
      else if r = 2 then speakerTerms s p .left else speakerTerms s p .right := by
  have pos : (⟨(j.val - 96) / 4, by omega⟩ : PosId) = p := Fin.ext (by simp only [is]; omega)
  have place : (j.val - 96) % 4 = r := by omega
  rw [listenerTerms, dif_neg (by omega), dif_pos (by omega), pos]
  simp only [place]
  interval_cases r <;> rfl

theorem listenerTerms_earpiece (h : Handset) {j : ListenerId} (is : j.val = 96 + 4 * h.pos.val + h.side.offset) :
    listenerTerms s j = handsetTerms s h := by
  obtain ⟨p, side⟩ := h
  cases side
  · rw [listenerTerms_position s p (r := 0) (by decide) is]; rfl
  · rw [listenerTerms_position s p (r := 1) (by decide) is]; rfl

theorem listenerTerms_loudspeaker (p : PosId) (side : Side) {j : ListenerId}
    (is : j.val = 98 + 4 * p.val + side.offset) : listenerTerms s j = speakerTerms s p side := by
  cases side
  · rw [listenerTerms_position s p (r := 2) (by decide) (by rw [is, Side.offset]; omega)]; rfl
  · rw [listenerTerms_position s p (r := 3) (by decide) (by rw [is, Side.offset]; omega)]; rfl

theorem listenerTerms_recorder (c : ChanId) {j : ListenerId} (is : j.val = 128 + c.val) :
    listenerTerms s j = recorderTerms s c := by
  have same : (⟨j.val - 128, by omega⟩ : ChanId) = c := Fin.ext (by simp [is])
  rw [listenerTerms, dif_neg (by omega), dif_neg (by omega), same]

@[simp] theorem derivePlan_terms (j : ListenerId) : (derivePlan s).terms.get j = listenerTerms s j := Table.get_build ..

/-- The plan is no matter of the Mixing Engine's own state. -/
theorem derivePlan_me (m : Mixer) : derivePlan { s with me := m } = derivePlan s := by
  have buses : planBuses { s with me := m } = planBuses s := rfl
  have terms : listenerTerms { s with me := m } = listenerTerms s := rfl
  rw [derivePlan, buses, terms, derivePlan]

/-! ## Buses (R75 to R77) -/

theorem mem_subjects (x : Subject) : x ∈ subjects := by cases x <;> simp [subjects]

/-- Looking a key up where the keys of empty lists are left out. -/
theorem getD_lookup_filter_nonempty {α β : Type} [DecidableEq α] (f : α → List β) (xs : List α) (x : α)
    (listed : x ∈ xs ∨ f x = []) :
    (((xs.map fun y => (y, f y)).filter fun b => !b.2.isEmpty).lookup x).getD [] = f x := by
  induction xs with
  | nil => simpa [eq_comm] using listed
  | cons y ys ih =>
    by_cases empty : f y = []
    · have rest : x ∈ ys ∨ f x = [] := by
        rcases listed with listed | none_
        · rcases List.mem_cons.1 listed with rfl | later
          · exact .inr empty
          · exact .inl later
        · exact .inr none_
      simpa [empty] using ih rest
    · by_cases here : x = y
      · subst here; simp [empty]
      · have rest : x ∈ ys ∨ f x = [] := listed.imp_left fun m => (List.mem_cons.1 m).resolve_left here
        simpa [empty, List.lookup_cons, beq_false_of_ne here] using ih rest

/-- The plan gives a conversation's bus its source terms, none where it has no bus. -/
@[simp] theorem bus_derivePlan (x : Subject) : (derivePlan s).bus x = busTerms s x :=
  getD_lookup_filter_nonempty (busTerms s) subjects x (.inl (mem_subjects x))

theorem referenced_iff (i : SourceId) :
    referenced (derivePlan s).buses i = true ↔ ∃ x, ∃ t ∈ busTerms s x, t.source = i := by
  have stands (x : Subject) : (x, busTerms s x) ∈ planBuses s ↔ busTerms s x ≠ [] := by
    simp [planBuses, mem_subjects]
  simp only [referenced, derivePlan, List.any_eq_true, beq_iff_eq]
  constructor
  · rintro ⟨⟨x, ts⟩, listed, t, mem, is⟩
    obtain ⟨y, -, same⟩ := List.mem_map.1 (List.mem_of_mem_filter listed)
    obtain ⟨rfl, rfl⟩ := Prod.mk.injEq .. ▸ same
    exact ⟨y, t, mem, is⟩
  · rintro ⟨x, t, mem, is⟩
    exact ⟨(x, busTerms s x), (stands x).2 (List.ne_nil_of_mem mem), t, mem, is⟩

/-- The line carries a call that its bus mixes (R75). -/
def State.onCall (s : State) (l : LineId) : Prop := (s.line l).state = .connected ∨ (s.line l).state = .held

variable {s}

theorem busTerms_line_of_onCall {l : LineId} (call : s.onCall l) : busTerms s (.line l) =
    ⟨lineSource l, (s.line l).pad⟩ :: (s.line l).owners.map fun h => ⟨h.source, (s.handset h).micPad⟩ := if_pos call

theorem busTerms_line_of_not_onCall {l : LineId} (quiet : ¬s.onCall l) : busTerms s (.line l) = [] := if_neg quiet

/-- Every source stands once in the bus of a line (R75). -/
theorem nodup_line_sources (law : LineLaw s) {l : LineId} (call : s.onCall l) :
    ((busTerms s (.line l)).map (·.source)).Nodup := by
  rw [busTerms_line_of_onCall call]
  simp only [List.map_cons, List.map_map, List.nodup_cons]
  refine ⟨fun mem => ?_, (law.once l).map Handset.source_injective⟩
  obtain ⟨h, -, same⟩ := List.mem_map.1 mem
  exact h.source_ne_lineSource l same

/-- Every source stands once in the bus of a group (R76). -/
theorem nodup_group_sources (floor : FloorLaw s) (hoots : HootLaw s) (g : GroupId) :
    ((busTerms s (.group g)).map (·.source)).Nodup := by
  have holders : ((s.group g).holders.map (·.pos)).Nodup := by
    have once := floor.once g
    rw [List.map_append] at once
    exact once.of_append_left
  have listed : (s.group g).hootLines.Nodup := (List.nodup_flatMap.1 hoots.once).1 g (List.mem_finRange g)
  simp only [busTerms, groupBus, List.map_append, List.map_map]
  refine List.nodup_append'.2 ⟨?_, listed.map lineSource_injective, fun i speaker line => ?_⟩
  · simpa [Function.comp_def] using holders.map speakerSource_injective
  · obtain ⟨e, -, rfl⟩ := List.mem_map.1 speaker
    obtain ⟨l, -, same⟩ := List.mem_map.1 line
    exact speakerSource_ne_lineSource e.pos l same.symm

/-! ## Terms (R79 to R84) -/

section
variable {l : LineId}

theorem lineTerms_connected (st : (s.line l).state = .connected) :
    lineTerms s l = [⟨.bus (.line l), some (lineSource l), 0⟩] := by simp [lineTerms, st]

theorem lineTerms_held (st : (s.line l).state = .held) : lineTerms s l = [⟨.tone .hold, none, min s.mp.holdLevel 72⟩] := by
  simp [lineTerms, st, attenuation]

theorem lineTerms_bridged {g : GroupId} (st : (s.line l).state = .bridged) (grp : (s.line l).group = some g) :
    lineTerms s l = [⟨.bus (.group g), some (lineSource l), 0⟩] := by simp [lineTerms, st, grp]

theorem lineTerms_silent
    (st : (s.line l).state = .idle ∨ (s.line l).state = .ringing ∨ (s.line l).state = .outOfService) :
    lineTerms s l = [] := by
  rcases st with st | st | st <;> simp [lineTerms, st]

theorem handsetTerms_bound {h : Handset} (bound : (s.handset h).binding = some l) :
    handsetTerms s h = [⟨.bus (.line l), some h.source, min (s.handset h).volume 72⟩] := by
  simp [handsetTerms, bound, attenuation]

theorem handsetTerms_free {h : Handset} (free : (s.handset h).binding = none) : handsetTerms s h = [] := by
  simp [handsetTerms, free]

end

/-- A position has two handsets (R9). -/
theorem Handset.forall_at {P : Handset → Prop} {p : PosId} :
    (∀ h : Handset, h.pos = p → P h) ↔ P ⟨p, .left⟩ ∧ P ⟨p, .right⟩ := by
  refine ⟨fun all => ⟨all _ rfl, all _ rfl⟩, ?_⟩
  rintro ⟨left, right⟩ ⟨q, side⟩ rfl
  cases side
  · exact left
  · exact right

section
variable {p : PosId}

theorem duckValue_of_free (free : ∀ h : Handset, h.pos = p → (s.handset h).binding = none) : duckValue s p = 0 := by
  obtain ⟨left, right⟩ := Handset.forall_at.1 free
  simp [duckValue, left, right]

theorem duckValue_of_bound (bound : ∃ h : Handset, h.pos = p ∧ (s.handset h).binding ≠ none) :
    duckValue s p = (s.settings p).duck := by
  have : ¬∀ h : Handset, h.pos = p → (s.handset h).binding = none := fun free => by
    obtain ⟨h, here, is⟩ := bound
    exact is (free h here)
  rw [Handset.forall_at] at this
  refine if_pos ?_
  rw [Option.isSome_iff_ne_none, Option.isSome_iff_ne_none]
  tauto

theorem hasTalkers_iff (r : GroupRec) : r.hasTalkers = true ↔ r.holders ≠ [] ∨ r.hootLines ≠ [] := by
  simp [GroupRec.hasTalkers]

/-- A channel with a group as its subject: the conditions of R82. -/
def HearsGroup (s : State) (p : PosId) (g : GroupId) : Prop :=
  inSet (s.group g).members p = true ∧ ((s.group g).holders ≠ [] ∨ (s.group g).hootLines ≠ [])

/-- A channel with a line as its subject: the conditions of R82. -/
def HearsLine (s : State) (p : PosId) (l : LineId) : Prop :=
  s.appears p l = true ∧ s.onCall l ∧ (s.line l).privacy = false ∧
    ∀ h : Handset, h.pos = p → (s.handset h).binding ≠ some l

variable {k : SpkChan}

theorem channelTerm_none (no : k.subject = none) : channelTerm s p k = none := by simp [channelTerm, no]

theorem channelTerm_group {g : GroupId} (is : k.subject = some (.group g)) (hears : HearsGroup s p g) :
    channelTerm s p k = some ⟨.bus (.group g), if entryOf p (s.group g).holders then some (speakerSource p) else none,
      min (k.volume + duckValue s p) 72⟩ := by
  have both := hears
  rw [HearsGroup, ← hasTalkers_iff] at both
  simp [channelTerm, is, both, attenuation]

theorem channelTerm_group_unheard {g : GroupId} (is : k.subject = some (.group g)) (deaf : ¬HearsGroup s p g) :
    channelTerm s p k = none := by
  rw [HearsGroup, ← hasTalkers_iff] at deaf
  simp only [channelTerm, is, if_neg deaf]

theorem hearsLine_iff {l : LineId} : HearsLine s p l ↔ s.appears p l = true ∧
    ((s.line l).state = .connected ∨ (s.line l).state = .held) ∧ (s.line l).privacy = false ∧
      (s.handset ⟨p, .left⟩).binding ≠ some l ∧ (s.handset ⟨p, .right⟩).binding ≠ some l := by
  rw [HearsLine, Handset.forall_at]; rfl

theorem channelTerm_line {l : LineId} (is : k.subject = some (.line l)) (hears : HearsLine s p l) :
    channelTerm s p k = some ⟨.bus (.line l), none, min (k.volume + duckValue s p) 72⟩ := by
  simp [channelTerm, is, hearsLine_iff.1 hears, attenuation]

theorem channelTerm_line_unheard {l : LineId} (is : k.subject = some (.line l)) (deaf : ¬HearsLine s p l) :
    channelTerm s p k = none := by
  rw [hearsLine_iff] at deaf
  simp only [channelTerm, is, if_neg deaf]

end

/-- The term of a speaker channel in the list of one of its position's loudspeakers (R82). -/
def speakerTerm (s : State) (p : PosId) (side : Side) (j : SpkId) : Option Term :=
  let k := (s.speakers p).get j
  if k.on = true ∧ k.side = side then channelTerm s p k else none

theorem Table.rows_eq_map {n : Nat} {α : Type} (t : Table n α) : t.rows = (List.finRange n).map t.get := by
  apply List.ext_getElem (by simp [t.size_eq])
  intro i h1 h2
  simp [Table.get]

theorem speakerTerms_eq (s : State) (p : PosId) (side : Side) :
    speakerTerms s p side = (List.finRange 12).filterMap (speakerTerm s p side) ++ toneTerms s p side := by
  rw [speakerTerms, Table.rows_eq_map, List.filter_map, List.filterMap_map, List.filterMap_filter]
  congr 1
  refine List.filterMap_congr fun j _ => ?_
  simp [speakerTerm]

section
variable {c : ChanId}

theorem recorderTerms_idle (idle : (s.chan c).state ≠ .active) : recorderTerms s c = [] := by
  unfold recorderTerms
  dsimp only
  split
  · next active _ => exact absurd active idle
  · rfl

theorem recorderTerms_active {x : Subject} (active : (s.chan c).state = .active) (is : (s.chan c).subject = some x) :
    recorderTerms s c = if busTerms s x = [] then [] else [⟨.bus x, none, 0⟩] := by
  simp [recorderTerms, active, is]

end

end Sys2Proof.Machine

namespace Sys2Proof.Machine

variable {s : State} (values : Table 120 Frame) (tones : Table 3 Frame) (k : Fin 16)

/-! # Sums of a listener (R94 to R96) -/

/-- A source term as it enters its bus (R93). -/
def SourceTerm.entered (values : Table 120 Frame) (k : Fin 16) (t : SourceTerm) : Int :=
  enterBus ((values.get t.source).get k) t.pad

theorem busValue_eq (terms : List SourceTerm) : busValue values terms k = (terms.map (·.entered values k)).sum := rfl

theorem exclValue_some (terms : List SourceTerm) (i : SourceId) : exclValue values terms (some i) k =
    ((terms.find? (·.source == i)).map (·.entered values k)).getD 0 := by
  rw [exclValue]
  cases found : terms.find? (·.source == i) with
  | none => rfl
  | some t =>
    have same : t.source = i := by simpa using List.find?_some found
    simp [SourceTerm.entered, same]

/-- A bus less the exclusion of a source: the source stands in the bus once, so all its other terms are left (R95). -/
theorem busValue_sub_exclValue (terms : List SourceTerm) (i : SourceId) (once : (terms.map (·.source)).Nodup) :
    busValue values terms k - exclValue values terms (some i) k =
      ((terms.filter fun t => t.source != i).map (·.entered values k)).sum := by
  rw [busValue_eq, exclValue_some]
  induction terms with
  | nil => rfl
  | cons t ts ih =>
    obtain ⟨fresh, once⟩ := List.nodup_cons.1 once
    by_cases same : t.source = i
    · subst same
      have kept : ts.filter (fun u => u.source != t.source) = ts :=
        List.filter_eq_self.2 fun u mem => by
          simpa using fun e : u.source = t.source => fresh (List.mem_map.2 ⟨u, mem, e⟩)
      simp [kept]
    · have rest := ih once
      simp [same, beq_false_of_ne same] at rest ⊢
      omega

/-- At full gain nothing is lost in the rounding (R91, R96). -/
theorem roundGain_mul_gain_zero (x : Int) : roundGain (x * gain 0) = x := by
  have full : gain 0 = 16384 := rfl
  rw [roundGain, full]; omega

/-- A listener with one term: a bus with one of its sources excluded. -/
theorem listenerSum_bus (p : Plan) (b : Subject) (i : SourceId) (att : Nat) (once : ((p.bus b).map (·.source)).Nodup) :
    listenerSum p values tones [⟨.bus b, some i, att⟩] k =
      roundGain ((((p.bus b).filter fun t => t.source != i).map (·.entered values k)).sum * gain att) := by
  simp [listenerSum, termValue, busValue_sub_exclValue values k _ i once]

theorem listenerSum_tone (p : Plan) (x : Tone) (att : Nat) :
    listenerSum p values tones [⟨.tone x, none, att⟩] k = roundGain (((tones.get x.idx).get k).toInt * gain att) := by
  simp [listenerSum, termValue]

/-! ## A bus without one of its sources -/

/-- Of the terms made of a list, those of one of its elements leave with it. -/
theorem filter_map_source {α : Type} [DecidableEq α] (f : α → SourceTerm) (inj : Function.Injective fun a => (f a).source)
    (xs : List α) (a : α) : (xs.map f).filter (fun t => t.source != (f a).source) = (xs.filter (· != a)).map f := by
  rw [List.filter_map]
  congr 1
  refine List.filter_congr fun x _ => ?_
  have same : (f x).source = (f a).source ↔ x = a := inj.eq_iff
  simp [bne, beq_eq_decide, same]

theorem filter_map_source_ne {α : Type} (f : α → SourceTerm) (xs : List α) (i : SourceId) (other : ∀ x, (f x).source ≠ i) :
    (xs.map f).filter (fun t => t.source != i) = xs.map f :=
  List.filter_eq_self.2 fun t mem => by
    obtain ⟨x, -, rfl⟩ := List.mem_map.1 mem
    simpa using other x

/-- The far end of a line hears the owners. -/
theorem lineBus_without_farEnd {l : LineId} (call : s.onCall l) :
    (busTerms s (.line l)).filter (fun t => t.source != lineSource l) =
      (s.line l).owners.map fun h => ⟨h.source, (s.handset h).micPad⟩ := by
  rw [busTerms_line_of_onCall call, List.filter_cons_of_neg (by simp),
    filter_map_source_ne _ _ _ fun h => h.source_ne_lineSource l]

/-- An owner hears the far end and the other owners. -/
theorem lineBus_without_owner {l : LineId} (call : s.onCall l) (h : Handset) :
    (busTerms s (.line l)).filter (fun t => t.source != h.source) = ⟨lineSource l, (s.line l).pad⟩ ::
      ((s.line l).owners.filter (· != h)).map fun j => ⟨j.source, (s.handset j).micPad⟩ := by
  rw [busTerms_line_of_onCall call, List.filter_cons_of_pos (by simpa using (h.source_ne_lineSource l).symm),
    filter_map_source (fun j : Handset => ⟨j.source, (s.handset j).micPad⟩) Handset.source_injective _ h]

/-- A hoot line hears the holders of its group and the other hoot lines. -/
theorem groupBus_without_line (g : GroupId) (l : LineId) :
    (busTerms s (.group g)).filter (fun t => t.source != lineSource l) =
      (s.group g).holders.map (fun e => ⟨speakerSource e.pos, (s.settings e.pos).speakerMicPad⟩) ++
        ((s.group g).hootLines.filter (· != l)).map fun m => ⟨lineSource m, (s.line m).pad⟩ := by
  rw [busTerms, groupBus, List.filter_append, filter_map_source_ne _ _ _ fun e => speakerSource_ne_lineSource e.pos l,
    filter_map_source (fun m : LineId => ⟨lineSource m, (s.line m).pad⟩) lineSource_injective _ l]

/-- Settles O50: an exclusion takes one term out of its bus, and the far end's is its own, an earpiece's that of its
microphone. -/
theorem ownersHearTheOthers : Obligations.OwnersHearTheOthers := by
  refine ⟨fun values terms i k once _ => busValue_sub_exclValue values k terms i once, fun values tones l h k s law => ?_⟩
  dsimp only
  intro st
  have call : s.onCall l := .inl st
  have once : (((derivePlan s).bus (.line l)).map (·.source)).Nodup := by
    rw [bus_derivePlan]; exact nodup_line_sources law call
  refine ⟨?_, fun owner => ?_⟩
  · rw [listenerTerms_line s l rfl, lineTerms_connected st, listenerSum_bus values tones k _ _ _ _ once, bus_derivePlan,
      lineBus_without_farEnd call, roundGain_mul_gain_zero, List.map_map]
    rfl
  · rw [listenerTerms_earpiece s h (by cases h with | mk p side => cases side <;> rfl),
      handsetTerms_bound ((law.bound h l).2 owner), listenerSum_bus values tones k _ _ _ _ once, bus_derivePlan,
      lineBus_without_owner call, List.map_cons, List.sum_cons, List.map_map]
    rfl

/-! # The plan as a whole -/

/-- The gains of R91 are 16384 · 10^(−A/20) rounded: twice as fine a unit brackets each. -/
theorem gain_rounds : ∀ att : Nat, att < 72 →
    (2 * gain att - 1) ^ 20 * 10 ^ att ≤ 32768 ^ 20 ∧ 32768 ^ 20 < (2 * gain att + 1) ^ 20 * 10 ^ att := by decide +kernel

theorem toneFrame_on {t : ToneTable} {phase : Nat} (on : phase < t.onFrames) (n : Word) :
    (toneFrame t phase n).get k = t.samples.get ⟨(16 * n.toNat + k.val) % 32, Nat.mod_lt _ (by decide)⟩ := by
  simp [toneFrame, on]

theorem toneFrame_off {t : ToneTable} {phase : Nat} (off : t.onFrames ≤ phase) (n : Word) :
    (toneFrame t phase n).get k = 0 := by
  simp [toneFrame, Nat.not_lt.2 off, silence]

/-- A channel that is OFF, on the other side or without a subject gives a loudspeaker nothing (R82). -/
theorem speakerTerm_off {p : PosId} {side : Side} {j : SpkId}
    (off : ((s.speakers p).get j).on = false ∨ ((s.speakers p).get j).side ≠ side ∨ ((s.speakers p).get j).subject = none) :
    speakerTerm s p side j = none := by
  rw [speakerTerm]
  split
  · next on => exact channelTerm_none (by simpa [on.1, on.2] using off)
  · rfl

theorem speakerTerm_on {p : PosId} {side : Side} {j : SpkId} (on : ((s.speakers p).get j).on = true)
    (here : ((s.speakers p).get j).side = side) : speakerTerm s p side j = channelTerm s p ((s.speakers p).get j) :=
  if_pos ⟨on, here⟩

/-- A BRIDGED line hears its group without itself, at full gain (R79). -/
theorem listenerSum_bridged {l : LineId} {g : GroupId} (st : (s.line l).state = .bridged) (grp : (s.line l).group = some g)
    (floor : FloorLaw s) (hoots : HootLaw s) :
    listenerSum (derivePlan s) values tones (lineTerms s l) k =
      ((s.group g).holders.map fun e =>
          enterBus ((values.get (speakerSource e.pos)).get k) (s.settings e.pos).speakerMicPad).sum +
        (((s.group g).hootLines.filter (· != l)).map fun m =>
          enterBus ((values.get (lineSource m)).get k) (s.line m).pad).sum := by
  have once : (((derivePlan s).bus (.group g)).map (·.source)).Nodup := by
    rw [bus_derivePlan]; exact nodup_group_sources floor hoots g
  rw [lineTerms_bridged st grp, listenerSum_bus values tones k _ _ _ _ once, bus_derivePlan, groupBus_without_line,
    roundGain_mul_gain_zero, List.map_append, List.sum_append, List.map_map, List.map_map]
  rfl

/-- Settles O60: the terms of each kind of listener, then the sums of a line's far end, the gains and the tones. -/
theorem mixPlanGivesTerms : Obligations.MixPlanGivesTerms := by
  refine ⟨fun s => ?_, fun values tones l k s => ?_, fun att small => gain_rounds att (by omega), rfl,
    fun t phase n k => ⟨fun on => toneFrame_on k on n, fun off => toneFrame_off k off n⟩⟩
  · dsimp only
    simp only [bus_derivePlan, derivePlan_terms]
    refine ⟨fun l => ⟨busTerms_line_of_onCall, busTerms_line_of_not_onCall⟩, fun g => rfl, referenced_iff s, fun l => ?_,
      fun h => ?_, fun p side => ?_, fun c => ?_⟩
    · rw [listenerTerms_line s l rfl]
      exact ⟨lineTerms_connected, lineTerms_held, fun g => lineTerms_bridged, lineTerms_silent⟩
    · rw [listenerTerms_earpiece s h (by cases h with | mk p side => cases side <;> rfl)]
      exact ⟨fun l => handsetTerms_bound, handsetTerms_free⟩
    · refine ⟨duckValue s p, speakerTerm s p side, toneTerms s p side, ?_, duckValue_of_bound, duckValue_of_free,
        fun j => ?_, ?_, ?_⟩
      · rw [listenerTerms_loudspeaker s p side (by cases side <;> rfl), speakerTerms_eq]
      · refine ⟨speakerTerm_off, fun g on here is => ?_, fun l on here is => ?_⟩
        · rw [speakerTerm_on on here]
          refine ⟨channelTerm_group_unheard is, fun hears => ⟨_, channelTerm_group is hears, fun holds => ?_,
            fun silent => ?_⟩⟩
          · rw [if_pos (entryOf_iff.2 (List.mem_map.2 holds))]
          · rw [if_neg fun holds => ?_]
            obtain ⟨e, mem, same⟩ := List.mem_map.1 (entryOf_iff.1 holds)
            exact silent e mem same
        · rw [speakerTerm_on on here]
          exact ⟨channelTerm_line_unheard is, channelTerm_line is⟩
      · rintro rfl; simp [toneTerms, attenuation]
      · rintro rfl; simp [toneTerms, attenuation]
    · rw [listenerTerms_recorder s c rfl]
      refine ⟨recorderTerms_idle, fun x active is => ?_⟩
      rw [recorderTerms_active active is]
      exact ⟨fun empty => if_pos empty, fun filled => if_neg filled⟩
  · dsimp only
    rw [derivePlan_terms, listenerTerms_line s l rfl]
    refine ⟨fun held => ?_, fun g st grp floor hoots => listenerSum_bridged values tones k st grp floor hoots⟩
    rw [lineTerms_held held, listenerSum_tone]; rfl

end Sys2Proof.Machine

namespace Sys2Proof.Machine

variable (n : Word) (s : State)

/-! # A frame event is mixed (R94 to R103) -/

/-! ## Source values (R98, R99) -/

theorem halve_toInt (x : Sample) : (halve x).toInt = x.toInt / 2 := by
  have low := BitVec.le_toInt x
  have high := BitVec.toInt_lt (x := x)
  rw [halve, BitVec.toInt_ofInt]
  exact Int.bmod_eq_of_le (by omega) (by omega)

/-- A halved sample is the half's floor (R99). -/
theorem halve_eq_floor (x : Sample) : (halve x).toInt = ⌊(x.toInt : ℚ) / 2⌋ := by
  rw [halve_toInt]; exact (Rat.floor_intCast_div_natCast x.toInt 2).symm

/-! ## Outputs (R96, R97) -/

/-- A saturated value is a sample's (R96). -/
theorem ofInt_saturate_toInt (y : Int) : (BitVec.ofInt 16 (saturate y)).toInt = max (-32768) (min y 32767) := by
  have low : -32768 ≤ saturate y := by unfold saturate; omega
  have high : saturate y ≤ 32767 := by unfold saturate; omega
  rw [BitVec.toInt_ofInt]
  exact Int.bmod_eq_of_le (by omega) (by omega)

theorem clipCount_build (f : Fin 16 → Int) :
    clipCount (.build f) = ((List.finRange 16).filter fun k => decide (f k < -32768 ∨ 32767 < f k)).length := by
  rw [clipCount, Table.build, List.filter_map, List.length_map]
  congr 2
  funext k
  simp [clips]

/-- The frames of a list are the newest four (R120). -/
theorem placeFrame_eq (f : Frame) (list : List StoredFrame) :
    placeFrame n f list = (list ++ [(⟨n, f⟩ : StoredFrame)]).drop (list.length - 3) := by
  simp [placeFrame, Config.framePlaces]

/-! ## What the Mixing Engine works out -/

/-- What the sources give at the frame event. -/
def sourceOuts : Table 120 SourceOut := .build fun i =>
  sourceOut (s.pu.queues.get i).head? (s.me.last.get i) (referenced (derivePlan s).buses i)

/-- The source values of the frame event. -/
def sourceValues : Table 120 Frame := (sourceOuts s).map (·.value)

/-- The tones of frame event `n`. -/
def toneFrames : Table 3 Frame := .build fun x => toneFrame (s.me.tones.get x) (s.me.phase.get x) n

/-- The samples of the listeners before saturation. -/
def listenerSums : Table 160 (Table 16 Int) :=
  (derivePlan s).terms.map fun ts => .build (listenerSum (derivePlan s) (sourceValues s) (toneFrames n s) ts)

/-- The frames of the listeners. -/
def listenerFrames : Table 160 Frame := (listenerSums n s).map listenerFrame

section
variable {i : SourceId}

@[simp] theorem sourceValues_get : (sourceValues s).get i = ((sourceOuts s).get i).value := Table.get_map ..

variable {s}

/-- A queued frame is taken (R98). -/
theorem sourceOuts_of_queued {f : Frame} {q : List Frame} (queued : s.pu.queues.get i = f :: q) :
    (sourceOuts s).get i = ⟨f, ⟨.captured, f⟩, false⟩ := by simp [sourceOuts, queued, sourceOut]

/-- A source with no frame that no bus names is silent and starts anew (R99). -/
theorem sourceOuts_of_unreferenced (empty : s.pu.queues.get i = []) (unnamed : referenced (derivePlan s).buses i = false) :
    (sourceOuts s).get i = ⟨silence, ⟨.none, (s.me.last.get i).frame⟩, false⟩ := by
  simp [sourceOuts, empty, unnamed, sourceOut]

/-- The first frame missing after a captured one is concealed (R99). -/
theorem sourceOuts_of_captured (empty : s.pu.queues.get i = []) (named : referenced (derivePlan s).buses i = true)
    (captured : (s.me.last.get i).kind = .captured) : (sourceOuts s).get i =
      ⟨(s.me.last.get i).frame.map halve, ⟨.concealed, (s.me.last.get i).frame⟩, true⟩ := by
  simp [sourceOuts, empty, named, sourceOut, captured]

/-- Every later one is silent (R99). -/
theorem sourceOuts_of_not_captured (empty : s.pu.queues.get i = []) (named : referenced (derivePlan s).buses i = true)
    (other : (s.me.last.get i).kind ≠ .captured) : (sourceOuts s).get i =
      ⟨silence, ⟨.silent, (s.me.last.get i).frame⟩, true⟩ := by
  cases kind : (s.me.last.get i).kind <;> simp_all [sourceOuts, sourceOut]

/-- A source with no frame keeps the samples of its record (log 33). -/
theorem sourceOuts_record_frame (empty : s.pu.queues.get i = []) :
    ((sourceOuts s).get i).record.frame = (s.me.last.get i).frame := by
  by_cases named : referenced (derivePlan s).buses i = true
  · by_cases captured : (s.me.last.get i).kind = .captured
    · rw [sourceOuts_of_captured empty named captured]
    · rw [sourceOuts_of_not_captured empty named captured]
  · rw [sourceOuts_of_unreferenced empty (Bool.eq_false_iff.2 named)]

end

theorem listenerSums_get (j : ListenerId) : (listenerSums n s).get j =
    .build (listenerSum (derivePlan s) (sourceValues s) (toneFrames n s) (listenerTerms s j)) := by simp [listenerSums]

theorem listenerFrames_toInt (j : ListenerId) (k : Fin 16) : (((listenerFrames n s).get j).get k).toInt =
    max (-32768) (min (listenerSum (derivePlan s) (sourceValues s) (toneFrames n s) (listenerTerms s j) k) 32767) := by
  rw [listenerFrames, Table.get_map, listenerSums_get, listenerFrame, Table.get_map, Table.get_build, ofInt_saturate_toInt]

/-! ## What it stores, block by block -/

section
variable (i : SourceId) (j : ListenerId)

theorem mixFrame_last : (mixFrame n s).me.last.get i = ((sourceOuts s).get i).record := Table.get_map ..

theorem mixFrame_underrun : (mixFrame n s).me.underrun.get i =
    if ((sourceOuts s).get i).underrun then s.me.underrun.get i + 1 else s.me.underrun.get i := Table.get_build ..

theorem mixFrame_saturation : (mixFrame n s).me.saturation.get j =
    s.me.saturation.get j + BitVec.ofNat 32 (clipCount ((listenerSums n s).get j)) := Table.get_build ..

theorem mixFrame_phase (x : Fin 3) : (mixFrame n s).me.phase.get x = nextPhase (s.me.tones.get x) (s.me.phase.get x) :=
  Table.get_build ..

theorem mixFrame_queues : (mixFrame n s).pu.queues.get i = (s.pu.queues.get i).tail := Table.get_map ..

theorem mixFrame_totals : (mixFrame n s).pu.totals.get i = if (s.pu.queues.get i).isEmpty then s.pu.totals.get i
    else { s.pu.totals.get i with taken := (s.pu.totals.get i).taken + 1 } := Table.get_build ..

theorem mixFrame_store : (mixFrame n s).pu.store.get j = placeFrame n ((listenerFrames n s).get j) (s.pu.store.get j) :=
  Table.get_build ..

theorem mixFrame_inbox : (mixFrame n s).ru.inbox =
    s.ru.inbox ++ [⟨n, .build fun c => (listenerFrames n s).get (recorderListener c)⟩] := rfl

theorem mixFrame_frame : mixFrame n s = { s with
    me := { (mixFrame n s).me with tones := s.me.tones, waiting := s.me.waiting }
    pu := { s.pu with
      queues := (mixFrame n s).pu.queues, totals := (mixFrame n s).pu.totals, store := (mixFrame n s).pu.store }
    ru := { s.ru with inbox := (mixFrame n s).ru.inbox } } := by
  apply State.ext_parts <;> rfl

end

/-! ## A sample of an output (R95, R96) -/

/-- The rounding of R96 is to the nearest, halves upwards. -/
theorem roundGain_bounds (x : Int) : 16384 * roundGain x ≤ x + 8192 ∧ x + 8192 < 16384 * (roundGain x + 1) := by
  unfold roundGain; omega

/-- An output is its accumulated terms over 16384, rounded once after the sum. -/
theorem listenerSum_bounds {p : Plan} {values : Table 120 Frame} {tones : Table 3 Frame} {terms : List Term} {k : Fin 16}
    {acc : Int} (sum : listenerSum p values tones terms k = roundGain acc) :
    16384 * listenerSum p values tones terms k ≤ acc + 8192 ∧
      acc + 8192 < 16384 * (listenerSum p values tones terms k + 1) := sum ▸ roundGain_bounds acc

/-- Settles O51: each field of what the Mixing Engine leaves is read off, the plan being that of the state it meets. -/
theorem frameEventMixes : Obligations.FrameEventMixes := by
  refine ⟨fun n rest s running waits => ?_, fun plan values tones terms k => ?_⟩
  · dsimp only
    let u : State := { s with me := { s.me with waiting := rest } }
    have next : exec .frameEventMix s = .next (mixFrame n u) := by
      change inRunning frameEventMix s = _
      rw [inRunning, if_pos running, frameEventMix, waits]
    have plan : derivePlan u = derivePlan s := derivePlan_me s _
    have terms (j : ListenerId) : listenerTerms u j = listenerTerms s j := by
      rw [← derivePlan_terms, plan, derivePlan_terms]
    refine ⟨mixFrame n u, sourceValues u, listenerFrames n u, next, rfl, fun i f q queued => ?_, fun i empty => ?_,
      fun j => ⟨fun k => ?_, ?_, ?_⟩, mixFrame_phase n u,
      ⟨_, mixFrame_inbox n u, fun c => Table.get_build ..⟩, ?_⟩
    · have out := sourceOuts_of_queued (s := u) queued
      have some_ : u.pu.queues.get i = f :: q := queued
      rw [sourceValues_get, mixFrame_queues, mixFrame_last, mixFrame_underrun, mixFrame_totals, out, some_]
      exact ⟨rfl, rfl, rfl, rfl, rfl⟩
    · have none_ : u.pu.queues.get i = [] := empty
      rw [sourceValues_get, mixFrame_queues, mixFrame_last, mixFrame_underrun, mixFrame_totals, none_, ← plan]
      refine ⟨rfl, rfl, sourceOuts_record_frame none_, fun unnamed => ?_, fun named =>
        ⟨?_, fun captured => ?_, fun other => ?_⟩⟩
      · rw [sourceOuts_of_unreferenced none_ unnamed]; exact ⟨rfl, rfl, rfl⟩
      · by_cases captured : (u.me.last.get i).kind = .captured
        · rw [sourceOuts_of_captured none_ named captured]; rfl
        · rw [sourceOuts_of_not_captured none_ named captured]; rfl
      · rw [sourceOuts_of_captured none_ named captured]
        exact ⟨rfl, fun k => by rw [Table.get_map, halve_eq_floor]⟩
      · rw [sourceOuts_of_not_captured none_ named other]; exact ⟨rfl, rfl⟩
    · rw [listenerFrames_toInt, plan, terms]; rfl
    · rw [mixFrame_saturation, listenerSums_get, clipCount_build, plan, terms]; rfl
    · rw [mixFrame_store, placeFrame_eq]
    · exact mixFrame_frame n u
  · dsimp only
    rw [← and_assoc]
    refine ⟨listenerSum_bounds (congrArg (roundGain ∘ List.sum) (List.map_congr_left fun x _ => ?_)), fun none_ => ?_⟩
    · obtain ⟨operand, excl, att⟩ := x
      cases operand with
      | tone x => simp [termValue]
      | bus b =>
        cases excl with
        | none => simp [termValue, exclValue, busValue]
        | some i => dsimp only [termValue]; rw [exclValue_some]; rfl
    · rw [none_]; rfl

end Sys2Proof.Machine

namespace Sys2Proof.Machine

/-! # A source enters its bus (R93) -/

/-- The floor of R93 is that of the rational quotient. -/
theorem roundGain_eq_floor (x : Int) : roundGain x = ⌊((x : ℚ) + 8192) / 16384⌋ := by
  have floor := Rat.floor_intCast_div_natCast (x + 8192) 16384
  push_cast at floor
  exact floor.symm

/-- No entry of R91's table exceeds unity, and past its end the gain is 0. -/
theorem gain_bounds (att : Nat) : 0 ≤ gain att ∧ gain att ≤ 16384 := by
  have entries : ∀ g ∈ gains, g ≤ 16384 := by decide
  rw [gain, List.getD_eq_getElem?_getD]
  cases entry : gains[att]? with
  | none => simp
  | some g =>
    have most := entries g (List.mem_of_getElem? entry)
    simp only [Option.getD_some]
    omega

/-- A gain of at most unity brings no sample out of its 16 bits. -/
theorem enterBus_bounds (x : Sample) (pad : Nat) : -32768 ≤ enterBus x pad ∧ enterBus x pad ≤ 32767 := by
  obtain ⟨nonneg, unity⟩ := gain_bounds pad
  have low : -32768 * gain pad ≤ x.toInt * gain pad := Int.mul_le_mul_of_nonneg_right (BitVec.le_toInt x) nonneg
  have high : x.toInt * gain pad ≤ 32767 * gain pad :=
    Int.mul_le_mul_of_nonneg_right (Int.le_of_lt_add_one BitVec.toInt_lt) nonneg
  have rounded : 16384 * enterBus x pad ≤ x.toInt * gain pad + 8192 ∧
      x.toInt * gain pad + 8192 < 16384 * (enterBus x pad + 1) := roundGain_bounds _
  omega

theorem enterBus_of_gain_eq_zero (x : Sample) {pad : Nat} (mute : gain pad = 0) : enterBus x pad = 0 := by
  rw [enterBus, mute, Int.mul_zero]; rfl

/-- A bus names each of its sources once, so looking for a term's source finds that term. -/
theorem find?_source_of_mem {terms : List SourceTerm} (once : (terms.map (·.source)).Nodup) {t : SourceTerm}
    (mem : t ∈ terms) : terms.find? (·.source == t.source) = some t := by
  cases found : terms.find? (·.source == t.source) with
  | none => simpa using List.find?_eq_none.1 found t mem
  | some u =>
    have same : u.source = t.source := by simpa using List.find?_some found
    rw [List.inj_on_of_nodup_map once (List.mem_of_find?_eq_some found) mem same]

/-- An exclusion takes out of a bus what its source brought in (R93, R95). -/
theorem exclValue_of_mem (values : Table 120 Frame) (k : Fin 16) {terms : List SourceTerm}
    (once : (terms.map (·.source)).Nodup) {t : SourceTerm} (mem : t ∈ terms) :
    exclValue values terms (some t.source) k = t.entered values k := by
  rw [exclValue_some, find?_source_of_mem once mem]; rfl

/-- Settles O49: the range comes from the gain table, and an exclusion finds the one term of its source. -/
theorem sourceEntersBusRounded : Obligations.SourceEntersBusRounded := by
  refine fun x pad => ⟨gain_bounds pad, ?_, enterBus_bounds x pad, roundGain_mul_gain_zero _, enterBus_of_gain_eq_zero x,
    fun values terms k => ⟨busValue_eq values k terms, fun t mem once => exclValue_of_mem values k once mem⟩⟩
  rw [enterBus, roundGain_eq_floor, Int.cast_mul]

end Sys2Proof.Machine

namespace Sys2Proof.Machine

variable {s t u v : State} {l : LineId} {g : GroupId} {c : ChanId}

/-! # What most steps leave alone: the voice queues, the Fault Record, the operating state and the queue of commands -/

/-- The regions, the input queues with their totals, the Output Store, the Fault Record, the operating state and the queue. -/
structure Core where
  regions : Regions
  queues : Table 120 (List Frame)
  totals : Table 120 Totals
  store : Table 160 (List StoredFrame)
  fault : FaultRecord
  op : OpState
  pending : List Instr

def State.core (s : State) : Core :=
  ⟨s.pu.regions, s.pu.queues, s.pu.totals, s.pu.store, s.cu.fault, s.ld.op, s.pending⟩

/-- A step that only asks for own accesses, and leaves the Fault Record, the loader and the queue alone. -/
theorem core_of_asks {more : List OwnAccess} (pu : t.pu = { s.pu with own := s.pu.own ++ more })
    (fault : t.cu.fault = s.cu.fault) (ld : t.ld = s.ld) (pending : t.pending = s.pending) : t.core = s.core := by
  simp only [State.core, pu, fault, ld, pending]

/-- What every step of a series leaves alone of the core, the series leaves alone. -/
theorem core_foldl {α : Type} {f : State → α → State} (step : ∀ s a, (f s a).core = s.core) (as : List α) (s : State) :
    (as.foldl f s).core = s.core := foldl_keeps State.core f step as s

/-! ## The named updates and the posting of events -/

section
variable (s)

@[simp] theorem modLine_core (l : LineId) (f : LineRec → LineRec) : (s.modLine l f).core = s.core := rfl
@[simp] theorem modHandset_core (h : Handset) (f : HandsetRec → HandsetRec) : (s.modHandset h f).core = s.core := rfl
@[simp] theorem setKey_core (p : PosId) (k : KeyId) (x : Option LineId) : (s.setKey p k x).core = s.core := rfl
@[simp] theorem setRing_core (l : LineId) (r : Option RingRec) : (s.setRing l r).core = s.core := rfl
@[simp] theorem setPosRing_core (p : PosId) (x : PosRing) : (s.setPosRing p x).core = s.core := rfl
@[simp] theorem modGroup_core (g : GroupId) (f : GroupRec → GroupRec) : (s.modGroup g f).core = s.core := rfl
@[simp] theorem modChan_core (c : ChanId) (f : Channel → Channel) : (s.modChan c f).core = s.core := rfl
@[simp] theorem requestOwn_core (p : Purpose) (a : Addr) (d : List Byte) : (requestOwn p a d s).core = s.core := rfl
@[simp] theorem takeHanded_core (h : Handed) : (takeHanded h s).core = s.core := rfl

@[simp] theorem postKeeping_core (keep : Nat) (e : Event) : (postKeeping keep e s).core = s.core :=
  core_of_asks (more := (s.cu.takeEvent keep e).slots) rfl (CmdUnit.takeEvent_fault ..) rfl rfl

@[simp] theorem post_core (e : Event) : (post e s).core = s.core := postKeeping_core ..
@[simp] theorem postAll_core (es : List Event) : (postAll es s).core = s.core :=
  core_foldl (fun s e => post_core s e) es s

@[simp] theorem drain_core : (drain s).core = s.core := by
  refine core_of_asks (more := s.cu.drained.slots) rfl ?_ rfl rfl
  obtain ⟨-, -, -, -, -, -, -, fault⟩ := Emission.drainFrom_keeps s.cu.backlog ⟨s.cu, []⟩
  exact fault

@[simp] theorem complete_core (st : Status) : (complete st s).core = s.core :=
  postKeeping_core s 0 (.commandDone s.cu.curTag s.cu.curKind st)

end

/-! ## The Recorder Unit -/

section
variable (s)

@[simp] theorem openSession_core (c : ChanId) (x : Subject) (ps : List PosId) : (openSession c x ps s).core = s.core := rfl
@[simp] theorem partyArrival_core (c : ChanId) (p : PosId) : (partyArrival c p s).core = s.core := rfl
@[simp] theorem markStepped_core : (markStepped s).core = s.core := rfl
@[simp] theorem placeRecord_core (x : Session) : (placeRecord x s).core = s.core := rfl
@[simp] theorem freeWritten_core (count : Word) : (freeWritten count s).core = s.core := rfl
@[simp] theorem requestLogWord_core (count : Word) : (requestLogWord count s).core = s.core := rfl
@[simp] theorem cutSegment_core (c : ChanId) (x : Session) : (cutSegment c x s).core = s.core := rfl

@[simp] theorem sessionEnd_core (c : ChanId) (cause : SessionCause) : (sessionEnd c cause s).core = s.core := by
  unfold sessionEnd; split <;> rfl
@[simp] theorem placeHeld_core (c : ChanId) : (placeHeld c s).core = s.core := by
  unfold placeHeld; split <;> rfl

@[simp] theorem placeWaiting_core : (placeWaiting s).core = s.core :=
  core_foldl (fun s c => by split <;> simp) _ s

@[simp] theorem bufferFull_core (c : ChanId) : (bufferFull c s).core = s.core := by
  unfold bufferFull; dsimp only; split <;> simp
@[simp] theorem writeFrame_core (c : ChanId) (n : Word) (f : Frame) (x : Session) : (writeFrame c n f x s).core = s.core := by
  unfold writeFrame; dsimp only; split_ifs <;> simp
@[simp] theorem loseFrame_core (c : ChanId) (n : Word) (x : Session) : (loseFrame c n x s).core = s.core := by
  unfold loseFrame; dsimp only; split <;> simp

@[simp] theorem segmentTest_core (c : ChanId) : (segmentTest c s).core = s.core := by
  unfold segmentTest
  dsimp only
  split
  · split_ifs <;> simp
  · rfl

@[simp] theorem closeStep_core (c : ChanId) : (closeStep c s).core = s.core := by
  unfold closeStep; dsimp only; split_ifs <;> simp

@[simp] theorem takeChannelFrame_core (n : Word) (fs : Table 32 Frame) (c : ChanId) :
    (takeChannelFrame n fs c s).core = s.core := by
  unfold takeChannelFrame
  dsimp only
  split
  · rfl
  · split
    · rfl
    · split_ifs <;> simp
  · split_ifs <;> simp

@[simp] theorem takeFrames_core (r : RecFrames) : (takeFrames r s).core = s.core :=
  (core_foldl (fun s c => takeChannelFrame_core s r.number r.frames c) _ { s with ru := { s.ru with frameNo := r.number } }).trans rfl

@[simp] theorem recorderFrames_core : (recorderFrames s).core = s.core := by
  unfold recorderFrames
  split
  · rfl
  · exact takeFrames_core ..

@[simp] theorem sessionSegment_core (c : ChanId) : (sessionSegment c s).core = s.core := by
  unfold sessionSegment; split <;> simp
@[simp] theorem postBuffers_core (c : ChanId) : (postBuffers c s).core = s.core := by simp [postBuffers]
@[simp] theorem frameReturned_core (c : ChanId) (b : Buf) (frame number : Word) (error : Bool) :
    (frameReturned c b frame number error s).core = s.core := by
  unfold frameReturned
  dsimp only
  rw [apply_ite State.core, closeStep_core, ite_self, postBuffers_core, modChan_core]

@[simp] theorem logConsumed_core (v : Word) : (logConsumed v s).core = s.core := by
  unfold logConsumed
  split
  · rfl
  · exact placeWaiting_core ..

@[simp] theorem recorderSet_core (chan : Byte) (baseA ceilA baseB ceilB : Addr) :
    (recorderSet chan baseA ceilA baseB ceilB s).1.core = s.core := by
  unfold recorderSet
  split
  · rfl
  · split_ifs <;> rfl

@[simp] theorem recordReturn_core (chan buffer : Byte) : (recordReturn chan buffer s).1.core = s.core := by
  unfold recordReturn
  split
  · split <;> rfl
  · rfl

end

/-! ## The Frame Timer -/

section
variable (s)

@[simp] theorem frameEvent_core : (frameEvent s).core = s.core := rfl
@[simp] theorem reachTime_core (n : Nat) : (reachTime n s).core = s.core := rfl
@[simp] theorem takeReference_core (n good : Nat) : (takeReference n good s).core = s.core := rfl
@[simp] theorem lock_core (n : Nat) : (lock n s).core = s.core := post_core ..

@[simp] theorem frameInPulse_core (n : Nat) : (frameInPulse n s).core = s.core := by
  unfold frameInPulse
  dsimp only
  split
  · rfl
  · rfl
  · split
    · rfl
    · split_ifs
      · exact lock_core ..
      · rfl
      · rfl

@[simp] theorem pulseWatchExpiry_core : (pulseWatchExpiry s).core = s.core := by
  unfold pulseWatchExpiry
  split
  · rfl
  · dsimp only
    split
    · exact (frameEvent_core _).trans (post_core ..)
    · rfl
    · rfl

@[simp] theorem freewheelExpiry_core : (freewheelExpiry s).core = s.core := by
  unfold freewheelExpiry; split <;> rfl

@[simp] theorem timeStep_core (new : FloorTime) (reason : StepReason) : (timeStep new reason s).core = s.core := by
  unfold timeStep
  exact (markStepped_core _).trans (post_core ..)

@[simp] theorem timeSync_core (w : BitVec 128) : (timeSync w s).core = s.core := by
  unfold timeSync
  dsimp only
  split
  · exact timeStep_core ..
  · split_ifs
    · rfl
    · exact timeStep_core ..
    · rfl
    · exact timeStep_core ..
    · rfl

end

/-! ## The Ring Presenter -/

section
variable (s)

@[simp] theorem addShown_core (b : Bool) (p : PosId) : (addShown b p s).core = s.core := by
  unfold addShown; dsimp only; split <;> simp
@[simp] theorem dropShown_core (b : Bool) (p : PosId) : (dropShown b p s).core = s.core := by
  unfold dropShown; dsimp only; split <;> simp

@[simp] theorem moveShown_core (b : Bool) (old new : PosSet) : (moveShown b old new s).core = s.core :=
  core_foldl (fun s p => by split_ifs <;> simp) _ s

@[simp] theorem startRing_core (l : LineId) : (startRing l s).core = s.core := by simp [startRing]
@[simp] theorem startRecall_core (l : LineId) (p : PosId) : (startRecall l p s).core = s.core := by simp [startRecall]
@[simp] theorem widen_core (l : LineId) (reason : PhaseReason) (r : RingRec) : (widen l reason r s).core = s.core := by
  simp [widen]
@[simp] theorem endRing_core (l : LineId) (cause : RingCause) (pos : Option PosId) : (endRing l cause pos s).core = s.core := by
  unfold endRing; split <;> simp

@[simp] theorem lineRemoved_core (p : PosId) (l : LineId) : (lineRemoved p l s).core = s.core := by
  unfold lineRemoved
  split
  · rfl
  · split
    · split <;> simp
    · split <;> simp
    · rfl

@[simp] theorem lineAdded_core (p : PosId) (l : LineId) : (lineAdded p l s).core = s.core := by
  unfold lineAdded
  split
  · rfl
  · split
    · split <;> simp
    · rfl
    · rfl

@[simp] theorem ringDelayExpiry_core (l : LineId) : (ringDelayExpiry l s).core = s.core := by
  unfold ringDelayExpiry
  split
  · rfl
  · split
    · split <;> simp
    · rfl

end

/-! ## The Line Controller -/

section
variable (s)

@[simp] theorem markControl_core (l : LineId) : (markControl l s).core = s.core := by
  unfold markControl; split <;> rfl
@[simp] theorem setLineState_core (l : LineId) (st : LineState) (cause : LineCause) :
    (setLineState l st cause s).core = s.core := by
  unfold setLineState; dsimp only; split <;> simp
@[simp] theorem bindHandset_core (h : Handset) (l : LineId) : (bindHandset h l s).core = s.core := rfl
@[simp] theorem leaveLine_core (h : Handset) (l : LineId) : (leaveLine h l s).core = s.core := rfl
@[simp] theorem takeLine_core (h : Handset) (l : LineId) (cause : LineCause) : (takeLine h l cause s).core = s.core := by
  simp [takeLine]
@[simp] theorem enterRinging_core (l : LineId) : (enterRinging l s).core = s.core := by simp [enterRinging]
@[simp] theorem levelRule_core (l : LineId) : (levelRule l s).core = s.core := by
  unfold levelRule; dsimp only; split <;> simp
@[simp] theorem endLineSession_core (l : LineId) (cause : SessionCause) : (endLineSession l cause s).core = s.core := by
  unfold endLineSession; split <;> simp

@[simp] theorem clearLine_core (l : LineId) (cause : LineCause) (st : LineState) : (clearLine l cause st s).core = s.core := by
  have freed (hs : List Handset) : (hs.foldl (fun s h => freeHandset h s) s).core = s.core := core_foldl (f := fun s h => freeHandset h s) (fun _ _ => rfl) hs s
  unfold clearLine
  dsimp only
  split <;> simp [freed]

@[simp] theorem lineParty_core (l : LineId) (p : PosId) : (lineParty l p s).core = s.core := by
  unfold lineParty; split <;> simp

theorem recorderCheck_core {p : PosId} {st : Status} {s : State} (check : recorderCheck l p s = some (v, st)) :
    v.core = s.core := by
  obtain ⟨ru, rec_, rfl⟩ := recorderCheck_given check
  rfl

@[simp] theorem abandonRing_core (l : LineId) : (abandonRing l s).core = s.core := by simp [abandonRing]

@[simp] theorem farEndChange_core (l : LineId) (far : Hook) : (farEndChange l far s).core = s.core := by
  unfold farEndChange; dsimp only; split <;> simp

@[simp] theorem ringChange_core (l : LineId) (ind : RingInd) : (ringChange l ind s).core = s.core := by
  unfold ringChange
  dsimp only
  split
  · rfl
  · split
    · simp
    · split <;> simp
    · rfl

@[simp] theorem signalWord_core (l : LineId) (w : Word) : (signalWord l w s).core = s.core := by
  unfold signalWord
  dsimp only
  split_ifs <;> simp

@[simp] theorem holdRecallExpiry_core (l : LineId) : (holdRecallExpiry l s).core = s.core := by
  unfold holdRecallExpiry
  dsimp only
  split
  · split <;> simp
  · rfl

@[simp] theorem seizeIdle_core (h : Handset) (l : LineId) : (seizeIdle h l s).1.core = s.core := by
  unfold seizeIdle
  split
  · rfl
  · next check => simp [recorderCheck_core check]

@[simp] theorem seizeRinging_core (h : Handset) (l : LineId) : (seizeRinging h l s).1.core = s.core := by
  unfold seizeRinging
  split
  · rfl
  · split_ifs
    · rfl
    · simp
    · split
      · rfl
      · next check => simp [recorderCheck_core check]

@[simp] theorem seizeConnected_core (h : Handset) (l : LineId) : (seizeConnected h l s).1.core = s.core := by
  unfold seizeConnected; dsimp only; split_ifs <;> simp
@[simp] theorem seizeHeld_core (h : Handset) (l : LineId) : (seizeHeld h l s).1.core = s.core := by
  unfold seizeHeld; dsimp only; split <;> simp

@[simp] theorem seize_core (pos side line : Byte) : (seize pos side line s).1.core = s.core := by
  unfold seize
  split
  · dsimp only
    split_ifs
    iterate 4 rfl
    split <;> simp
  · rfl

@[simp] theorem release_core (pos side : Byte) : (release pos side s).1.core = s.core := by
  unfold release
  split
  · rfl
  · dsimp only; split <;> simp

@[simp] theorem hold_core (pos side : Byte) : (hold pos side s).1.core = s.core := by
  unfold hold
  split
  · rfl
  · split <;> simp

@[simp] theorem privacy_core (pos side value : Byte) : (privacy pos side value s).1.core = s.core := by
  unfold privacy
  split
  · rfl
  · split <;> rfl

@[simp] theorem forceClear_core (line : Byte) : (forceClear line s).1.core = s.core := by
  unfold forceClear
  split
  · rfl
  · split <;> simp

@[simp] theorem lineSet_core (line type pad preferred ringDelay policy : Byte) (recallTime : Half) :
    (lineSet line type pad preferred ringDelay policy recallTime s).1.core = s.core := by
  unfold lineSet
  split
  · split <;> simp
  · rfl

@[simp] theorem appearSet_core (pos key line : Byte) : (appearSet pos key line s).1.core = s.core := by
  unfold appearSet
  split
  · dsimp only
    split_ifs
    iterate 3 rfl
    split <;> split <;> simp
  · rfl

@[simp] theorem handsetSet_core (pos side volume micPad : Byte) : (handsetSet pos side volume micPad s).1.core = s.core := by
  unfold handsetSet; split <;> rfl

@[simp] theorem bridge_core (g : GroupId) (l : LineId) : (bridge g l s).core = s.core := by
  unfold bridge; split <;> simp
@[simp] theorem unbridge_core (l : LineId) : (unbridge l s).core = s.core := by
  unfold unbridge; split <;> simp
@[simp] theorem restartLine_core (l : LineId) : (restartLine l s).core = s.core := by
  unfold restartLine; split <;> simp
@[simp] theorem restartLines_core : (restartLines s).core = s.core := core_foldl (fun s l => restartLine_core s l) _ s

end

/-! ## The Talk Floor Controller -/

section
variable (s)

@[simp] theorem endGroupSession_core (g : GroupId) (cause : SessionCause) : (endGroupSession g cause s).core = s.core := by
  unfold endGroupSession; split <;> simp
@[simp] theorem startHang_core (g : GroupId) : (startHang g s).core = s.core := by
  unfold startHang; dsimp only; split_ifs <;> simp

@[simp] theorem hangExpiry_core (g : GroupId) : (hangExpiry g s).core = s.core := by
  unfold hangExpiry
  split
  · rfl
  · split <;> simp

@[simp] theorem bridgedOut_core (l : LineId) : (bridgedOut l s).core = s.core := by
  unfold bridgedOut
  split <;> simp [removeHoot]

@[simp] theorem lineService_core (line dir : Byte) : (lineService line dir s).1.core = s.core := by
  unfold lineService
  split
  · split <;> simp
  · split <;> simp
  · rfl

@[simp] theorem grantPlace_core (g : GroupId) (p : PosId) (standing : Bool) : (grantPlace g p standing s).core = s.core := by
  unfold grantPlace; dsimp only; split <;> simp

@[simp] theorem grantPassN_core (n : Nat) (g : GroupId) : (grantPassN n g s).core = s.core := by
  induction n generalizing s with
  | zero => rfl
  | succ n ih =>
    unfold grantPassN
    split
    · rfl
    · split
      · rw [ih]; simp
      · rfl

@[simp] theorem grantPass_core (g : GroupId) : (grantPass g s).core = s.core := grantPassN_core ..

theorem allocateGroup_core {parties : List PosId} {s : State} (h : allocateGroup g parties s = some t) : t.core = s.core := by
  unfold allocateGroup at h
  obtain ⟨⟨c, v⟩, a, e⟩ := Option.map_eq_some_iff.1 h
  cases e
  rw [modGroup_core, allocate_frame a]
  rfl

theorem groupCheck_core {policy : Policy} {parties : List PosId} {st : Status} {s : State}
    (h : groupCheck g policy parties s = some (t, st)) : t.core = s.core := by
  unfold groupCheck at h
  split at h
  · cases h; rfl
  · split at h
    · next a => cases h; exact allocateGroup_core a
    · cases h; rfl
  · obtain ⟨v, a, e⟩ := Option.map_eq_some_iff.1 h
    cases e
    exact allocateGroup_core a

@[simp] theorem talkFull_core (g : GroupId) (p : PosId) : (talkFull g p s).1.core = s.core := by
  unfold talkFull
  dsimp only
  split
  · simp [preempt]
  · split <;> rfl

@[simp] theorem talk_core (pos group : Byte) : (talk pos group s).1.core = s.core := by
  unfold talk
  split
  · dsimp only
    split_ifs
    iterate 4 rfl
    · split
      · rfl
      · next check => simp [groupCheck_core check]
    · simp
    · simp
  · rfl

@[simp] theorem talkEnd_core (pos group : Byte) : (talkEnd pos group s).1.core = s.core := by
  unfold talkEnd
  split
  · dsimp only
    split_ifs <;> simp
  · rfl

@[simp] theorem queueTimeoutExpiry_core (g : GroupId) : (queueTimeoutExpiry g s).core = s.core := by
  unfold queueTimeoutExpiry; split <;> simp
@[simp] theorem talkLimitExpiry_core (g : GroupId) : (talkLimitExpiry g s).core = s.core := by
  unfold talkLimitExpiry; split <;> simp

theorem recordingStep_core {members : PosSet} {hoots : List LineId} {most : Nat} {policy : Policy} {st : Status} {s : State}
    (records : recordingStep g members hoots most policy s = some (v, st)) : v.core = s.core := by
  unfold recordingStep at records
  dsimp only at records
  split_ifs at records
  · cases records; rfl
  · exact groupCheck_core records
  · exact groupCheck_core records
  · cases records; rfl

@[simp] theorem hangStep_core (g : GroupId) (recorded : Bool) : (hangStep g recorded s).core = s.core := by
  unfold hangStep; dsimp only; split_ifs <;> simp

theorem applyGroup_core (c : GroupArgs) (hoots : List LineId) (policy : Policy) (old : GroupRec) :
    (applyGroup g c hoots policy old s).core = s.core := by
  simp only [applyGroup, hangStep_core, grantPass_core, limitStep, membershipStep, postAll_core, modGroup_core]
  rw [core_foldl fun s l => bridge_core s g l, core_foldl fun s l => unbridge_core s l, modGroup_core]

@[simp] theorem groupSet_core (group : Byte) (c : GroupArgs) : (groupSet group c s).1.core = s.core := by
  unfold groupSet
  split
  · split
    · split
      · rfl
      · split
        · rfl
        · next records => dsimp only; rw [applyGroup_core, recordingStep_core records]
    · rfl
  · rfl

@[simp] theorem restartGroup_core (g : GroupId) : (restartGroup g s).core = s.core := by
  unfold restartGroup; dsimp only; split <;> simp
@[simp] theorem restartGroups_core : (restartGroups s).core = s.core := core_foldl (fun s g => restartGroup_core s g) _ s

@[simp] theorem bridgeGroup_core (g : GroupId) : (bridgeGroup g s).core = s.core := by
  unfold bridgeGroup
  dsimp only
  split
  · rfl
  · rw [core_foldl fun s l => bridge_core s g l]
    split
    · next check => exact groupCheck_core check
    · rfl

@[simp] theorem bridgeGroups_core : (bridgeGroups s).core = s.core := core_foldl (fun s g => bridgeGroup_core s g) _ s

end

/-! ## The Mix Planner, the path unit and the Command and Event Unit -/

section
variable (s)

@[simp] theorem positionSet_core (pos micPad duck ringLevel recallLevel supervisor : Byte) :
    (positionSet pos micPad duck ringLevel recallLevel supervisor s).1.core = s.core := by
  unfold positionSet; split <;> rfl

@[simp] theorem speakerSet_core (pos chan kind subject flags volume : Byte) :
    (speakerSet pos chan kind subject flags volume s).1.core = s.core := by
  unfold speakerSet
  split
  · rfl
  · dsimp only
    split
    · rfl
    · split <;> rfl
  · rfl

@[simp] theorem acceptRead_core (b : Burst) : (acceptRead b s).core = s.core := by
  unfold acceptRead; split <;> rfl

@[simp] theorem grantOwn_core (a : OwnAccess) : (grantOwn a s).core = s.core := by
  unfold grantOwn clearMark
  dsimp only
  split <;> rfl

@[simp] theorem commandPost_core (v : Word) : (commandPost v s).core = s.core := by
  unfold commandPost
  split
  · simp
  · rfl

@[simp] theorem commandFetch_core : (commandFetch s).core = s.core := by
  unfold commandFetch; split <;> rfl

@[simp] theorem eventConsumed_core (v : Word) : (eventConsumed v s).core = s.core := by
  unfold eventConsumed
  split
  · rfl
  · exact drain_core ..

@[simp] theorem writeSnapshot_core (target : Addr) (bs : List Byte) : (writeSnapshot target bs s).core = s.core :=
  core_foldl (fun s (b : List Byte × Nat) => requestOwn_core s .snapshot (target + BitVec.ofNat 36 (64 * b.2)) b.1) _ s

end

end Sys2Proof.Machine

namespace Sys2Proof.Machine

variable {s t u v : State} {c : Instr} {a : OwnAccess} {k : Nat} {error : Bool}

/-! # Faults are added, and nothing else of the core moves (R170) -/

/-- The first fault stays, and the count does not fall (R170). -/
structure FaultsGrow (f g : FaultRecord) : Prop where
  first : ∀ x, f.first = some x → g.first = some x
  count : f.count.toNat ≤ g.count.toNat

theorem FaultsGrow.refl (f : FaultRecord) : FaultsGrow f f := ⟨fun _ => id, le_refl _⟩
theorem FaultsGrow.of_eq {f g : FaultRecord} (same : g = f) : FaultsGrow f g := same ▸ .refl f
theorem FaultsGrow.trans {f g h : FaultRecord} (a : FaultsGrow f g) (b : FaultsGrow g h) : FaultsGrow f h :=
  ⟨fun x first => b.first x (a.first x first), a.count.trans b.count⟩

/-- The count of faults saturates (R170). -/
theorem le_satSucc (n : Word) : n.toNat ≤ (satSucc n).toNat := by
  unfold satSucc
  split
  · exact le_refl _
  · next below =>
    have : n.toNat ≠ 2 ^ 32 - 1 := fun e => below (BitVec.eq_of_toNat_eq e)
    bv_omega

theorem recordFault_grows (code : FaultCode) (kind : AccessKind) (addr : Addr) (s : State) :
    FaultsGrow s.cu.fault (recordFault code kind addr s).cu.fault :=
  ⟨fun x first => by simp [recordFault, first], le_satSucc _⟩

/-- Of the core nothing has moved but the Fault Record, in which faults may have been added. -/
structure Steady (s t : State) : Prop where
  core : t.core = { s.core with fault := t.cu.fault }
  fault : FaultsGrow s.cu.fault t.cu.fault

theorem Steady.of_core (same : t.core = s.core) : Steady s t := by
  have fault : t.cu.fault = s.cu.fault := (congrArg Core.fault same :)
  exact ⟨by rw [same, fault]; rfl, .of_eq fault⟩

theorem Steady.trans (a : Steady s t) (b : Steady t u) : Steady s u :=
  ⟨by rw [b.core, a.core], a.fault.trans b.fault⟩

theorem Steady.after (b : Steady t u) (same : t.core = s.core) : Steady s u := (Steady.of_core same).trans b
theorem Steady.pending (a : Steady s t) : t.pending = s.pending := (congrArg Core.pending a.core :)

/-! ## Responses (R126) -/

theorem takeFlight_core {which : Purpose → Bool} (back : takeFlight which k s = some (a, u)) : u.core = s.core := by
  unfold takeFlight at back
  split at back <;> cases back
  rfl

theorem steady_recordFault (code : FaultCode) (kind : AccessKind) (addr : Addr) (s : State) :
    Steady s (recordFault code kind addr s) := ⟨rfl, recordFault_grows ..⟩

theorem steady_memoryFault (a : OwnAccess) (s : State) : Steady s (memoryFault a s) := by
  rcases memoryFault_cases s a with is | is <;> rw [is]
  · exact steady_recordFault ..
  · exact (steady_recordFault ..).trans (.of_core (post_core ..))

theorem steady_faultIf (error : Bool) (a : OwnAccess) (s : State) : Steady s (faultIf error a s) := by
  cases error
  · exact .of_core rfl
  · exact steady_memoryFault a s

theorem steady_faulted {which : Purpose → Bool} (back : takeFlight which k s = some (a, u)) : Steady s (faultIf error a u) :=
  (steady_faultIf ..).after (takeFlight_core back)

theorem steady_controlWordWriteResponse (k : Nat) (error : Bool) (s : State) :
    Steady s (controlWordWriteResponse k error s) := by
  unfold controlWordWriteResponse
  split
  · exact .of_core rfl
  · next back => exact steady_faulted back

theorem steady_indexWordWriteResponse (k : Nat) (error : Bool) (s : State) : Steady s (indexWordWriteResponse k error s) := by
  unfold indexWordWriteResponse
  split
  · exact .of_core rfl
  · next back => exact steady_faulted back

theorem steady_statusWordWriteResponse (next : execStatusWordWriteResponse k error s = .next t) : Steady s t := by
  unfold execStatusWordWriteResponse at next
  split at next <;> cases next
  · exact .of_core rfl
  · next back => exact steady_faulted back

theorem steady_frameWriteResponse (k : Nat) (error : Bool) (s : State) : Steady s (frameWriteResponse k error s) := by
  unfold frameWriteResponse
  split
  · exact .of_core rfl
  · next back =>
    split
    · exact (steady_faulted back).trans (.of_core (frameReturned_core ..))
    · exact .of_core rfl

theorem steady_logWriteResponse (k : Nat) (error : Bool) (s : State) : Steady s (logWriteResponse k error s) := by
  unfold logWriteResponse
  split
  · exact .of_core rfl
  · next back =>
    dsimp only
    split
    · split
      · exact (steady_faulted back).trans (.of_core rfl)
      · exact steady_faulted back
    · exact (steady_faulted back).trans (.of_core rfl)
    · exact .of_core rfl

theorem steady_eventWriteResponse (k : Nat) (error : Bool) (s : State) : Steady s (eventWriteResponse k error s) := by
  unfold eventWriteResponse
  split
  · exact .of_core rfl
  · next back =>
    dsimp only
    split
    · exact (steady_faulted back).trans (.of_core rfl)
    · exact steady_faulted back

theorem steady_snapshotWriteResponse (k : Nat) (error : Bool) (s : State) : Steady s (snapshotWriteResponse k error s) := by
  unfold snapshotWriteResponse
  split
  · exact .of_core rfl
  · next a u back =>
    have told : Steady s { faultIf error a u with cu := { (faultIf error a u).cu with
        snapError := (faultIf error a u).cu.snapError || error } } := (steady_faulted back).trans (.of_core rfl)
    unfold snapshotReturned
    dsimp only
    split
    · exact told
    · exact told.trans (.of_core (complete_core ..))

theorem steady_commandFetchResponse (error : Bool) (slot : Table 32 Byte) (s : State) :
    Steady s (commandFetchResponse error slot s) := by
  unfold commandFetchResponse
  split
  · exact .of_core rfl
  · next a u back =>
    have taken := takeFlight_core back
    split
    · unfold fetched
      dsimp only
      split
      · exact ((steady_memoryFault a (setCurrent slot.rows u)).trans (.of_core (complete_core ..))).after taken
      · split
        · exact .of_core ((complete_core ..).trans taken)
        · exact .of_core taken
    · exact .of_core taken

/-! ## The path unit's transactions (R109, R121, R123) -/

theorem steady_downstreamGrant (next : execDownstreamGrant s = .next t) : Steady s t := by
  refine .of_core ?_
  unfold execDownstreamGrant at next
  split at next
  · cases next; rfl
  · cases next; exact grantOwn_core ..
  · cases next; rfl
  · split at next <;> cases next
    · rfl
    · exact grantOwn_core ..

theorem steady_passThroughResponse {resp : Resp} {data : List (BitVec 64)}
    (next : execPassThroughResponse k resp data s = .next t) : Steady s t := by
  unfold execPassThroughResponse at next
  split at next <;> cases next <;> exact .of_core rfl

theorem steady_read {b : Burst} (next : execUpstreamRead b s = .next t) : Steady s t := by
  unfold execUpstreamRead at next
  split at next <;> cases next
  exact .of_core (acceptRead_core ..)

/-! ## Every command but those of the voice path and the loader -/

/-- The commands that move frames in the path unit, clear its counters, or leave an operating state. -/
def MovesCore : Instr → Prop
  | .query .. | .restart | .frameEventMix | .configReadResponse .. | .anchorWrite .. | .upstreamWrite .. | .powerOn ..
  | .resetN .. => True
  | _ => False

theorem steady_runCommand {act : State → State × Status} (acts : ∀ s, (act s).1.core = s.core)
    (next : runCommand c act s = .next t) : Steady s t := by
  unfold runCommand at next
  split at next <;> cases next
  · exact .of_core ((complete_core ..).trans (acts s))
  · exact .of_core rfl

theorem steady_inRunning {act : State → State} (acts : ∀ s, Steady s (act s)) (next : inRunning act s = .next t) :
    Steady s t := inRunning_keeps (P := Steady s) (.of_core rfl) (fun _ => acts s) next

theorem steady_arrival {act : State → State} (acts : ∀ s, (act s).core = s.core) (next : inRunning act s = .next t) :
    Steady s t := steady_inRunning (fun s => .of_core (acts s)) next

/-- A watched word that its block takes from the hand-over list. -/
theorem steady_word {act : State → State} {w : Handed} (acts : ∀ s, (act s).core = s.core)
    (next : inRunning (fun s => act (takeHanded w s)) s = .next t) : Steady s t :=
  steady_arrival (fun s => acts (takeHanded w s)) next

theorem exec_steady (off : ¬MovesCore c) (next : exec c s = .next t) : Steady s t := by
  cases c with
  | lineSet line type pad preferred ringDelay policy recallTime =>
    exact steady_runCommand (lineSet_core · line type pad preferred ringDelay policy recallTime) next
  | lineService line dir => exact steady_runCommand (lineService_core · line dir) next
  | appearSet pos key line => exact steady_runCommand (appearSet_core · pos key line) next
  | seize pos side line => exact steady_runCommand (seize_core · pos side line) next
  | release pos side => exact steady_runCommand (release_core · pos side) next
  | hold pos side => exact steady_runCommand (hold_core · pos side) next
  | privacy pos side value => exact steady_runCommand (privacy_core · pos side value) next
  | forceClear line => exact steady_runCommand (forceClear_core · line) next
  | handsetSet pos side volume micPad => exact steady_runCommand (handsetSet_core · pos side volume micPad) next
  | positionSet pos micPad duck ringLevel recallLevel supervisor =>
    exact steady_runCommand (positionSet_core · pos micPad duck ringLevel recallLevel supervisor) next
  | speakerSet pos chan kind subject flags volume =>
    exact steady_runCommand (speakerSet_core · pos chan kind subject flags volume) next
  | groupSet group cfg => exact steady_runCommand (groupSet_core · group cfg) next
  | talk pos group => exact steady_runCommand (talk_core · pos group) next
  | talkEnd pos group => exact steady_runCommand (talkEnd_core · pos group) next
  | recorderSet chan baseA ceilA baseB ceilB => exact steady_runCommand (recorderSet_core · chan baseA ceilA baseB ceilB) next
  | recordReturn chan buffer => exact steady_runCommand (recordReturn_core · chan buffer) next
  | commandPost v => exact steady_word (commandPost_core · v) next
  | commandFetch => exact steady_arrival commandFetch_core next
  | commandFetchResponse error slot => exact steady_inRunning (steady_commandFetchResponse error slot) next
  | eventConsumed v => exact steady_word (eventConsumed_core · v) next
  | eventWriteResponse k error => exact steady_inRunning (steady_eventWriteResponse k error) next
  | logConsumed v => exact steady_word (logConsumed_core · v) next
  | signalWord l w => exact steady_word (signalWord_core · l w) next
  | holdRecallExpiry l => exact steady_arrival (holdRecallExpiry_core · l) next
  | ringDelayExpiry l => exact steady_arrival (ringDelayExpiry_core · l) next
  | queueTimeoutExpiry g => exact steady_arrival (queueTimeoutExpiry_core · g) next
  | talkLimitExpiry g => exact steady_arrival (talkLimitExpiry_core · g) next
  | hangExpiry g => exact steady_arrival (hangExpiry_core · g) next
  | frameInPulse n => exact steady_arrival (frameInPulse_core · n) next
  | pulseWatchExpiry => exact steady_arrival pulseWatchExpiry_core next
  | freewheelTimerExpiry => exact steady_arrival freewheelExpiry_core next
  | recorderFrames => exact steady_arrival recorderFrames_core next
  | sessionSegment c => exact steady_arrival (sessionSegment_core · c) next
  | frameWriteResponse k error => exact steady_inRunning (steady_frameWriteResponse k error) next
  | logWriteResponse k error => exact steady_inRunning (steady_logWriteResponse k error) next
  | controlWordWriteResponse k error => exact steady_inRunning (steady_controlWordWriteResponse k error) next
  | snapshotWriteResponse k error => exact steady_inRunning (steady_snapshotWriteResponse k error) next
  | indexWordWriteResponse k error => exact steady_inRunning (steady_indexWordWriteResponse k error) next
  | statusWordWriteResponse k error => exact steady_statusWordWriteResponse next
  | timeSyncWord w => exact steady_word (timeSync_core · w) next
  | upstreamRead b => exact steady_read next
  | outboundRead b => exact steady_read next
  | passThroughResponse k resp data => exact steady_passThroughResponse next
  | downstreamGrant => exact steady_downstreamGrant next
  | _ => exact absurd trivial off

end Sys2Proof.Machine

namespace Sys2Proof.Machine

variable {s t u v : State} {c : Instr}

/-! # The commands that move the core: what becomes of it -/

/-! ## Frames are captured (R113 to R117) -/

/-- Of the core only the input queues and their totals have moved. -/
def Captures (s t : State) : Prop := t.core = { s.core with queues := t.pu.queues, totals := t.pu.totals }

theorem Captures.trans (a : Captures s t) (b : Captures t u) : Captures s u := by
  unfold Captures at *
  rw [b, a]

theorem assemble_captures (i : SourceId) (k : SlotId) (bytes : List (Nat × Byte)) (s : State) :
    Captures s (assemble i k bytes s) := by
  unfold assemble
  dsimp only
  split <;> rfl

theorem captureBeat_captures (bytes : List (Nat × Byte)) (s : State) : Captures s (captureBeat bytes s) := by
  unfold captureBeat
  split
  · rfl
  · split
    · exact assemble_captures ..
    · rfl

theorem captureBeats_captures (beats : List (List (Nat × Byte))) (s : State) :
    Captures s (beats.foldl (fun s b => captureBeat b s) s) := by
  induction beats generalizing s with
  | nil => rfl
  | cons b beats ih => exact (captureBeat_captures b s).trans (ih _)

theorem acceptWrite_captures (x : WriteTxn) (s : State) : Captures s (acceptWrite x s) :=
  captureBeats_captures (txnBytes x) (forward (.write x) s)

/-! ## The voice path is emptied, or its counters cleared (R118, R119) -/

theorem mixFrame_core (n : Word) (s : State) : (mixFrame n s).core =
    { s.core with queues := (mixFrame n s).pu.queues, totals := (mixFrame n s).pu.totals, store := (mixFrame n s).pu.store } :=
  rfl

/-- The core that RESTART leaves: every queue flushed and counted, the Output Store empty, FAULTn perhaps released. -/
def Core.flushed (x : Core) : Core :=
  { x with
    queues := .replicate 120 []
    totals := .build fun i =>
      { x.totals.get i with flushed := (x.totals.get i).flushed + BitVec.ofNat 32 (x.queues.get i).length }
    store := .replicate 160 []
    fault := x.fault.released }

theorem flushed_core (s : State) : (flushed s).core = s.core.flushed := by
  simp only [flushed_eq, State.core, Core.flushed, PathUnit.flushed]

theorem restart_core (s : State) : (restart s).1.core = s.core.flushed := by
  have before : (restartGroups (restartLines s)).core = s.core := by simp
  rw [restart_eq, flushed_core, before]

/-- The totals with a clear of COUNTERS, if there was one (R119). -/
theorem clearAfter_core (s : State) (item : QueryItem) : (clearAfter s item).core = s.core ∨
    (clearAfter s item).core = { s.core with totals := s.pu.totals.map Totals.cleared } := by
  cases item with
  | counters => exact .inr rfl
  | _ => exact .inl rfl

theorem query_core {kind index clear : Byte} {target : Addr} (next : execQuery kind index clear target s = .next t) :
    t.core = s.core ∨ t.core = { s.core with totals := s.pu.totals.map Totals.cleared } := by
  unfold execQuery at next
  split at next
  · split at next
    · cases next; exact .inl (complete_core ..)
    · next item c _ =>
      cases next
      have taken (v : State) : (takeSnapshot item c target s).core = (if c then clearAfter s item else s).core :=
        writeSnapshot_core ..
      rw [taken s]
      split
      · exact clearAfter_core s item
      · exact .inl rfl
  · cases next; exact .inl rfl

/-! ## The Configuration Loader (R177 to R180) -/

@[simp] theorem storeSection_core (ident : Nat) (body : List Byte) (s : State) : (storeSection ident body s).core = s.core := by
  unfold storeSection; split <;> rfl

@[simp] theorem requestImage_core (s : State) : (requestImage s).core = s.core := rfl
@[simp] theorem nextSection_core (length : Nat) (s : State) : (nextSection length s).core = s.core := storeSection_core ..

theorem startLoad_core (v : Word) (s : State) : (startLoad v s).core = { s.core with op := .loading } := rfl

theorem configFault_core (code : FaultCode) (offset : Nat) (s : State) : (configFault code offset s).core =
    { s.core with op := .configFault, fault := (configFault code offset s).cu.fault } := rfl

theorem configFault_grows (code : FaultCode) (offset : Nat) (s : State) :
    FaultsGrow s.cu.fault (configFault code offset s).cu.fault :=
  recordFault_grows code .config _ { s with ld := { s.ld with op := .configFault } }

/-- The core at the entry into RUNNING (R107, R180): the regions of the image, and no frame. -/
def Core.entered (x : Core) (regions : Regions) : Core :=
  { x with regions := regions, queues := .replicate 120 [], store := .replicate 160 []
           fault := { x.fault with asserted := false }, op := .running }

theorem markLines_core (s : State) : (markLines s).core = s.core := core_foldl (fun s l => markControl_core s l) _ s

theorem enterRunning_core (length : Nat) (s : State) : (enterRunning length s).core = s.core.entered s.ld.regions := by
  have marked := markLines_core (enterCounts (enterPath s))
  generalize is : markLines (enterCounts (enterPath s)) = v at marked
  have bridged := bridgeGroups_core (writeZeroIndices (releaseFault v))
  have released : (writeZeroIndices (releaseFault v)).core =
      { v.core with fault := { v.core.fault with asserted := false } } := rfl
  have last (w : State) : (startTimer (writeStatus .running .none length w)).core = w.core := rfl
  rw [enterRunning, is, last, bridged, released, marked]
  rfl

/-- What the bytes of an image may do to the core: the load goes on, ends in CONFIG_FAULT, or in RUNNING. -/
inductive LoadMoves (s t : State) : Prop
  | goesOn (core : t.core = s.core)
  | fails (core : t.core = { s.core with op := .configFault, fault := t.cu.fault }) (fault : FaultsGrow s.cu.fault t.cu.fault)
  | runs (regions : Regions) (core : t.core = s.core.entered regions)

theorem LoadMoves.after (moves : LoadMoves t u) (same : t.core = s.core) : LoadMoves s u := by
  have fault : t.cu.fault = s.cu.fault := (congrArg Core.fault same :)
  cases moves with
  | goesOn core => exact .goesOn (core.trans same)
  | fails core grows => exact .fails (same ▸ core) (fault ▸ grows)
  | runs regions core => exact .runs regions (same ▸ core)

theorem takeSections_moves : ∀ (n : Nat) (s : State), LoadMoves s (takeSections n s)
  | 0, s => .goesOn rfl
  | n + 1, s => by
    unfold takeSections
    split
    · exact .goesOn rfl
    · exact .fails rfl (configFault_grows ..)
    · exact .fails rfl (configFault_grows ..)
    · exact (takeSections_moves n _).after (nextSection_core ..)
    · exact .runs _ (enterRunning_core ..)

/-- Outside LOADING the bytes are discarded, and an error may have been recorded. -/
theorem configReadResponse_moves {error : Bool} {data : List Byte} (next : execConfigReadResponse error data s = .next t) :
    Steady s t ∨ s.ld.op = .loading ∧ LoadMoves s t := by
  unfold execConfigReadResponse at next
  split at next
  · cases next; exact .inl (.of_core rfl)
  · next a u back =>
    have taken := takeFlight_core back
    split at next
    · next loading =>
      refine .inr ⟨loading, ?_⟩
      split at next <;> cases next
      · exact (LoadMoves.fails rfl (configFault_grows ..)).after taken
      · exact (takeSections_moves 10 { u with ld := { u.ld with buf := u.ld.buf ++ data } }).after taken
    · cases next; exact .inl (steady_faulted back)

/-- An image address value starts a load, outside LOADING and RUNNING, or does nothing. -/
theorem anchorWrite_core (v : Word) (s : State) : (anchorWrite v s).core = s.core ∨
    s.running = false ∧ (anchorWrite v s).core = { s.core with op := .loading } := by
  have loads (off : s.running = false) : (if v = 0 then s else startLoad v s).core = s.core ∨
      s.running = false ∧ (if v = 0 then s else startLoad v s).core = { s.core with op := .loading } := by
    split
    · exact .inl rfl
    · exact .inr ⟨off, rfl⟩
  unfold anchorWrite
  split
  · next op => exact loads (by simp [State.running, op])
  · next op => exact loads (by simp [State.running, op])
  · exact .inl rfl
  · exact .inl rfl

/-- A host command completes after its act, which may have needed RUNNING; or nothing happens. -/
theorem runCommand_core {act : State → State × Status} (next : runCommand c act s = .next t) :
    t.core = s.core ∨ s.running = true ∧ t.core = (act s).1.core := by
  unfold runCommand at next
  split at next
  · next holds =>
    cases next
    simp only [State.holds, Bool.and_eq_true] at holds
    obtain ⟨⟨run, -⟩, -⟩ := holds
    exact .inr ⟨run, complete_core ..⟩
  · cases next; exact .inl rfl

theorem frameEventMix_core (s : State) : (frameEventMix s).core = s.core ∨ ∃ n rest, (frameEventMix s).core =
    (mixFrame n { s with me := { s.me with waiting := rest } }).core := by
  unfold frameEventMix
  split
  · exact .inl rfl
  · next n rest _ => exact .inr ⟨n, rest, rfl⟩

/-! # Every command: the queue stays, and faults are forgotten at power-on alone (R170) -/

/-- The queue stays, and the Fault Record keeps its first fault and its count. -/
structure Kept (s t : State) : Prop where
  pending : t.pending = s.pending
  fault : FaultsGrow s.cu.fault t.cu.fault

theorem Steady.kept (a : Steady s t) : Kept s t := ⟨a.pending, a.fault⟩

/-- What such a step leaves of the queue and the Fault Record is read off its core. -/
theorem Kept.of_core {x : Core} (core : t.core = x) (pending : x.pending = s.pending) (fault : FaultsGrow s.cu.fault x.fault) :
    Kept s t := by subst core; exact ⟨pending, fault⟩

theorem Kept.same (core : t.core = s.core) : Kept s t := (Steady.of_core core).kept

theorem LoadMoves.kept (moves : LoadMoves s t) : Kept s t := by
  cases moves with
  | goesOn core => exact .same core
  | fails core grows => exact .of_core core rfl grows
  | runs regions core => exact .of_core core rfl ⟨fun _ => id, le_refl _⟩

theorem exec_kept (next : exec c s = .next t) (power : ∀ straps, c ≠ .powerOn straps) : Kept s t := by
  by_cases moves : MovesCore c
  · cases c with
    | query kind index clear target =>
      rcases query_core next with core | core
      · exact .same core
      · exact .of_core core rfl (.refl _)
    | restart =>
      rcases runCommand_core next with core | ⟨-, core⟩
      · exact .same core
      · exact .of_core (core.trans (restart_core s)) rfl ⟨fun _ => id, le_refl _⟩
    | frameEventMix =>
      refine inRunning_keeps (P := Kept s) (.same rfl) (fun _ => ?_) next
      rcases frameEventMix_core s with core | ⟨n, rest, core⟩
      · exact .same core
      · exact .of_core core rfl (.refl _)
    | configReadResponse error data =>
      rcases configReadResponse_moves next with steady | ⟨-, moves⟩
      · exact steady.kept
      · exact moves.kept
    | anchorWrite v =>
      cases next
      rcases anchorWrite_core v (takeHanded (.anchor v) s) with core | ⟨-, core⟩
      · exact .same core
      · exact .of_core core rfl (.refl _)
    | upstreamWrite x =>
      simp only [exec, execUpstreamWrite] at next
      split at next <;> cases next
      exact .of_core (acceptWrite_captures x s) rfl (.refl _)
    | powerOn straps => exact absurd rfl (power straps)
    | resetN straps => cases next; exact ⟨rfl, .refl _⟩
    | _ => exact moves.elim
  · exact (exec_steady moves next).kept

/-- Settles O11: `exec_kept` over all commands but power-on. -/
theorem onlyPowerOnForgetsFaults : Obligations.OnlyPowerOnForgetsFaults := fun _ _ _ next power =>
  have fault := (exec_kept next power).fault
  ⟨fault.first, fault.count⟩

theorem exec_pending (next : exec c s = .next t) : t.pending = s.pending := by
  by_cases power : ∃ straps, c = .powerOn straps
  · obtain ⟨straps, rfl⟩ := power
    cases next
    rfl
  · exact (exec_kept next fun straps is => power ⟨straps, is⟩).pending

/-! # Every command is carried out (R108, 00_scope.md section 3) -/

theorem runCommand_goes (c : Instr) (act : State → State × Status) (s : State) : ∃ t, runCommand c act s = .next t := by
  unfold runCommand
  split <;> exact ⟨_, rfl⟩

theorem inRunning_goes (act : State → State) (s : State) : ∃ t, inRunning act s = .next t := by
  unfold inRunning
  split <;> exact ⟨_, rfl⟩

/-- A transaction that is no AXI4 burst alone stops the part, with its fault (log 13). -/
theorem exec_goes (c : Instr) (s : State) :
    (∃ t, exec c s = .next t) ∨ c.wellFormed = false ∧ exec c s = .fault .malformedBurst := by
  cases c with
  | upstreamWrite x =>
    by_cases ok : writeOk x = true
    · exact .inl ⟨_, if_pos ok⟩
    · exact .inr ⟨by simpa [Instr.wellFormed] using ok, if_neg ok⟩
  | upstreamRead b | outboundRead b =>
    by_cases ok : burstOk b = true
    · exact .inl ⟨_, if_pos ok⟩
    · exact .inr ⟨by simpa [Instr.wellFormed] using ok, if_neg ok⟩
  | query =>
    left
    simp only [exec, execQuery]
    split
    · split <;> exact ⟨_, rfl⟩
    · exact ⟨_, rfl⟩
  | statusWordWriteResponse =>
    left
    simp only [exec, execStatusWordWriteResponse]
    split <;> exact ⟨_, rfl⟩
  | configReadResponse =>
    left
    simp only [exec, execConfigReadResponse]
    split
    · exact ⟨_, rfl⟩
    · split
      · split <;> exact ⟨_, rfl⟩
      · exact ⟨_, rfl⟩
  | passThroughResponse =>
    left
    simp only [exec, execPassThroughResponse]
    split <;> exact ⟨_, rfl⟩
  | downstreamGrant =>
    left
    simp only [exec, execDownstreamGrant]
    split
    iterate 3 exact ⟨_, rfl⟩
    split <;> exact ⟨_, rfl⟩
  | anchorWrite | powerOn | resetN => exact .inl ⟨_, rfl⟩
  | lineSet | lineService | appearSet | seize | release | hold | privacy | forceClear | handsetSet | positionSet | speakerSet
  | groupSet | talk | talkEnd | recorderSet | recordReturn | restart => exact .inl (runCommand_goes _ _ s)
  | commandPost | eventConsumed | logConsumed | signalWord | timeSyncWord =>
    left
    simp only [exec]
    exact inRunning_goes _ s
  | _ => exact .inl (inRunning_goes _ s)

/-- Settles O2: `exec_goes`, and `exec_pending` for the queue. -/
theorem everyCommandGoesOn : Obligations.EveryCommandGoesOn := fun c s => by
  rcases exec_goes c s with ⟨t, next⟩ | ⟨bad, stops⟩
  · exact ⟨fun _ => ⟨t, next⟩, .inl ⟨t, next, exec_pending next⟩⟩
  · exact ⟨fun good => absurd good (by simp [bad]), .inr stops⟩

end Sys2Proof.Machine

namespace Sys2Proof.Machine

variable {s t u v : State} {c : Instr} {x : Core}

/-! # Every step keeps the balance of the voice path (R117, R119, R120) -/

/-- The laws of the audio path read the core alone. -/
structure Core.Audio (x : Core) : Prop where
  balance : ∀ i : SourceId, (x.totals.get i).captured =
    (x.totals.get i).taken + (x.totals.get i).overrun + (x.totals.get i).flushed + BitVec.ofNat 32 (x.queues.get i).length
  depth : ∀ i : SourceId, (x.queues.get i).length ≤ 4
  store : ∀ j : ListenerId, (x.store.get j).length ≤ 4
  outside : x.op ≠ .running → x.regions.inbound = none ∧ ∀ i : SourceId, x.queues.get i = []

theorem audioLaw_iff : AudioLaw s ↔ s.core.Audio := by
  have out : s.running = false ↔ s.core.op ≠ .running := by simp [State.running, State.core]
  exact ⟨fun ⟨balance, depth, store, outside⟩ => ⟨balance, depth, store, fun off => outside (out.2 off)⟩,
    fun ⟨balance, depth, store, outside⟩ => ⟨balance, depth, store, fun off => outside (out.1 off)⟩⟩

theorem Core.Audio.withFault (law : x.Audio) (f : FaultRecord) : Core.Audio { x with fault := f } :=
  ⟨law.balance, law.depth, law.store, law.outside⟩

/-- Outside RUNNING it does not matter which other state the part is in. -/
theorem Core.Audio.withOp (law : x.Audio) (off : x.op ≠ .running) (op : OpState) : Core.Audio { x with op := op } :=
  ⟨law.balance, law.depth, law.store, fun _ => law.outside off⟩

/-- The bases of the totals, and the torn counts, do not matter. -/
theorem Core.Audio.cleared (law : x.Audio) : Core.Audio { x with totals := x.totals.map Totals.cleared } :=
  ⟨fun i => by simpa [Totals.cleared] using law.balance i, law.depth, law.store, law.outside⟩

/-- A flush moves what is queued into the total of what was flushed (R118). -/
theorem Core.Audio.flushed (law : x.Audio) : x.flushed.Audio where
  balance i := by
    have before := law.balance i
    simp only [Core.flushed, Table.get_build, Table.get_replicate, List.length_nil, before]
    bv_omega
  depth i := by simp [Core.flushed]
  store j := by simp [Core.flushed]
  outside off := ⟨(law.outside off).1, fun i => by simp [Core.flushed]⟩

/-- Before the entry into RUNNING the queues are empty, so that none has to be flushed. -/
theorem Core.Audio.entered (law : x.Audio) (off : x.op ≠ .running) (regions : Regions) : (x.entered regions).Audio where
  balance i := by
    have before := law.balance i
    rw [(law.outside off).2] at before
    simpa [Core.entered] using before
  depth i := by simp [Core.entered]
  store j := by simp [Core.entered]
  outside still := absurd rfl still

/-! ## A frame is captured, and a frame is taken (R115, R117, R118, R120) -/

/-- A queue and its totals balance, and the queue holds at most 4 frames. -/
def QueueOk (q : List Frame) (t : Totals) : Prop :=
  t.captured = t.taken + t.overrun + t.flushed + BitVec.ofNat 32 q.length ∧ q.length ≤ 4

theorem pushFrame_queueOk {q : List Frame} {t : Totals} (ok : QueueOk q t) (f : Frame) :
    QueueOk (pushFrame f q t).1 (pushFrame f q t).2 := by
  obtain ⟨balance, depth⟩ := ok
  unfold pushFrame Config.framePlaces
  split
  · refine ⟨?_, by simp; omega⟩
    have length : (q.tail ++ [f]).length = q.length := by simp; omega
    simp only [length, balance]
    bv_omega
  · refine ⟨?_, by simp; omega⟩
    simp only [List.length_append, List.length_singleton, balance]
    bv_omega

theorem openSlot_queueOk {q : List Frame} {t : Totals} (ok : QueueOk q t) (k : SlotId) (a : Assembly) :
    QueueOk q (openSlot k a t).2 := by
  unfold openSlot
  split
  · exact ok
  · split <;> exact ok

/-- One source's queue and totals are replaced by such as balance. -/
theorem Core.Audio.source (law : x.Audio) (i : SourceId) {q : List Frame} {t : Totals} (ok : QueueOk q t)
    (run : x.op = .running) : Core.Audio { x with queues := x.queues.set i q, totals := x.totals.set i t } where
  balance j := by
    simp only [Table.get_set]
    split
    · exact ok.1
    · exact law.balance j
  depth j := by
    simp only [Table.get_set]
    split
    · exact ok.2
    · exact law.depth j
  store := law.store
  outside off := absurd run off

theorem Table.set_get_self {n : Nat} {α : Type} (t : Table n α) (i : Fin n) : t.set i (t.get i) = t :=
  Table.ext_get fun j => by rw [Table.get_set]; split <;> simp_all

theorem Table.set_set {n : Nat} {α : Type} (t : Table n α) (i : Fin n) (a b : α) : (t.set i a).set i b = t.set i b :=
  Table.ext_get fun j => by simp only [Table.get_set]; split <;> rfl

section
variable {i : SourceId} {k : SlotId} {bytes : List (Nat × Byte)}

/-- The record of source `i` with the bytes of a beat into slot `k` marked, and its totals (R114). -/
def slotMarked (s : State) (i : SourceId) (k : SlotId) (bytes : List (Nat × Byte)) : Assembly × Totals :=
  let r := openSlot k (s.pu.assembly.get i) (s.pu.totals.get i)
  (⟨r.1.slot, markBytes bytes r.1.marks⟩, r.2)

theorem assemble_of_part (part : fullMarks (slotMarked s i k bytes).1.marks = none) : assemble i k bytes s =
    { s with pu := { s.pu with
      assembly := s.pu.assembly.set i (slotMarked s i k bytes).1
      totals := s.pu.totals.set i (slotMarked s i k bytes).2 } } := by
  simp only [slotMarked] at part
  simp only [assemble, part, slotMarked]

theorem assemble_of_full {all : List Byte} (full : fullMarks (slotMarked s i k bytes).1.marks = some all) :
    assemble i k bytes s =
      let r := pushFrame (frameOfBytes all) (s.pu.queues.get i) (slotMarked s i k bytes).2
      { s with pu := { s.pu with
        queues := s.pu.queues.set i r.1, totals := s.pu.totals.set i r.2, assembly := s.pu.assembly.set i .empty } } := by
  simp only [slotMarked] at full
  simp only [assemble, full, slotMarked, capture, Table.get_set_self, Table.set_set]

theorem assemble_audio (law : s.core.Audio) (run : s.core.op = .running) (i : SourceId) (k : SlotId)
    (bytes : List (Nat × Byte)) : (assemble i k bytes s).core.Audio := by
  have opened : QueueOk (s.pu.queues.get i) (slotMarked s i k bytes).2 := openSlot_queueOk ⟨law.balance i, law.depth i⟩ ..
  cases marks : fullMarks (slotMarked s i k bytes).1.marks with
  | none =>
    have next := law.source i opened run
    rw [assemble_of_part marks]
    rwa [show s.core.queues.set i (s.pu.queues.get i) = s.core.queues from Table.set_get_self ..] at next
  | some all =>
    rw [assemble_of_full marks]
    exact law.source i (pushFrame_queueOk opened _) run

end

/-- Outside RUNNING no inbound region is present, so that no beat is captured. -/
theorem captureBeat_audio (law : s.core.Audio) (bytes : List (Nat × Byte)) : (captureBeat bytes s).core.Audio := by
  unfold captureBeat
  split
  · exact law
  · next a _ _ =>
    split
    · next i k place =>
      refine assemble_audio law (not_not.1 fun off => ?_) ..
      have absent : s.pu.regions.inbound = none := (law.outside off).1
      simp [inboundPlace, offsetIn, absent] at place
    · exact law

theorem acceptWrite_audio (law : s.core.Audio) (x : WriteTxn) : (acceptWrite x s).core.Audio := by
  have beats (bs : List (List (Nat × Byte))) : ∀ v : State, v.core.Audio →
      (bs.foldl (fun s b => captureBeat b s) v).core.Audio := by
    induction bs with
    | nil => exact fun _ law => law
    | cons b bs ih => exact fun v law => ih _ (captureBeat_audio law b)
  exact beats (txnBytes x) (forward (.write x) s) law

theorem tail_queueOk {q : List Frame} {t : Totals} (ok : QueueOk q t) :
    QueueOk q.tail (if q.isEmpty then t else { t with taken := t.taken + 1 }) := by
  obtain ⟨balance, depth⟩ := ok
  cases q with
  | nil => exact ⟨balance, depth⟩
  | cons f q =>
    simp only [List.length_cons] at balance depth
    refine ⟨?_, by simp; omega⟩
    simp only [List.isEmpty_cons, Bool.false_eq_true, if_false, List.tail_cons, balance]
    bv_omega

theorem mixFrame_queueOk (law : s.core.Audio) (n : Word) (i : SourceId) :
    QueueOk ((mixFrame n s).pu.queues.get i) ((mixFrame n s).pu.totals.get i) := by
  rw [mixFrame_queues, mixFrame_totals]
  exact tail_queueOk ⟨law.balance i, law.depth i⟩

theorem placeFrame_length (n : Word) (f : Frame) {list : List StoredFrame} (depth : list.length ≤ 4) :
    (placeFrame n f list).length ≤ 4 := by
  simp only [placeFrame, Config.framePlaces, List.length_drop, List.length_append, List.length_singleton]
  omega

theorem mixFrame_audio (law : s.core.Audio) (n : Word) : (mixFrame n s).core.Audio where
  balance i := (mixFrame_queueOk law n i).1
  depth i := (mixFrame_queueOk law n i).2
  store j := by
    change ((mixFrame n s).pu.store.get j).length ≤ 4
    rw [mixFrame_store]
    exact placeFrame_length _ _ (law.store j)
  outside off := by
    obtain ⟨absent, empty⟩ := law.outside off
    refine ⟨absent, fun i => (mixFrame_queues n s i).trans ?_⟩
    exact congrArg List.tail (empty i)

/-! ## Every command -/

theorem LoadMoves.audio (moves : LoadMoves s t) (loading : s.ld.op = .loading) (law : s.core.Audio) : t.core.Audio := by
  have off : s.core.op ≠ .running := by simp [State.core, loading]
  cases moves with
  | goesOn core => rwa [core]
  | fails core _ => rw [core]; exact (law.withOp off .configFault).withFault _
  | runs regions core => rw [core]; exact law.entered off regions

theorem exec_audio (law : s.core.Audio) (next : exec c s = .next t) : t.core.Audio := by
  by_cases moves : MovesCore c
  · cases c with
    | query kind index clear target =>
      rcases query_core next with core | core <;> rw [core]
      · exact law
      · exact law.cleared
    | restart =>
      rcases runCommand_core next with core | ⟨-, core⟩ <;> rw [core]
      · exact law
      · rw [restart_core]; exact law.flushed
    | frameEventMix =>
      refine inRunning_keeps (P := fun t => t.core.Audio) law (fun _ => ?_) next
      rcases frameEventMix_core s with core | ⟨n, rest, core⟩ <;> rw [core]
      · exact law
      · exact mixFrame_audio (s := { s with me := { s.me with waiting := rest } }) law n
    | configReadResponse error data =>
      rcases configReadResponse_moves next with steady | ⟨loading, moves⟩
      · rw [steady.core]; exact law.withFault _
      · exact moves.audio loading law
    | anchorWrite v =>
      cases next
      rcases anchorWrite_core v (takeHanded (.anchor v) s) with core | ⟨off, core⟩ <;> rw [core]
      · exact law
      · exact law.withOp (x := s.core) (by simpa [State.running, State.core] using off) .loading
    | upstreamWrite x =>
      simp only [exec, execUpstreamWrite] at next
      split at next <;> cases next
      exact acceptWrite_audio law x
    | powerOn straps => cases next; exact audioLaw_iff.1 (audioLaw_afterReset ..)
    | resetN straps => cases next; exact audioLaw_iff.1 (audioLaw_afterReset ..)
    | _ => exact moves.elim
  · rw [(exec_steady moves next).core]
    exact law.withFault _

/-- Settles O5: `exec_audio` over all commands. -/
theorem stepKeepsAudioLaw : Obligations.StepKeepsAudioLaw := fun s t law next => by
  rw [audioLaw_iff] at law ⊢
  unfold step at next
  split at next
  · cases next; exact law
  · next rest _ => exact exec_audio (s := { s with pending := rest }) ⟨law.balance, law.depth, law.store, law.outside⟩ next

end Sys2Proof.Machine

namespace Sys2Proof.Machine

variable {s : State} {v : Word}

/-! # The image address word (R175, R177) -/

theorem anchorWrite_ignored (idle : v = 0 ∨ s.ld.op = .loading ∨ s.ld.op = .running) : anchorWrite v s = s := by
  unfold anchorWrite
  split
  · next op => exact if_pos (by simpa [op] using idle)
  · next op => exact if_pos (by simpa [op] using idle)
  · rfl
  · rfl

theorem anchorWrite_loads (named : v ≠ 0) (off : s.ld.op = .transparent ∨ s.ld.op = .configFault) :
    anchorWrite v s = startLoad v s := by
  unfold anchorWrite
  rcases off with op | op <;> (rw [op]; exact if_neg named)

/-- The accesses that the start of a load asks for: the status word, and the first bytes of the image (R124, R177). -/
def loadingStatus (s : State) : OwnAccess :=
  ⟨.statusWord .loading, anchorAddr s.ld.sel + 4, statusWordBytes .loading .none 0, 0⟩
def firstImageRead (v : Word) (s : State) : OwnAccess := ⟨.imageRead, imageAddr v, [], s.pu.writesWaiting⟩

theorem startLoad_pu (v : Word) (s : State) :
    (startLoad v s).pu = { s.pu with own := s.pu.own ++ [loadingStatus s, firstImageRead v s] } := by
  simp only [startLoad, requestImage, writeStatus, requestOwn_pu, requestOwn_ld, List.length_nil, Nat.add_zero,
    BitVec.ofNat_eq_ofNat, BitVec.add_zero, List.append_assoc, List.singleton_append]
  rfl

theorem startLoad_group (v : Word) (s : State) (g : GroupId) : (startLoad v s).group g = (s.group g).unloaded :=
  Table.get_map ..

theorem startLoad_chan (v : Word) (s : State) (c : ChanId) : (startLoad v s).chan c =
    { s.chan c with bufA := .reset, bufB := .reset, current := .bufA } := Table.get_map ..

/-- Settles O55: `anchorWrite_ignored`, and `startLoad` block by block. -/
theorem anchorStartsLoad : Obligations.AnchorStartsLoad := by
  intro v s
  refine ⟨fun idle => congrArg Host.Outcome.next (anchorWrite_ignored idle), fun named off => ?_⟩
  refine ⟨startLoad v (takeHanded (.anchor v) s), loadingStatus s, firstImageRead v s,
    congrArg Host.Outcome.next (anchorWrite_loads named off), rfl, startLoad_pu .., ⟨rfl, rfl, rfl, rfl⟩,
    ⟨rfl, rfl, rfl, rfl⟩, startLoad_line v _, fun h => Table.get_map .., fun p k => ?_, startLoad_group v _,
    fun p => ⟨Table.get_replicate .., fun k => ?_⟩, rfl, fun x => Table.get_replicate .., rfl, startLoad_chan v _, rfl, rfl,
    rfl, rfl⟩
  · exact (congrArg (Table.get · k) (Table.get_replicate ..)).trans (Table.get_replicate ..)
  · exact (congrArg (Table.get · k) (Table.get_replicate ..)).trans (Table.get_replicate ..)

end Sys2Proof.Machine

namespace Sys2Proof.Machine

variable {s : State} {b : Burst}

/-! # Reads upstream (R121, R122) -/

theorem nodup_eraseDups {α : Type} [BEq α] [LawfulBEq α] (l : List α) : l.eraseDups.Nodup := by
  match l with
  | [] => simp
  | a :: l =>
    rw [List.eraseDups_cons, List.nodup_cons]
    exact ⟨by simp, nodup_eraseDups _⟩
termination_by l.length
decreasing_by exact Nat.lt_succ_of_le (List.length_filter_le ..)

theorem length_leBytes (n v : Nat) : (leBytes n v).length = n := by simp [leBytes]

theorem length_frameBytes (f : Frame) : (frameBytes f).length = 32 := by
  have samples : (f.rows.map fun x => (leBytes 2 x.toNat).length).sum = f.rows.length * 2 := by
    simp [length_leBytes]
  rw [frameBytes, List.length_flatMap, samples, f.size_eq]

theorem byteAt_eq_getElem? {bs : List Byte} {n : Nat} (within : n < bs.length) : some (byteAt bs n) = bs[n]? := by
  simp [byteAt, within]

/-! ## The frame that a slot of a listener's window holds -/

section
variable {j : ListenerId} {k : Nat}

theorem heldFrame_of_only {f : StoredFrame} (mem : f ∈ s.pu.store.get j) (slot : f.number.toNat % 8 = k)
    (only : ∀ f' ∈ s.pu.store.get j, f'.number.toNat % 8 = f.number.toNat % 8 → f' = f) : heldFrame s j k = some f := by
  cases found : heldFrame s j k with
  | none => exact absurd slot (by simpa using List.find?_eq_none.1 found f mem)
  | some g =>
    have here : g.number.toNat % 8 = k := by simpa using List.find?_some found
    rw [only g (List.mem_of_find?_eq_some found) (here.trans slot.symm)]

theorem heldFrame_eq_none : heldFrame s j k = none ↔ ∀ f ∈ s.pu.store.get j, f.number.toNat % 8 ≠ k := by
  simp [heldFrame]

theorem heldFrame_isNone : (heldFrame s j k).isNone = !(s.pu.store.get j).any fun f => f.number.toNat % 8 == k := by
  rw [Bool.eq_iff_iff]
  simp [heldFrame_eq_none]

end

theorem outboundByte_held {x : Nat} {j : ListenerId} {f : StoredFrame} (window : x / 256 = j.val)
    (held : heldFrame s j (x % 256 / 32) = some f) : some (outboundByte s x) = (frameBytes f.frame)[x % 32]? := by
  have inside : x / 256 < 160 := by omega
  have listener : (⟨x / 256, inside⟩ : ListenerId) = j := Fin.ext window
  rw [outboundByte, dif_pos inside, listener, held]
  exact byteAt_eq_getElem? (by rw [length_frameBytes]; omega)

theorem outboundByte_unheld {x : Nat} (unheld : ∀ j : ListenerId, x / 256 = j.val → heldFrame s j (x % 256 / 32) = none) :
    outboundByte s x = 0 := by
  unfold outboundByte
  split
  · next inside => rw [unheld ⟨_, inside⟩ rfl]
  · rfl

/-! ## Slots that hold no frame are counted once (R121) -/

/-- Slot `slot`, numbered through all windows, is one of listener `j` that holds no frame. -/
def unheldSlot (s : State) (j : ListenerId) (slot : Nat) : Bool := slot / 8 == j.val && (heldFrame s j (slot % 8)).isNone

theorem countUnheld_get (slot : Nat) (t : Table 160 Word) (j : ListenerId) :
    (countUnheld s slot t).get j = t.get j + BitVec.ofNat 32 (if unheldSlot s j slot then 1 else 0) := by
  unfold countUnheld
  split
  · next inside =>
    by_cases here : slot / 8 = j.val
    · have listener : (⟨slot / 8, inside⟩ : ListenerId) = j := Fin.ext here
      rw [listener]
      cases held : heldFrame s j (slot % 8) <;> simp [unheldSlot, here, held]
    · have other : (⟨slot / 8, inside⟩ : ListenerId) ≠ j := fun e => here (Fin.ext_iff.1 e)
      split <;> simp [unheldSlot, here, other]
  · next outside =>
    have other : slot / 8 ≠ j.val := by omega
    simp [unheldSlot, other]

theorem countUnheld_foldl (j : ListenerId) (slots : List Nat) : ∀ t : Table 160 Word,
    (slots.foldl (fun t k => countUnheld s k t) t).get j =
      t.get j + BitVec.ofNat 32 (slots.filter (unheldSlot s j)).length := by
  induction slots with
  | nil => intro t; simp
  | cons k slots ih =>
    intro t
    rw [List.foldl_cons, ih, countUnheld_get, List.filter_cons, BitVec.add_assoc, ← BitVec.ofNat_add]
    split <;> simp [Nat.add_comm]

/-- The slots of a listener's window that a read covers and that hold no frame. -/
theorem unheldSlots_perm (j : ListenerId) (offsets : List Nat) :
    ((coveredSlots offsets).filter (unheldSlot s j)).Perm (((List.range 8).filter fun k =>
      decide (8 * j.val + k ∈ offsets.map (· / 32)) && !((s.pu.store.get j).any fun f => f.number.toNat % 8 == k)).map
        (8 * j.val + ·)) := by
  refine (List.perm_ext_iff_of_nodup ((nodup_eraseDups _).filter _)
    ((List.nodup_range.filter _).map fun _ _ => Nat.add_left_cancel)).2 fun slot => ?_
  simp only [List.mem_filter, List.mem_eraseDups, unheldSlot, heldFrame_isNone, Bool.and_eq_true, beq_iff_eq,
    List.mem_map, List.mem_range, decide_eq_true_eq]
  constructor
  · rintro ⟨covered, window, empty⟩
    have place : 8 * j.val + slot % 8 = slot := by omega
    exact ⟨slot % 8, ⟨by omega, by rwa [place], empty⟩, place⟩
  · rintro ⟨k, ⟨small, covered, empty⟩, rfl⟩
    have place : (8 * j.val + k) % 8 = k := by omega
    exact ⟨covered, by omega, by rwa [place]⟩

theorem answerOutbound_unheld (offsets : List Nat) (j : ListenerId) : (answerOutbound b offsets s).pu.unheld.get j =
    s.pu.unheld.get j + BitVec.ofNat 32 ((List.range 8).filter fun k => decide (8 * j.val + k ∈ offsets.map (· / 32)) &&
      !((s.pu.store.get j).any fun f => f.number.toNat % 8 == k)).length := by
  rw [answerOutbound, countUnheld_foldl, (unheldSlots_perm j offsets).length_eq, List.length_map]

/-! ## Both rows of reads -/

theorem exec_read {c : Instr} (ok : burstOk b = true) (row : c = .upstreamRead b ∨ c = .outboundRead b) :
    exec c s = .next (acceptRead b s) := by
  rcases row with rfl | rfl <;> exact if_pos ok

theorem acceptRead_forwards (away : ∀ base, s.pu.regions.outbound = some base →
    ¬(base.toNat ≤ b.addr.toNat ∧ b.addr.toNat < base.toNat + 65536)) : acceptRead b s = forward (.read b) s := by
  have none_ : outboundOffsets s b = none := by
    unfold outboundOffsets
    split
    · rfl
    · next base present => simp [offsetIn, away base present]
  simp only [acceptRead, none_]

theorem acceptRead_answers {base : Addr} (present : s.pu.regions.outbound = some base) (low : base.toNat ≤ b.addr.toNat)
    (high : b.addr.toNat < base.toNat + 65536) :
    acceptRead b s = answerOutbound b ((burstBytes b).map (· - base.toNat)) s := by
  have inside : outboundOffsets s b = some ((burstBytes b).map (· - base.toNat)) := by
    simp [outboundOffsets, offsetIn, present, low, high]
  simp only [acceptRead, inside]

/-- Settles O52: `acceptRead` outside the Outbound Region and in it, byte by byte and slot by slot. -/
theorem readsAreAnsweredOrForwarded : Obligations.ReadsAreAnsweredOrForwarded := by
  intro b s ok c row
  rw [exec_read ok row]
  refine ⟨fun away => by rw [acceptRead_forwards away]; rfl, fun base present low high => ?_⟩
  rw [acceptRead_answers present low high]
  dsimp only
  generalize (burstBytes b).map (· - base.toNat) = offsets
  refine ⟨_, offsets.map (outboundByte s), rfl, rfl, List.length_map .., ?_, ?_, answerOutbound_unheld offsets, rfl⟩
  · intro i x j f at_ window mem slot only
    rw [List.getElem?_map, at_]
    exact outboundByte_held window (heldFrame_of_only mem slot only)
  · intro i x at_ none_
    rw [List.getElem?_map, at_]
    exact congrArg some (outboundByte_unheld fun j window => heldFrame_eq_none.2 fun f mem => none_ j f window mem)

end Sys2Proof.Machine

namespace Sys2Proof.Machine

variable {s t u v : State} {a : OwnAccess} {k : Nat} {i : Word} {which : Purpose → Bool}

/-! # Responses to the writes of slots and of log records (R155, R168) -/

section
variable {index : Purpose → Option Word} {produced : Word} {rest : List Word}

theorem announce_earliest (open_ : ((s.pu.flight ++ s.pu.own).filterMap fun x => index x.purpose) = i :: rest) :
    announce index i produced s = some (rest.head?.getD produced) := by
  simp only [announce, open_, if_true]

theorem announce_later {j : Word} (open_ : ((s.pu.flight ++ s.pu.own).filterMap fun x => index x.purpose) = j :: rest)
    (later : j ≠ i) : announce index i produced s = none := by
  simp only [announce, open_, if_neg (Ne.symm later)]

end

/-! ## The state that the response leaves -/

theorem Returns.regions (back : Returns which k a s u) (error : Bool) : (faultIf error a u).pu.regions = s.pu.regions :=
  (congrArg Core.regions (steady_faulted (error := error) back.takeFlight).core :)

theorem Returns.recUnit (back : Returns which k a s u) (error : Bool) : (faultIf error a u).ru = s.ru :=
  (faultIf_ru ..).trans (congrArg State.ru back.removed :)

theorem controlAddr_congr (same : t.pu.regions = s.pu.regions) (offset : Nat) : controlAddr t offset = controlAddr s offset := by
  rw [controlAddr, same]; rfl

/-- An error response that is told: the fault stands recorded and its event posted. -/
theorem Returns.toldFault (back : Returns which k a s u) (loud : a.purpose.madeBeforeRunning = false)
    (run : s.running = true) : ToldFault a a.purpose.kind u (faultIf true a u) := by
  have told := back.told loud run
  rw [← back.cu] at told
  obtain ⟨posts, rest⟩ := told
  refine ⟨?_, posts, rest⟩
  rw [posts.unit, afterEvents_fault]
  rfl

/-! ## The event ring (R168) -/

theorem eventWriteResponse_of_returns (back : Returns Purpose.isEventSlot k a s u) (slot : a.purpose = .eventSlot i)
    (error : Bool) : eventWriteResponse k error s =
      (announce Purpose.slotIndex i s.cu.evProduced s).elim (faultIf error a u) (requestEventWord · (faultIf error a u)) := by
  simp only [eventWriteResponse, back.takeFlight, slot, Purpose.slotIndex, Option.getD_some]
  cases announce Purpose.slotIndex i s.cu.evProduced s <;> rfl

theorem requestEventWord_at (same : t.pu.regions = s.pu.regions) (count : Word) : requestEventWord count t = { t with
    pu := { t.pu with own := t.pu.own ++ [⟨.eventProduced count, controlAddr s 8, wordBytes count, 0⟩] } } := by
  rw [← controlAddr_congr same]; rfl

/-! ## The Recording Log (R155) -/

theorem logWriteResponse_of_record (back : Returns Purpose.isLogWrite k a s u) (record : a.purpose = .closeRecord i)
    (error : Bool) : logWriteResponse k error s =
      (announce Purpose.recordIndex i s.ru.produced s).elim (faultIf error a u) (requestLogWord · (faultIf error a u)) := by
  simp only [logWriteResponse, back.takeFlight, record]
  cases announce Purpose.recordIndex i s.ru.produced s <;> rfl

theorem logWriteResponse_of_word {count : Word} (back : Returns Purpose.isLogWrite k a s u)
    (word : a.purpose = .logProduced count) (error : Bool) :
    logWriteResponse k error s = freeWritten count (faultIf error a u) := by
  simp only [logWriteResponse, back.takeFlight, word]

theorem requestLogWord_at (same : t.pu.regions = s.pu.regions) (count : Word) : requestLogWord count t = { t with
    pu := { t.pu with own := t.pu.own ++ [⟨.logProduced count, controlAddr s 16, wordBytes count, 0⟩] } } := by
  rw [← controlAddr_congr same]; rfl

theorem isLogWrite_madeInRunning {p : Purpose} (h : p.isLogWrite = true) : p.madeBeforeRunning = false := by
  cases p <;> simp_all [Purpose.isLogWrite, Purpose.kind, Purpose.madeBeforeRunning]

theorem Returns.logKind (back : Returns Purpose.isLogWrite k a s u) : a.purpose.kind = .logWrite := by
  simpa [Purpose.isLogWrite] using back.picked

/-- The record's index is one of those that the count includes. -/
theorem placed_counted_iff {placed : Option Word} {count : Word} : (placed.map (counted count)).getD false = true ↔
    ∃ i, placed = some i ∧ 0 < (count - i).toNat ∧ (count - i).toNat < 2 ^ 31 := by
  cases placed <;> simp [counted]

theorem freeWritten_chan (count : Word) (t : State) (c : ChanId) : (freeWritten count t).chan c =
    if (t.chan c).state = .draining ∧ ((t.chan c).placed.map (counted count)).getD false = true then
      { t.chan c with state := .free, subject := none, closeRecord := none, closeDone := false, frameSeen := false,
                      placed := none }
    else t.chan c := Table.get_map ..

/-- Settles O41: the responses of `eventWriteResponse_of_returns`, `logWriteResponse_of_record` and
`logWriteResponse_of_word`, with and without an error. -/
theorem slotResponsesMoveIndex : Obligations.SlotResponsesMoveIndex := by
  refine ⟨fun k a i s u => ?_, fun k a s u run back => ?_⟩
  · intro open_ announced run back slot
    have act (error : Bool) : exec (.eventWriteResponse k error) s = .next _ :=
      (inRunning_of_running _ run).trans (congrArg Host.Outcome.next (eventWriteResponse_of_returns back slot error))
    have earliest (error : Bool) (rest : List Word) (is : open_ = i :: rest) :
        exec (.eventWriteResponse k error) s = .next (announced (faultIf error a u) rest) := by
      rw [act, announce_earliest is]
      exact congrArg Host.Outcome.next (requestEventWord_at (back.regions error) _)
    have later (error : Bool) (j : Word) (rest : List Word) (is : open_ = j :: rest) (other : j ≠ i) :
        exec (.eventWriteResponse k error) s = .next (faultIf error a u) := by
      rw [act, announce_later is other]
      rfl
    have told := back.toldFault (by rw [slot]; rfl) run
    rw [slot] at told
    exact ⟨earliest false, later false, faultIf true a u, told, earliest true, later true⟩
  · intro open_ announced written
    have earliest (error : Bool) (i : Word) (rest : List Word) (record : a.purpose = .closeRecord i)
        (is : open_ = i :: rest) : exec (.logWriteResponse k error) s = .next (announced (faultIf error a u) rest) := by
      refine (inRunning_of_running _ run).trans (congrArg Host.Outcome.next ?_)
      rw [logWriteResponse_of_record back record, announce_earliest is]
      exact requestLogWord_at (back.regions error) _
    have later (error : Bool) (i j : Word) (rest : List Word) (record : a.purpose = .closeRecord i)
        (is : open_ = j :: rest) (other : j ≠ i) : exec (.logWriteResponse k error) s = .next (faultIf error a u) := by
      refine (inRunning_of_running _ run).trans (congrArg Host.Outcome.next ?_)
      rw [logWriteResponse_of_record back record, announce_later is other]
      rfl
    have frees (error : Bool) (count : Word) (word : a.purpose = .logProduced count) :
        ∃ t, exec (.logWriteResponse k error) s = .next t ∧ written count (faultIf error a u) t := by
      have ru := back.recUnit error
      refine ⟨_, (inRunning_of_running _ run).trans (congrArg Host.Outcome.next (logWriteResponse_of_word back word error)),
        fun c => ?_, ?_⟩
      · have chan : (faultIf error a u).chan c = s.chan c := by rw [State.chan, ru]; rfl
        rw [freeWritten_chan, chan]
        simp only [placed_counted_iff]
      · rw [← ru]; rfl
    have told := back.toldFault (isLogWrite_madeInRunning back.picked) run
    rw [back.logKind] at told
    exact ⟨earliest false, later false, frees false, faultIf true a u, told, earliest true, later true, frees true⟩

end Sys2Proof.Machine

namespace Sys2Proof.Machine

variable {s t u v : State} {a : OwnAccess} {c : ChanId} {b : Buf} {n number : Word} {k : Nat} {error : Bool} {y : Session}

/-! # Responses to frame writes (R149, R150, R154) -/

/-! ## Steps of one recorder channel that post events -/

/-- The events `es` have been posted, and else only the record of channel `c` has moved. -/
structure ChanStep (c : ChanId) (es : List Event) (s t : State) : Prop where
  others : OnlyChan c s t
  unit : t.cu = s.cu.afterEvents es
  own : t.pu.own = s.pu.own ++ s.cu.slotWrites es
  frame : t = { s with ru := { s.ru with channels := t.ru.channels }, cu := t.cu, pu := { s.pu with own := t.pu.own } }

theorem ChanStep.refl (c : ChanId) (s : State) : ChanStep c [] s s :=
  ⟨fun _ _ => rfl, rfl, (List.append_nil _).symm, rfl⟩

theorem ChanStep.trans {es fs : List Event} (h : ChanStep c es s t) (k : ChanStep c fs t u) : ChanStep c (es ++ fs) s u where
  others d other := (k.others d other).trans (h.others d other)
  unit := by rw [k.unit, h.unit, CmdUnit.afterEvents_append]
  own := by rw [k.own, h.own, h.unit, CmdUnit.slotWrites_append, List.append_assoc]
  frame := by rw [k.frame, h.frame]

theorem chanStep_modChan (c : ChanId) (f : Channel → Channel) (s : State) : ChanStep c [] s (s.modChan c f) :=
  ⟨fun d other => by rw [modChan_chan, if_neg (Ne.symm other)], rfl, (List.append_nil _).symm, rfl⟩

theorem chanStep_post (c : ChanId) (e : Event) (s : State) : ChanStep c [e] s (post e s) :=
  ⟨fun _ _ => rfl, post_cu s e, by simp only [CmdUnit.slotWrites, List.append_nil]; rfl, rfl⟩

theorem chanStep_postAll (c : ChanId) (es : List Event) (s : State) : ChanStep c es s (postAll es s) := by
  induction es generalizing s with
  | nil => exact .refl c s
  | cons e es ih => exact (chanStep_post c e s).trans (ih _)

theorem isFrameWrite_toldKind {p : Purpose} (h : p.isFrameWrite = true) :
    p.madeBeforeRunning = false ∧ p.kind = .frameWrite := by
  cases p <;> simp_all [Purpose.isFrameWrite, Purpose.madeBeforeRunning, Purpose.kind]

/-- An error response of a frame write: the fault is recorded, and told by a FAULT event (R126). -/
theorem Returns.faultStep (back : Returns Purpose.isFrameWrite k a s u) (run : s.running = true) (c : ChanId)
    (error : Bool) : ChanStep c
      (if error then [.fault .memoryError .frameWrite a.addr (satSucc s.cu.fault.count)] else [])
      { u with cu := if error then { s.cu with fault := faultAfter a s.cu.fault } else s.cu } (faultIf error a u) := by
  rw [← back.cu]
  cases error with
  | false => exact .refl c u
  | true =>
    obtain ⟨loud, kind⟩ := isFrameWrite_toldKind back.picked
    have told : faultIf true a u = _ := memoryFault_told loud (back.running.trans run)
    rw [told, kind]
    exact chanStep_post ..

/-! ## The channel after its response -/

/-- The session of this number has lost the frame if its write met an error. -/
def lostIf (error : Bool) (number : Word) (x : Session) : Session :=
  if error = true ∧ x.number = number then { x with written := x.written - 1, lost := x.lost + 1 } else x

theorem map_lostIf (error : Bool) (number : Word) (o : Option Session) :
    (if error then o.map (loseWritten number) else o) = o.map (lostIf error number) := by
  cases error with
  | false =>
    have same : lostIf false number = id := by funext x; simp [lostIf]
    simp [same]
  | true =>
    have same : lostIf true number = loseWritten number := by funext x; simp [lostIf, loseWritten]
    rw [same]
    rfl

/-- The waiting events of a channel once the write of frame `n` into buffer `b` has returned. -/
def countedDown (b : Buf) (n : Word) (es : List BufEvent) : List BufEvent := es.map fun e =>
  if e.buf = b ∧ (n - e.first).toNat < e.count.toNat then { e with waiting := e.waiting - 1 } else e

theorem countDown_eq (b : Buf) (n : Word) (es : List BufEvent) : countDown b n es = countedDown b n es := by
  simp [countDown, countedDown, BufEvent.counts]

/-- The events in waiting that wait for no write any more. -/
def readyEvents (c : ChanId) (es : List BufEvent) : List Event :=
  (es.filter fun e => e.waiting == 0).map fun e => .recordBuffer c e.buf e.session e.first e.count false

/-- The channel once the response has been taken and its events that are ready have been posted. -/
def Channel.returned (b : Buf) (n number : Word) (error : Bool) (ch : Channel) : Channel :=
  { ch with
    outstanding := ch.outstanding - 1
    bufEvents := (countedDown b n ch.bufEvents).filter fun e => e.waiting != 0
    session := ch.session.map (lostIf error number)
    closeRecord := if ch.placed = none then ch.closeRecord.map (lostIf error number) else ch.closeRecord }

/-- The Recorder Unit before the close step that a response may bring about. -/
def responseTaken (c : ChanId) (b : Buf) (n number : Word) (error : Bool) (s : State) : State :=
  postBuffers c (s.modChan c fun ch =>
    { ch with
      outstanding := ch.outstanding - 1
      bufEvents := countDown b n ch.bufEvents
      session := if error then ch.session.map (loseWritten number) else ch.session
      closeRecord := if error && ch.placed.isNone then ch.closeRecord.map (loseWritten number) else ch.closeRecord })

theorem frameReturned_eq (c : ChanId) (b : Buf) (n number : Word) (error : Bool) (s : State) :
    frameReturned c b n number error s = if ((responseTaken c b n number error s).chan c).closes
      then closeStep c (responseTaken c b n number error s) else responseTaken c b n number error s := rfl

theorem responseTaken_step (c : ChanId) (b : Buf) (n number : Word) (error : Bool) (s : State) :
    ChanStep c (readyEvents c (countedDown b n (s.chan c).bufEvents)) s (responseTaken c b n number error s) := by
  simp only [responseTaken, postBuffers, modChan_chan_self, countDown_eq]
  exact ((chanStep_modChan ..).trans (chanStep_modChan ..)).trans (chanStep_postAll ..)

theorem responseTaken_chan (c : ChanId) (b : Buf) (n number : Word) (error : Bool) (s : State) :
    (responseTaken c b n number error s).chan c = (s.chan c).returned b n number error := by
  have record (o : Option Session) (placed : Option Word) :
      (if error && placed.isNone then o.map (loseWritten number) else o) =
        if placed = none then o.map (lostIf error number) else o := by
    cases placed with
    | none => simpa using map_lostIf error number o
    | some i => simp
  simp only [responseTaken, postBuffers, postAll_chan, modChan_chan_self, Channel.returned, map_lostIf, record, countDown_eq]

/-! ## The close step (R154) -/

/-- The current buffer holds frames and has not been passed on. -/
def Channel.short (ch : Channel) : Bool := ch.here.owner == .part && ch.here.fill != ch.here.base

/-- The RECORD_BUFFER of a buffer that is closed short. -/
def Channel.finalEvents (c : ChanId) (ch : Channel) : List Event :=
  if ch.short then [.recordBuffer c ch.current (ch.here.firstSession.getD 0) (ch.here.firstFrame.getD 0)
    (frameCount ch.here.base ch.here.fill) true] else []

/-- The channel with its short buffer passed on. -/
def Channel.shut (ch : Channel) : Channel :=
  if ch.short then { ch.setBuffer ch.current { ch.here with owner := .host } with current := ch.current.other } else ch

/-- The state before the close record is placed. -/
def bufferShut (c : ChanId) (s : State) : State :=
  (postAll ((s.chan c).finalEvents c) (s.modChan c Channel.shut)).modChan c fun ch => { ch with closeDone := true }

theorem modChan_congr {f g : Channel → Channel} (same : f (s.chan c) = g (s.chan c)) : s.modChan c f = s.modChan c g := by
  simp only [State.modChan, Table.modify]
  rw [show f (s.ru.channels.get c) = g (s.ru.channels.get c) from same]

theorem modChan_same {f : Channel → Channel} (same : f (s.chan c) = s.chan c) : s.modChan c f = s := by
  simp only [State.modChan, Table.modify]
  rw [show f (s.ru.channels.get c) = s.ru.channels.get c from same, Table.set_get_self]

theorem bufferShut_step (c : ChanId) (s : State) : ChanStep c ((s.chan c).finalEvents c) s (bufferShut c s) := by
  have steps := ((chanStep_modChan c Channel.shut s).trans (chanStep_postAll c ((s.chan c).finalEvents c) _)).trans
    (chanStep_modChan c (fun ch => { ch with closeDone := true }) _)
  rw [List.nil_append, List.append_nil] at steps
  exact steps

theorem bufferShut_chan (c : ChanId) (s : State) : (bufferShut c s).chan c = { (s.chan c).shut with closeDone := true } := by
  simp only [bufferShut, modChan_chan_self, postAll_chan]

theorem ChanStep.room {es : List Event} (h : ChanStep c es s t) : t.ru.room = s.ru.room := by
  rw [h.frame]
  rfl

/-- The first part of the close step, as `closeStep` writes it, passes the short buffer on. -/
theorem postAll_modChan_shut (c : ChanId) (s : State) :
    postAll ((s.chan c).finalEvents c) (s.modChan c Channel.shut) =
      if (s.chan c).here.owner = .part ∧ (s.chan c).here.fill ≠ (s.chan c).here.base then
        post (.recordBuffer c (s.chan c).current ((s.chan c).here.firstSession.getD 0) ((s.chan c).here.firstFrame.getD 0)
          (frameCount (s.chan c).here.base (s.chan c).here.fill) true) (s.modChan c fun ch =>
            { ch.setBuffer ch.current { (s.chan c).here with owner := .host } with current := ch.current.other })
      else s := by
  have short_iff : (s.chan c).short = true ↔ (s.chan c).here.owner = .part ∧
      (s.chan c).here.fill ≠ (s.chan c).here.base := by simp [Channel.short]
  rw [if_congr short_iff.symm rfl rfl]
  by_cases short : (s.chan c).short = true
  · rw [if_pos short, Channel.finalEvents, if_pos short, postAll_cons, postAll_nil]
    exact congrArg (post _) (modChan_congr (if_pos short))
  · rw [if_neg short, Channel.finalEvents, if_neg short, postAll_nil]
    exact modChan_same (if_neg short)

theorem closeStep_eq (c : ChanId) (s : State) :
    closeStep c s = if s.ru.room then placeHeld c (bufferShut c s) else bufferShut c s := by
  rw [← (bufferShut_step c s).room, bufferShut, postAll_modChan_shut]
  rfl

theorem placeHeld_of_record (held : (s.chan c).closeRecord = some y) : placeHeld c s =
    (placeRecord y s).modChan c fun ch => { ch with placed := some s.ru.produced } := by
  simp only [placeHeld, held]

/-! ## The response -/

theorem frameWriteResponse_of_returns (back : Returns Purpose.isFrameWrite k a s u) (run : s.running = true)
    (write : a.purpose = .frameWrite c b n number) (error : Bool) :
    exec (.frameWriteResponse k error) s = .next (frameReturned c b n number error (faultIf error a u)) := by
  refine (inRunning_of_running _ run).trans (congrArg Host.Outcome.next ?_)
  simp only [frameWriteResponse, back.takeFlight, write]

theorem returned_closes (ch : Channel) (b : Buf) (n number : Word) (error : Bool) :
    (ch.returned b n number error).closes =
      (ch.state == .draining && !ch.closeDone && ch.frameSeen && decide (ch.outstanding ≤ 1)) := by
  have none_left : (ch.outstanding - 1 == 0) = decide (ch.outstanding ≤ 1) := by
    rw [Bool.eq_iff_iff, beq_iff_eq, decide_eq_true_iff]
    omega
  rw [← none_left]
  rfl

/-- The fault that an error response tells. -/
def writeFaults (error : Bool) (a : OwnAccess) (s : State) : List Event :=
  if error then [.fault .memoryError .frameWrite a.addr (satSucc s.cu.fault.count)] else []

/-- The state of a returned frame write, its error recorded and not yet told. -/
def faultRecorded (error : Bool) (a : OwnAccess) (s u : State) : State :=
  { u with cu := if error then { s.cu with fault := faultAfter a s.cu.fault } else s.cu }

/-- The state once the response of the frame write of `Returns` has been taken, before a close step. -/
def afterResponse (c : ChanId) (b : Buf) (n number : Word) (error : Bool) (a : OwnAccess) (u : State) : State :=
  responseTaken c b n number error (faultIf error a u)

theorem Returns.chan (back : Returns Purpose.isFrameWrite k a s u) (error : Bool) (d : ChanId) :
    (faultIf error a u).chan d = s.chan d := by
  rw [State.chan, back.recUnit error]
  rfl

theorem Returns.afterResponse_chan (back : Returns Purpose.isFrameWrite k a s u) (c : ChanId) (b : Buf) (n number : Word)
    (error : Bool) : (afterResponse c b n number error a u).chan c = (s.chan c).returned b n number error := by
  rw [afterResponse, responseTaken_chan, back.chan]

theorem Returns.afterResponse_step (back : Returns Purpose.isFrameWrite k a s u) (run : s.running = true) (c : ChanId)
    (b : Buf) (n number : Word) (error : Bool) :
    ChanStep c (writeFaults error a s ++ readyEvents c (countedDown b n (s.chan c).bufEvents)) (faultRecorded error a s u)
      (afterResponse c b n number error a u) := by
  have taken := responseTaken_step c b n number error (faultIf error a u)
  rw [back.chan] at taken
  exact (back.faultStep run c error).trans taken

/-- `OnlyChan` and the frame of a step from the state with its error recorded, said of the state before the response. -/
theorem Returns.stepFrame (back : Returns Purpose.isFrameWrite k a s u) {es : List Event}
    (h : ChanStep c es (faultRecorded error a s u) t) : OnlyChan c s t ∧
      t = { u with ru := { s.ru with channels := t.ru.channels }, cu := t.cu, pu := { u.pu with own := t.pu.own } } := by
  have same : u.ru = s.ru := (congrArg State.ru back.removed :)
  refine ⟨fun d other => (h.others d other).trans (congrArg (fun r : RecUnit => r.channels.get d) same), ?_⟩
  rw [← same]
  exact h.frame

/-- `t` is `s` after a close step of channel `c`, which held the record `y` and is then `shut` but for its mark (R154). -/
structure Closed (c : ChanId) (y : Session) (shut : Channel) (es : List Event) (s t : State) : Prop where
  others : OnlyChan c s t
  chan : t.chan c = { shut with placed := if s.ru.room then some s.ru.produced else shut.placed }
  unit : t.cu = s.cu.afterEvents es
  produced : t.ru.produced = if s.ru.room then s.ru.produced + 1 else s.ru.produced
  own : t.pu.own = s.pu.own ++ s.cu.slotWrites es ++ if s.ru.room then
    [⟨.closeRecord s.ru.produced, s.ru.logBase + BitVec.ofNat 36 (64 * (s.ru.produced.toNat % s.ru.logSize)),
      y.logRecord, 0⟩] else []
  frame : t = { s with ru := { s.ru with channels := t.ru.channels, produced := t.ru.produced }
                       cu := t.cu, pu := { s.pu with own := t.pu.own } }

/-- The record that a channel holds is placed where the log has room, after a step that posts events. -/
theorem ChanStep.closed {es : List Event} (step : ChanStep c es s t) (held : (t.chan c).closeRecord = some y) :
    Closed c y (t.chan c) es s (if s.ru.room then placeHeld c t else t) := by
  by_cases room : s.ru.room = true
  · rw [if_pos room, placeHeld_of_record held]
    have produced : t.ru.produced = s.ru.produced := by rw [step.frame]
    have slot : t.ru.logBase + BitVec.ofNat 36 (64 * (t.ru.produced.toNat % t.ru.logSize)) =
        s.ru.logBase + BitVec.ofNat 36 (64 * (s.ru.produced.toNat % s.ru.logSize)) := by rw [step.frame]
    constructor
    case others =>
      intro d other
      rw [modChan_chan, if_neg (Ne.symm other)]
      exact step.others d other
    case chan =>
      rw [modChan_chan_self, if_pos room, produced]
      rfl
    case unit => exact step.unit
    case produced =>
      rw [if_pos room, ← produced]
      rfl
    case own =>
      rw [if_pos room, ← step.own, ← slot, ← produced]
      rfl
    case frame => rw [step.frame]; rfl
  · rw [if_neg room]
    constructor
    case others => exact step.others
    case chan => rw [if_neg room]
    case unit => exact step.unit
    case produced => rw [if_neg room, step.frame]
    case own => rw [if_neg room, List.append_nil, step.own]
    case frame => rw [step.frame]

theorem Channel.shut_closeRecord (ch : Channel) : ch.shut.closeRecord = ch.closeRecord := by
  unfold Channel.shut Channel.setBuffer
  split
  · split <;> rfl
  · rfl

theorem Channel.shut_placed (ch : Channel) : ch.shut.placed = ch.placed := by
  unfold Channel.shut Channel.setBuffer
  split
  · split <;> rfl
  · rfl

/-- The close step of a channel that holds a record. -/
theorem ChanStep.closeStep {es : List Event} (step : ChanStep c es s t) (held : (t.chan c).closeRecord = some y) :
    Closed c y { (t.chan c).shut with closeDone := true } (es ++ (t.chan c).finalEvents c) s (closeStep c t) := by
  have shut := step.trans (bufferShut_step c t)
  have record : ((bufferShut c t).chan c).closeRecord = some y := by
    rw [bufferShut_chan]
    exact (t.chan c).shut_closeRecord.trans held
  have closed := shut.closed record
  rw [bufferShut_chan] at closed
  rwa [closeStep_eq, step.room]

theorem not_closes_of_active {ch : Channel} (active : ch.state = .active) : ch.closes = false := by
  simp [Channel.closes, active]

/-- Settles O54: the response is taken by `Returns.afterResponse_step`; the channel's state then tells whether the close
step of `ChanStep.closeStep` follows. -/
theorem frameWritesReturn : Obligations.FrameWritesReturn := by
  intro k error c b n number a x s u ch told ready unit fault moved run back write
  have step := back.afterResponse_step run c b n number error
  have chan := back.afterResponse_chan c b n number error
  obtain ⟨others, frame⟩ := back.stepFrame step
  have act : exec (.frameWriteResponse k error) s = .next (if ((s.chan c).returned b n number error).closes
      then closeStep c (afterResponse c b n number error a u) else afterResponse c b n number error a u) := by
    rw [frameWriteResponse_of_returns back run write, frameReturned_eq, ← chan]
    rfl
  refine ⟨fun active open_ => ?_, fun draining held => ?_⟩
  · have stays : ((s.chan c).returned b n number error).closes = false := not_closes_of_active active
    rw [stays, if_neg Bool.false_ne_true] at act
    refine ⟨_, act, ?_, fun none_ => ?_, others, step.unit, step.own, frame⟩
    · rw [chan, Channel.returned, open_]
      rfl
    · rw [chan]
      exact (ite_congr rfl (fun _ => congrArg _ none_) fun _ => none_).trans (ite_self _)
  · intro buf last short room y returned final
    have is : (s.chan c).returned b n number error = returned := by
      have record : (if ch.placed = none then ch.closeRecord.map (lostIf error number) else ch.closeRecord) = some y := by
        rw [held]
        exact (apply_ite some ..).symm
      rw [Channel.returned, record]
      rfl
    have closes : ((s.chan c).returned b n number error).closes = last := by
      rw [returned_closes, draining]
      rfl
    have ru : (faultRecorded error a s u).ru = s.ru := (congrArg State.ru back.removed :)
    rw [closes] at act
    rw [is] at chan
    rcases Bool.eq_false_or_eq_true last with closing | stays
    · rw [if_pos closing] at act
      have closed := step.closeStep (y := y) (by rw [chan])
      rw [chan] at closed
      obtain ⟨others, record, unit_, produced, own, frame⟩ := closed
      rw [ru, Channel.shut_placed] at record
      rw [ru] at produced own
      refine ⟨_, act, fun d other => ?_, fun off => absurd closing (Bool.eq_false_iff.mp off),
        fun _ => ⟨record, unit_, produced, own⟩, ?_⟩
      · exact (others d other).trans (congrArg (fun r : RecUnit => r.channels.get d) ru)
      · rw [ru] at frame
        exact frame
    · rw [if_neg (Bool.eq_false_iff.mp stays)] at act
      refine ⟨_, act, others, fun _ => ⟨chan, step.unit, step.own, ?_⟩,
        fun on => absurd on (Bool.eq_false_iff.mp stays), ?_⟩
      · rw [frame]
      · rw [frame]

end Sys2Proof.Machine

namespace Sys2Proof.Machine

variable {s t u v : State} {a : OwnAccess} {bs : List Byte} {target : Addr} {item : QueryItem} {k : Nat}

/-! # QUERY (R171, R172) -/

/-! ## The lengths of snapshots (R189) -/

theorem length_padTo {n : Nat} (fits : bs.length ≤ n) : (padTo n bs).length = n := by
  simp [padTo, fits]

theorem length_wordBytes (w : Word) : (wordBytes w).length = 4 := length_leBytes ..

theorem length_floorBytes (f : FloorTime) : (floorBytes f).length = 6 := length_leBytes ..

theorem length_addrBytes (a : Addr) : (addrBytes a).length = 5 := length_leBytes ..

theorem length_deadlineBytes (d : Option Word) : (deadlineBytes d).length = 4 := length_leBytes ..

theorem length_subjectBytes (x : Option Subject) : (subjectBytes x).length = 2 := by
  rcases x with _ | (l | g) <;> rfl

theorem length_flatten_of_all {w : Nat} {l : List (List Byte)} (all : ∀ x ∈ l, x.length = w) :
    l.flatten.length = l.length * w := by
  rw [List.length_flatten, List.map_congr_left all, List.map_const', List.sum_replicate, smul_eq_mul]

theorem length_fillPlaces {w : Nat} (n : Nat) {unused : List Byte} {es : List (List Byte)} (empty : unused.length = w)
    (all : ∀ e ∈ es, e.length = w) : (fillPlaces n unused es).length = n * w := by
  have each : ∀ x ∈ (es ++ List.replicate n unused).take n, x.length = w := fun x mem => by
    rcases List.mem_append.1 (List.mem_of_mem_take mem) with used | spare
    · exact all x used
    · rw [List.eq_of_mem_replicate spare, empty]
  rw [fillPlaces, length_flatten_of_all each]
  simp

theorem length_lineSnapshot (s : State) (l : LineId) : (lineSnapshot s l).length = 64 := by
  have owners : (fillPlaces 4 [255, 255] ((s.line l).owners.map fun h => [finByte h.pos, h.side.code])).length = 4 * 2 :=
    length_fillPlaces 4 rfl (by simp)
  have ring (r : Option RingRec) : (ringBytes r).length = 8 := by cases r <;> simp [ringBytes, length_deadlineBytes]
  refine length_padTo ?_
  simp only [List.length_append, List.length_cons, List.length_nil, owners, ring, length_leBytes, length_deadlineBytes]
  decide

theorem length_floorEntryBytes (e : FloorEntry) : (floorEntryBytes e).length = 8 := by
  simp [floorEntryBytes, length_deadlineBytes]

theorem length_groupSnapshot (s : State) (g : GroupId) : (groupSnapshot s g).length = 128 := by
  have hoots : (fillPlaces 2 [255] ((s.group g).hootLines.map fun l => [finByte l])).length = 2 * 1 :=
    length_fillPlaces 2 rfl (by simp)
  have places (n : Nat) (es : List FloorEntry) : (fillPlaces n unusedEntry (es.map floorEntryBytes)).length = n * 8 :=
    length_fillPlaces n rfl (by simp [length_floorEntryBytes])
  refine length_padTo ?_
  rw [List.length_append, List.length_append, places, places, length_padTo]
  · decide
  · simp only [List.length_append, List.length_cons, List.length_nil, hoots, length_leBytes, length_deadlineBytes]
    decide

theorem length_positionSnapshot (s : State) (p : PosId) : (positionSnapshot s p).length = 80 := by
  have speakers : ((s.speakers p).rows.flatMap spkBytes).length = 12 * 4 := by
    rw [List.flatMap_def, length_flatten_of_all (w := 4) (by simp [spkBytes, length_subjectBytes]), List.length_map,
      (s.speakers p).size_eq]
  have settings : (padTo 12 [finByte p, BitVec.ofNat 8 (s.settings p).speakerMicPad, BitVec.ofNat 8 (s.settings p).duck,
      BitVec.ofNat 8 (s.settings p).ringLevel, BitVec.ofNat 8 (s.settings p).recallLevel,
      flagCode (s.settings p).supervisor, BitVec.ofNat 8 (s.posRing p).ringCount,
      BitVec.ofNat 8 (s.posRing p).recallCount, flagCode (s.posRing p).alert]).length = 12 := length_padTo (by simp)
  rw [positionSnapshot, List.length_append, speakers, length_padTo (by simp [settings, handsetBytes])]

theorem length_bufferBytes (b : Buffer) : (bufferBytes b).length = 16 := by
  simp [bufferBytes, length_addrBytes]

theorem length_sessionBytes (o : Option Session) : (sessionBytes o).length = 52 := by
  cases o with
  | none => rfl
  | some x =>
    have frame : ((x.endFrame.map wordBytes).getD (absentBytes 4)).length = 4 := by
      cases x.endFrame <;> simp [absentBytes, length_wordBytes]
    have time : ((x.endTime.map floorBytes).getD (absentBytes 6)).length = 6 := by
      cases x.endTime <;> simp [absentBytes, length_floorBytes]
    have parties : ((x.parties.map finByte ++ absentBytes 8).take 8).length = 8 := by simp [absentBytes]
    simp only [sessionBytes, Session.block, List.length_append, List.length_cons, List.length_nil, parties, frame, time,
      length_wordBytes, length_floorBytes, length_subjectBytes]

theorem length_recorderSnapshot (s : State) (c : ChanId) : (recorderSnapshot s c).length = 192 := by
  refine length_padTo ?_
  rw [List.length_append, length_sessionBytes, length_padTo]
  · decide
  · simp only [List.length_append, length_bufferBytes, length_wordBytes, length_leBytes]
    rw [length_padTo (by simp [length_subjectBytes, length_leBytes])]
    decide

theorem length_countersSnapshot (s : State) : (countersSnapshot s).length = 4704 := by
  have sources : ((List.finRange 120).flatMap (sourceBytes s)).length = 120 * 28 := by
    rw [List.flatMap_def, length_flatten_of_all (w := 28) (by simp [sourceBytes, length_leBytes, length_wordBytes]),
      List.length_map, List.length_finRange]
  have listeners : ((List.finRange 160).flatMap (listenerBytes s)).length = 160 * 8 := by
    rw [List.flatMap_def, length_flatten_of_all (w := 8) (by simp [listenerBytes, length_wordBytes]), List.length_map,
      List.length_finRange]
  have first (o : Option FaultInfo) : (firstFaultBytes o).length = 8 := by
    cases o <;> simp [firstFaultBytes, length_addrBytes]
  simp only [countersSnapshot, List.length_append, sources, listeners, first, length_wordBytes, length_leBytes]
  rw [length_padTo (by simp [length_wordBytes, length_floorBytes])]

theorem length_snapshotOf (s : State) (item : QueryItem) : (snapshotOf s item).length = match item with
    | .line _ => 64 | .group _ => 128 | .position _ => 80 | .recorder _ => 192 | .counters => 4704 := by
  cases item with
  | line l => exact length_lineSnapshot s l
  | group g => exact length_groupSnapshot s g
  | position p => exact length_positionSnapshot s p
  | recorder c => exact length_recorderSnapshot s c
  | counters => exact length_countersSnapshot s

/-! ## The bursts of a snapshot -/

theorem flatten_bursts (bs : List Byte) (n : Nat) :
    ((List.range n).map fun k => (bs.drop (64 * k)).take 64).flatten = bs.take (64 * n) := by
  induction n with
  | zero => rfl
  | succ n ih =>
    rw [List.range_succ, List.map_append, List.flatten_append, ih, Nat.mul_succ, List.take_add]
    simp

theorem flatten_burstsOf (bs : List Byte) : (burstsOf bs).flatten = bs := by
  refine (flatten_bursts bs _).trans (List.take_of_length_le ?_)
  simp only [Config.burstBytes]
  omega

theorem length_burstsOf (bs : List Byte) : (burstsOf bs).length = (bs.length + 63) / 64 := by
  simp [burstsOf, Config.burstBytes]

theorem length_burst {i : Nat} {burst : List Byte} (is : (burstsOf bs)[i]? = some burst) :
    burst.length ≤ 64 ∧ (i + 1 < (burstsOf bs).length → burst.length = 64) := by
  obtain ⟨-, rfl⟩ : i < (bs.length + 63) / 64 ∧ (bs.drop (64 * i)).take 64 = burst := by
    simpa [burstsOf, Config.burstBytes, List.getElem?_eq_some_iff] using is
  rw [List.length_take, List.length_drop, length_burstsOf]
  omega

/-- The writes of a snapshot: its bursts in address order (R171). -/
def snapshotWrites (target : Addr) (bs : List Byte) : List OwnAccess :=
  (burstsOf bs).zipIdx.map fun b => ⟨.snapshot, target + BitVec.ofNat 36 (64 * b.2), b.1, 0⟩

theorem writeSnapshot_eq (target : Addr) (bs : List Byte) (s : State) :
    writeSnapshot target bs s = { s with pu := { s.pu with own := s.pu.own ++ snapshotWrites target bs } } := by
  unfold writeSnapshot snapshotWrites
  generalize (burstsOf bs).zipIdx = bursts
  induction bursts generalizing s with
  | nil => simp
  | cons b bursts ih =>
    rw [List.foldl_cons, ih, List.map_cons]
    simp only [requestOwn, List.append_assoc]
    rfl

theorem snapshotWrites_data (target : Addr) (bs : List Byte) : (snapshotWrites target bs).flatMap (·.data) = bs := by
  rw [snapshotWrites, List.flatMap_map, List.flatMap_def, List.zipIdx_map_fst, flatten_burstsOf]

theorem getElem?_snapshotWrites {i : Nat} (is : (snapshotWrites target bs)[i]? = some a) :
    a.purpose = .snapshot ∧ a.addr = target + BitVec.ofNat 36 (64 * i) ∧ a.data.length ≤ 64 ∧
      (i + 1 < (snapshotWrites target bs).length → a.data.length = 64) := by
  obtain ⟨burst, here, rfl⟩ : ∃ burst, (burstsOf bs)[i]? = some burst ∧
      (⟨.snapshot, target + BitVec.ofNat 36 (64 * i), burst, 0⟩ : OwnAccess) = a := by
    simpa [snapshotWrites] using is
  obtain ⟨atMost, full⟩ := length_burst here
  refine ⟨rfl, rfl, atMost, fun more => full ?_⟩
  simpa [snapshotWrites] using more

/-! ## The command -/

theorem queryArgs_of_item {kind index : Byte} (clear : Bool) (is : queryItem kind index = some item)
    (aligned : target.toNat % 64 = 0) : queryArgs kind index (flagCode clear) target = some (item, clear) := by
  simp only [queryArgs, is, flagArg_flagCode, if_pos aligned]

/-- The state with the counters of a QUERY cleared, and its writes not yet asked for. -/
def clearedBy (item : QueryItem) (clear : Bool) (s : State) : State :=
  let s := if clear then clearAfter s item else s
  { s with cu := { s.cu with snapError := false } }

theorem takeSnapshot_eq (item : QueryItem) (clear : Bool) (target : Addr) (s : State) :
    takeSnapshot item clear target s = { clearedBy item clear s with
      pu := { (clearedBy item clear s).pu with own := s.pu.own ++ snapshotWrites target (snapshotOf s item) } } := by
  have own : (clearedBy item clear s).pu.own = s.pu.own := by
    cases clear
    · rfl
    · cases item <;> rfl
  rw [← own]
  exact writeSnapshot_eq ..

theorem clearedBy_line (item : QueryItem) (clear : Bool) (s : State) (l : LineId) : (clearedBy item clear s).line l =
    { s.line l with missed := if clear = true ∧ item = .line l then 0 else (s.line l).missed } := by
  cases clear with
  | false => rfl
  | true =>
    cases item with
    | line k =>
      show (s.modLine k fun r => { r with missed := 0 }).line l = _
      rw [modLine_line]
      by_cases same : k = l <;> simp [same]
    | _ => rfl

/-- What a QUERY clears is a count of one of the sorts that snapshots report. -/
theorem clearedBy_frame (item : QueryItem) (clear : Bool) (s : State) : clearedBy item clear s = { s with
    lc := { s.lc with lines := (clearedBy item clear s).lc.lines }
    ru := { s.ru with logFaults := (clearedBy item clear s).ru.logFaults }
    me := { s.me with
      underrun := (clearedBy item clear s).me.underrun, saturation := (clearedBy item clear s).me.saturation }
    ft := { s.ft with
      syncMismatch := (clearedBy item clear s).ft.syncMismatch, clockLosses := (clearedBy item clear s).ft.clockLosses }
    pu := { s.pu with totals := (clearedBy item clear s).pu.totals, unheld := (clearedBy item clear s).pu.unheld }
    cu := { s.cu with evFaults := (clearedBy item clear s).cu.evFaults, snapError := false } } := by
  cases clear
  · rfl
  · cases item <;> rfl

theorem clearedBy_logFaults (item : QueryItem) (clear : Bool) (s : State) (other : ∀ k, item ≠ .recorder k) :
    (clearedBy item clear s).ru.logFaults = s.ru.logFaults := by
  cases clear with
  | false => rfl
  | true =>
    cases item with
    | recorder k => exact absurd rfl (other k)
    | _ => rfl

theorem clearedBy_of_not_counters (clear : Bool) (s : State) (other : item ≠ .counters) :
    (clearedBy item clear s).me = s.me ∧ (clearedBy item clear s).ft = s.ft ∧ (clearedBy item clear s).pu = s.pu ∧
      (clearedBy item clear s).cu = { s.cu with snapError := false } := by
  cases clear with
  | false => exact ⟨rfl, rfl, rfl, rfl⟩
  | true =>
    cases item with
    | counters => exact absurd rfl other
    | _ => exact ⟨rfl, rfl, rfl, rfl⟩

/-- A QUERY whose arguments pass takes its snapshot. -/
theorem exec_query_of_item {kind index : Byte} (clear : Bool)
    (holds : s.holds (.query kind index (flagCode clear) target) = true) (free : s.snapshotOut = false)
    (is : queryItem kind index = some item) (aligned : target.toNat % 64 = 0) :
    exec (.query kind index (flagCode clear) target) s = .next (takeSnapshot item clear target s) := by
  simp only [exec, execQuery, holds, free, queryArgs_of_item clear is aligned, Bool.not_false, Bool.and_self, if_true]

/-! ## The responses -/

theorem isSnapshot_eq {p : Purpose} (h : p.isSnapshot = true) : p = .snapshot := by
  cases p <;> simp_all [Purpose.isSnapshot]

theorem snapshotWriteResponse_of_returns (back : Returns Purpose.isSnapshot k a s u) (run : s.running = true)
    (error : Bool) : exec (.snapshotWriteResponse k error) s = .next (snapshotReturned a error u) := by
  refine (inRunning_of_running _ run).trans (congrArg Host.Outcome.next ?_)
  simp only [snapshotWriteResponse, back.takeFlight]

/-- The state after an error response, its error noted. -/
def errorNoted (a : OwnAccess) (u : State) : State :=
  let s := faultIf true a u
  { s with cu := { s.cu with snapError := true } }

theorem snapshotReturned_error (a : OwnAccess) (u : State) : snapshotReturned a true u =
    if (errorNoted a u).snapshotOut then errorNoted a u else complete .memoryError (errorNoted a u) := by
  simp only [snapshotReturned, Bool.or_true]
  rfl

theorem snapshotReturned_ok (a : OwnAccess) (u : State) : snapshotReturned a false u =
    if u.snapshotOut then u else complete (if u.cu.snapError then .memoryError else .ok) u := by
  simp only [snapshotReturned, Bool.or_false]
  rfl

/-- The slot writes of a posted event are no snapshot writes. -/
theorem post_snapshotOut (e : Event) (s : State) : (post e s).snapshotOut = s.snapshotOut := by
  have slots : (s.cu.takeEvent s.cu.reserve e).slots.any (·.purpose.isSnapshot) = false := by
    rw [List.any_eq_false]
    intro a mem snapshot
    have kind := CmdUnit.takeEvent_slots _ _ _ a mem
    rw [isSnapshot_eq snapshot] at kind
    cases kind
  show ((s.pu.own ++ (s.cu.takeEvent s.cu.reserve e).slots) ++ s.pu.flight).any _ = _
  simp only [State.snapshotOut, List.any_append, slots, Bool.or_false]

theorem Returns.errorNoted_out (back : Returns Purpose.isSnapshot k a s u) (run : s.running = true) :
    (errorNoted a u).snapshotOut = u.snapshotOut := by
  have loud : a.purpose.madeBeforeRunning = false := by
    rw [isSnapshot_eq back.picked]
    rfl
  have told : faultIf true a u = _ := memoryFault_told loud (back.running.trans run)
  show (faultIf true a u).snapshotOut = _
  rw [told, post_snapshotOut]
  rfl

/-- Settles O36: `takeSnapshot_eq` for the command; `snapshotReturned_ok`, `snapshotReturned_error` and
`Returns.errorNoted_out` for the responses. -/
theorem queryWritesSnapshot : Obligations.QueryWritesSnapshot := by
  refine ⟨fun kind index clear target item s => ?_, fun k a s u run back => ?_⟩
  · intro c holds free is aligned
    have act := exec_query_of_item clear holds free is aligned
    rw [takeSnapshot_eq] at act
    obtain ⟨-, executing, hand⟩ := holds_iff.1 holds
    have frame := clearedBy_frame item clear s
    obtain ⟨execution, inHand, taken⟩ : (clearedBy item clear s).cu.execution = s.cu.execution ∧
        (clearedBy item clear s).cu.inHand = s.cu.inHand ∧ (clearedBy item clear s).cu.taken = s.cu.taken := by
      rw [frame]
      exact ⟨rfl, rfl, rfl⟩
    refine ⟨_, snapshotWrites target (snapshotOf s item), act, rfl, snapshotWrites_data .., fun i a here =>
      getElem?_snapshotWrites here, length_snapshotOf .., execution.trans executing, inHand.trans hand, taken,
      clearedBy_line item clear s, ?_, clearedBy_logFaults item clear s, ?_, fun other => ?_, ?_, ?_⟩
    · rintro k rfl rfl
      rfl
    · rintro rfl rfl
      refine ⟨fun i => ?_, fun j => ⟨?_, ?_⟩, fun i => ?_, rfl, rfl, rfl⟩
      · exact Table.get_map ..
      · exact Table.get_replicate ..
      · exact Table.get_replicate ..
      · exact Table.get_replicate ..
    · obtain ⟨me, ft, pu, cu⟩ := clearedBy_of_not_counters clear s other
      exact ⟨me, ft, by rw [pu], cu⟩
    · rw [frame]
    · rintro rfl
      rfl
  · have act := snapshotWriteResponse_of_returns back run
    have told := back.toldFault (by rw [isSnapshot_eq back.picked]; rfl) run
    rw [isSnapshot_eq back.picked] at told
    have stored : u.cu = s.cu := back.cu
    have noted : (errorNoted a u).cu.fault = faultAfter a s.cu.fault := by
      rw [← stored]
      exact told.fault
    have kept {β : Type} (get : CmdUnit → β) (keeps : ∀ (c : CmdUnit) n e, get (c.takeEvent n e).unit = get c) :
        get (faultIf true a u).cu = get { s.cu with fault := faultAfter a s.cu.fault } := by
      rw [told.told.unit, afterEvents_keeps get keeps, stored]
    have unnoted : { errorNoted a u with cu := { (errorNoted a u).cu with snapError := s.cu.snapError } } =
        faultIf true a u := by
      have snap : (faultIf true a u).cu.snapError = s.cu.snapError := kept (·.snapError) (by simp)
      rw [← snap]
      rfl
    have out := back.errorNoted_out run
    refine ⟨fun more => ⟨u, ?_, rfl⟩, fun last => ?_, fun more => ⟨errorNoted a u, ?_, rfl, noted, ?_, ?_⟩,
      fun last => ⟨errorNoted a u, ?_, noted, ?_⟩⟩
    · rw [act false, snapshotReturned_ok, if_pos more]
    · rw [act false, snapshotReturned_ok, if_neg (Bool.eq_false_iff.mp last), stored]
    · rw [act true, snapshotReturned_error, out, if_pos more]
    · exact kept (·.execution) (by simp)
    · exact kept (·.inHand) (by simp)
    · rw [act true, snapshotReturned_error, out, if_neg (Bool.eq_false_iff.mp last)]
    · rw [unnoted, ← stored]
      exact told.told

end Sys2Proof.Machine

namespace Sys2Proof.Machine

variable {s t : State} {i : SourceId} {k : SlotId} {bytes : List (Nat × Byte)} {x n : Nat}

/-! # Upstream writes (R108 to R117) -/

/-! ## Where an address lies -/

theorem offsetIn_eq_some {base : Option Addr} {size x y : Nat} :
    offsetIn base size x = some y ↔ ∃ b, base = some b ∧ y < size ∧ x = b.toNat + y := by
  cases base with
  | none => simp [offsetIn]
  | some b =>
    simp only [offsetIn, Option.ite_none_right_eq_some, Option.some.injEq, exists_eq_left']
    omega

theorem inboundPlace_eq_some : inboundPlace s x = some (i, k) ↔
    ∃ base, s.pu.regions.inbound = some base ∧ base.toNat + 256 * i.val + 32 * k.val ≤ x ∧
      x < base.toNat + 256 * i.val + 32 * k.val + 32 := by
  have place : inboundPlace s x = some (i, k) ↔
      ∃ y, offsetIn s.pu.regions.inbound 32768 x = some y ∧ y / 256 = i.val ∧ y % 256 / 32 = k.val := by
    unfold inboundPlace
    cases offsetIn s.pu.regions.inbound 32768 x with
    | none => simp
    | some y =>
      have source := i.isLt
      simp only [Option.dite_none_right_eq_some, Option.some.injEq, Prod.mk.injEq, Fin.ext_iff, exists_prop,
        exists_eq_left']
      omega
  rw [place]
  simp only [offsetIn_eq_some]
  constructor
  · rintro ⟨y, ⟨base, is, inside, rfl⟩, source, slot⟩
    exact ⟨base, is, by omega, by omega⟩
  · rintro ⟨base, is, low, high⟩
    have source := i.isLt
    have slot := k.isLt
    exact ⟨x - base.toNat, ⟨base, is, by omega, by omega⟩, by omega, by omega⟩

theorem signalWordAt_eq_some {w : Watched} : signalWordAt x = some (w, n) ↔
    (∃ l : LineId, w = .signal l ∧ n < 4 ∧ x = 4 * l.val + n) ∨ (w = .timeSync ∧ n < 16 ∧ x = 512 + n) := by
  unfold signalWordAt
  split
  · next inside =>
    simp only [Option.some.injEq, Prod.mk.injEq]
    constructor
    · rintro ⟨rfl, rfl⟩
      exact .inl ⟨_, rfl, by omega, by dsimp only; omega⟩
    · rintro (⟨l, rfl, low, is⟩ | ⟨rfl, low, is⟩)
      · exact ⟨congrArg _ (Fin.ext (by dsimp only; omega)), by omega⟩
      · omega
  · next outside =>
    simp only [Option.ite_none_right_eq_some, Option.some.injEq, Prod.mk.injEq]
    constructor
    · rintro ⟨inside, rfl, rfl⟩
      exact .inr ⟨rfl, by omega, by omega⟩
    · rintro (⟨l, rfl, low, is⟩ | ⟨rfl, low, is⟩)
      · have := l.isLt
        omega
      · exact ⟨by omega, rfl, by omega⟩

theorem controlWordAt_eq_some {w : Watched} : controlWordAt x = some (w, n) ↔
    (w = .post ∧ n < 4 ∧ x = n) ∨ (w = .evConsumed ∧ n < 4 ∧ x = 12 + n) ∨
      (w = .logConsumed ∧ n < 4 ∧ x = 20 + n) := by
  unfold controlWordAt
  constructor
  · intro is
    split at is
    · next low =>
      cases is
      exact .inl ⟨rfl, low, rfl⟩
    · split at is
      · cases is
        exact .inr (.inl ⟨rfl, by omega, by omega⟩)
      · obtain ⟨inside, word⟩ := Option.ite_none_right_eq_some.1 is
        cases word
        exact .inr (.inr ⟨rfl, by omega, by omega⟩)
  · rintro (⟨rfl, low, rfl⟩ | ⟨rfl, low, rfl⟩ | ⟨rfl, low, rfl⟩)
    · rw [if_pos low]
    · rw [if_neg (by omega), if_pos (by omega), Nat.add_sub_cancel_left]
    · rw [if_neg (by omega), if_neg (by omega), if_pos (by omega), Nat.add_sub_cancel_left]

/-- Where the bytes of watched words lie (R110, R111, R183). -/
theorem mem_watchedAt {w : Watched} : (w, n) ∈ watchedAt s x ↔
    (∃ y base, s.pu.regions.signal = some base ∧ y < 2048 ∧ x = base.toNat + y ∧ signalWordAt y = some (w, n)) ∨
    (∃ y base, s.pu.regions.control = some base ∧ y < 64 ∧ x = base.toNat + y ∧ controlWordAt y = some (w, n)) ∨
    (w = .anchor ∧ n < 4 ∧ x = (anchorAddr s.ld.sel).toNat + n) := by
  have anchor : (w, n) ∈ ((offsetIn (some (anchorAddr s.ld.sel)) 4 x).map fun y => (Watched.anchor, y)).toList ↔
      w = .anchor ∧ n < 4 ∧ x = (anchorAddr s.ld.sel).toNat + n := by
    simp only [Option.mem_toList, Option.map_eq_some_iff, offsetIn_eq_some, Option.some.injEq, exists_eq_left',
      Prod.mk.injEq, eq_comm (a := Watched.anchor)]
    constructor
    · rintro ⟨y, ⟨low, is⟩, word, rfl⟩
      exact ⟨word, low, is⟩
    · rintro ⟨word, low, is⟩
      exact ⟨n, ⟨low, is⟩, word, rfl⟩
  have inRegion (base : Option Addr) (size : Nat) (wordAt : Nat → Option (Watched × Nat)) :
      (w, n) ∈ ((offsetIn base size x).bind wordAt).toList ↔
        ∃ y b, base = some b ∧ y < size ∧ x = b.toNat + y ∧ wordAt y = some (w, n) := by
    simp only [Option.mem_toList, Option.bind_eq_some_iff, offsetIn_eq_some]
    constructor
    · rintro ⟨y, ⟨b, is, inside, here⟩, word⟩
      exact ⟨y, b, is, inside, here, word⟩
    · rintro ⟨y, b, is, inside, here, word⟩
      exact ⟨y, ⟨b, is, inside, here⟩, word⟩
  simp only [watchedAt, List.mem_append, inRegion, anchor, or_assoc]

theorem place_iff {region : Option Addr} {size offset width : Nat} (fits : offset + width ≤ size) :
    (∃ y base, region = some base ∧ y < size ∧ x = base.toNat + y ∧ n < width ∧ y = offset + n) ↔
      n < width ∧ ∃ base, region = some base ∧ x = base.toNat + offset + n := by
  constructor
  · rintro ⟨y, base, is, -, here, low, rfl⟩
    exact ⟨low, base, is, by omega⟩
  · rintro ⟨low, base, is, here⟩
    exact ⟨offset + n, base, is, by omega, by omega, low, rfl⟩

theorem mem_watchedAt_iff (s : State) (x : Nat) (w : Watched) (n : Nat) : (w, n) ∈ watchedAt s x ↔
    let inSignal (offset : Nat) : Prop := ∃ base, s.pu.regions.signal = some base ∧ x = base.toNat + offset + n
    let inControl (offset : Nat) : Prop := ∃ base, s.pu.regions.control = some base ∧ x = base.toNat + offset + n
    match w with
    | .signal l => n < 4 ∧ inSignal (4 * l.val)
    | .timeSync => n < 16 ∧ inSignal 512
    | .post => n < 4 ∧ inControl 0
    | .evConsumed => n < 4 ∧ inControl 12
    | .logConsumed => n < 4 ∧ inControl 20
    | .anchor => n < 4 ∧ x = (anchorAddr s.ld.sel).toNat + n := by
  rw [mem_watchedAt]
  cases w with
  | signal l =>
    have fits := l.isLt
    simpa [signalWordAt_eq_some, controlWordAt_eq_some] using
      place_iff (width := 4) (offset := 4 * l.val) (size := 2048) (by omega)
  | timeSync =>
    simpa [signalWordAt_eq_some, controlWordAt_eq_some] using
      place_iff (width := 16) (offset := 512) (size := 2048) (by decide)
  | post =>
    simpa [signalWordAt_eq_some, controlWordAt_eq_some] using
      place_iff (width := 4) (offset := 0) (size := 64) (by decide)
  | evConsumed =>
    simpa [signalWordAt_eq_some, controlWordAt_eq_some] using
      place_iff (width := 4) (offset := 12) (size := 64) (by decide)
  | logConsumed =>
    simpa [signalWordAt_eq_some, controlWordAt_eq_some] using
      place_iff (width := 4) (offset := 20) (size := 64) (by decide)
  | anchor => simp [signalWordAt_eq_some, controlWordAt_eq_some]

end Sys2Proof.Machine

namespace Sys2Proof.Machine

variable {s t : State} {i : SourceId} {k : SlotId} {bytes : List (Nat × Byte)} {marks : Table 32 (Option Byte)} {x n : Nat}

/-! ## The bytes of a slot (R114, R115) -/

theorem markBytes_get (bytes : List (Nat × Byte)) (marks : Table 32 (Option Byte)) (m : Fin 32) :
    (markBytes bytes marks).get m =
      ((bytes.filter fun b => b.1 % 32 == m.val).getLast?.map (·.2)).or (marks.get m) := by
  induction bytes generalizing marks with
  | nil => rfl
  | cons b bytes ih =>
    refine (ih _).trans ?_
    rw [Table.get_set, List.filter_cons]
    by_cases here : b.1 % 32 = m.val
    · rw [if_pos (Fin.ext here), if_pos (beq_iff_eq.2 here), List.getLast?_cons]
      cases (bytes.filter fun b => b.1 % 32 == m.val).getLast? <;> rfl
    · rw [if_neg (fun same => here (congrArg Fin.val same)), if_neg (by simpa using here)]

theorem mem_rows {n : Nat} {α : Type} {table : Table n α} {a : α} : a ∈ table.rows ↔ ∃ j, table.get j = a := by
  simp only [List.mem_iff_getElem, Table.get]
  constructor
  · rintro ⟨j, inside, rfl⟩
    exact ⟨⟨j, table.size_eq ▸ inside⟩, rfl⟩
  · rintro ⟨j, rfl⟩
    exact ⟨j.val, _, rfl⟩

theorem fullMarks_of_some (all : ∀ m, marks.get m ≠ none) :
    fullMarks marks = some (marks.rows.map fun m => m.getD 0) := by
  refine if_pos (List.all_eq_true.2 fun o mem => ?_)
  obtain ⟨m, rfl⟩ := mem_rows.1 mem
  exact Option.isSome_iff_ne_none.2 (all m)

theorem fullMarks_of_none {m : Fin 32} (absent : marks.get m = none) : fullMarks marks = none := by
  refine if_neg fun all => ?_
  have marked := List.all_eq_true.1 all _ (mem_rows.2 ⟨m, rfl⟩)
  rw [absent] at marked
  cases marked

theorem frameOfBytes_marks (marks : Table 32 (Option Byte)) (x : Fin 16) :
    ((frameOfBytes (marks.rows.map fun m => m.getD 0)).get x).toNat = ((marks.get ⟨2 * x.val, by omega⟩).getD 0).toNat +
      256 * ((marks.get ⟨2 * x.val + 1, by omega⟩).getD 0).toNat := by
  have size : marks.rows.length = 32 := marks.size_eq
  have two : leAt (marks.rows.map fun m => m.getD 0) (2 * x.val) 2 =
      ((marks.get ⟨2 * x.val, by omega⟩).getD 0).toNat + 256 * ((marks.get ⟨2 * x.val + 1, by omega⟩).getD 0).toNat := by
    have low := x.isLt
    rw [leAt, List.drop_eq_getElem_cons (by rw [List.length_map, size]; omega),
      List.drop_eq_getElem_cons (by rw [List.length_map, size]; omega)]
    simp [leNat, Table.get]
  rw [frameOfBytes, Table.get_build, two, BitVec.toNat_ofNat]
  have lo := ((marks.get ⟨2 * x.val, by omega⟩).getD 0).isLt
  have hi := ((marks.get ⟨2 * x.val + 1, by omega⟩).getD 0).isLt
  omega

theorem pushFrame_eq (f : Frame) (q : List Frame) (t : Totals) : pushFrame f q t =
    ((if q.length < 4 then q else q.tail) ++ [f],
      { t with captured := t.captured + 1, overrun := if q.length < 4 then t.overrun else t.overrun + 1 }) := by
  unfold pushFrame Config.framePlaces
  by_cases room : q.length < 4
  · rw [if_neg (by omega), if_pos room, if_pos room]
  · rw [if_pos (by omega), if_neg room, if_neg room]

/-- A slot left behind: the record stands at another slot than `k` (R114). -/
def Left (k : SlotId) (a : Assembly) : Prop := ∃ j, a.slot = some j ∧ j ≠ k

theorem openSlot_of_left {a : Assembly} (left : Left k a) (t : Totals) :
    openSlot k a t = (⟨some k, .replicate 32 none⟩, { t with torn := t.torn + 1 }) := by
  obtain ⟨j, at_, other⟩ := left
  simp only [openSlot, at_, if_neg other]

theorem openSlot_of_not_left {a : Assembly} (stays : ¬Left k a) (t : Totals) :
    openSlot k a t = (⟨some k, a.marks⟩, t) := by
  unfold openSlot
  split
  · rfl
  · next j at_ =>
    have same : j = k := not_not.1 fun other => stays ⟨j, at_, other⟩
    subst same
    rw [if_pos rfl, ← at_]

/-- The marks of source `i` before the bytes of a beat into slot `k` are marked. -/
def marksBefore (s : State) (i : SourceId) (k : SlotId) : Table 32 (Option Byte) :=
  (openSlot k (s.pu.assembly.get i) (s.pu.totals.get i)).1.marks

theorem marksBefore_get [Decidable (Left k (s.pu.assembly.get i))] (m : Fin 32) : (marksBefore s i k).get m =
    if Left k (s.pu.assembly.get i) then none else (s.pu.assembly.get i).marks.get m := by
  unfold marksBefore
  by_cases left : Left k (s.pu.assembly.get i)
  · rw [openSlot_of_left left, if_pos left, Table.get_replicate]
  · rw [openSlot_of_not_left left, if_neg left]

theorem slotMarked_eq [Decidable (Left k (s.pu.assembly.get i))] : slotMarked s i k bytes =
    (⟨some k, markBytes bytes (marksBefore s i k)⟩, { s.pu.totals.get i with
      torn := if Left k (s.pu.assembly.get i) then (s.pu.totals.get i).torn + 1 else (s.pu.totals.get i).torn }) := by
  unfold slotMarked marksBefore
  by_cases left : Left k (s.pu.assembly.get i)
  · rw [openSlot_of_left left, if_pos left]
  · rw [openSlot_of_not_left left, if_neg left]

/-- `t` is `s` after the bytes of a beat into slot `k` of source `i`, which leave the marks `marks` (R114, R115). -/
theorem assemble_treated (i : SourceId) (k : SlotId) (bytes : List (Nat × Byte)) (s : State)
    [Decidable (Left k (s.pu.assembly.get i))] :
    let t := assemble i k bytes s
    let marks := markBytes bytes (marksBefore s i k)
    let torn := if Left k (s.pu.assembly.get i) then (s.pu.totals.get i).torn + 1 else (s.pu.totals.get i).torn
    ((∃ m, marks.get m = none) → t.pu.assembly.get i = ⟨some k, marks⟩ ∧ t.pu.queues = s.pu.queues ∧
      t.pu.totals.get i = { s.pu.totals.get i with torn := torn }) ∧
    ((∀ m, marks.get m ≠ none) → t.pu.assembly.get i = ⟨none, .replicate 32 none⟩ ∧
      t.pu.queues.get i = (if (s.pu.queues.get i).length < 4 then s.pu.queues.get i else (s.pu.queues.get i).tail) ++
        [frameOfBytes (marks.rows.map fun m => m.getD 0)] ∧
      t.pu.totals.get i = { s.pu.totals.get i with
        captured := (s.pu.totals.get i).captured + 1
        overrun := if (s.pu.queues.get i).length < 4 then (s.pu.totals.get i).overrun
          else (s.pu.totals.get i).overrun + 1
        torn := torn }) := by
  intro t marks torn
  refine ⟨fun ⟨m, absent⟩ => ?_, fun all => ?_⟩
  · have part : fullMarks (slotMarked s i k bytes).1.marks = none := by
      rw [slotMarked_eq]
      exact fullMarks_of_none absent
    simp only [t, assemble_of_part part, Table.get_set_self]
    rw [slotMarked_eq]
    exact ⟨rfl, trivial, rfl⟩
  · have full : fullMarks (slotMarked s i k bytes).1.marks = some (marks.rows.map fun m => m.getD 0) := by
      rw [slotMarked_eq]
      exact fullMarks_of_some all
    simp only [t, assemble_of_full full, Table.get_set_self, pushFrame_eq]
    rw [slotMarked_eq]
    exact ⟨rfl, trivial, rfl⟩

theorem assemble_others {j : SourceId} (other : j ≠ i) (k : SlotId) (bytes : List (Nat × Byte)) (s : State) :
    (assemble i k bytes s).pu.assembly.get j = s.pu.assembly.get j ∧
    (assemble i k bytes s).pu.queues.get j = s.pu.queues.get j ∧
    (assemble i k bytes s).pu.totals.get j = s.pu.totals.get j := by
  cases marks : fullMarks (slotMarked s i k bytes).1.marks with
  | none =>
    rw [assemble_of_part marks]
    exact ⟨Table.get_set_ne _ _ other.symm, rfl, Table.get_set_ne _ _ other.symm⟩
  | some all =>
    rw [assemble_of_full marks]
    exact ⟨Table.get_set_ne _ _ other.symm, Table.get_set_ne _ _ other.symm, Table.get_set_ne _ _ other.symm⟩

theorem assemble_frame (i : SourceId) (k : SlotId) (bytes : List (Nat × Byte)) (s : State) :
    assemble i k bytes s = { s with pu := { s.pu with
      assembly := (assemble i k bytes s).pu.assembly, queues := (assemble i k bytes s).pu.queues
      totals := (assemble i k bytes s).pu.totals } } := by
  cases marks : fullMarks (slotMarked s i k bytes).1.marks with
  | none => rw [assemble_of_part marks]
  | some all => rw [assemble_of_full marks]

end Sys2Proof.Machine

namespace Sys2Proof.Machine

variable {s t v : State} {i : SourceId} {k : SlotId} {bytes : List (Nat × Byte)} {beats : List (List (Nat × Byte))}

/-! ## The beats of a transaction (R114) -/

/-- The bytes of a beat are taken in the slot that holds its first byte, the regions being those of `s`. -/
def placedBeat (s v : State) (bytes : List (Nat × Byte)) : State :=
  match bytes with
  | [] => v
  | b :: _ =>
    match inboundPlace s b.1 with
    | some (i, k) => assemble i k bytes v
    | none => v

theorem placedBeat_of_slot {b : Nat × Byte} {rest : List (Nat × Byte)} (place : inboundPlace s b.1 = some (i, k)) :
    placedBeat s v (b :: rest) = assemble i k (b :: rest) v := by
  simp only [placedBeat, place]

theorem placedBeat_of_none {b : Nat × Byte} {rest : List (Nat × Byte)} (place : inboundPlace s b.1 = none) :
    placedBeat s v (b :: rest) = v := by
  simp only [placedBeat, place]

/-- A beat leaves its state as it is or takes its bytes in a slot that holds its first byte. -/
theorem placedBeat_cases (s v : State) (bytes : List (Nat × Byte)) : placedBeat s v bytes = v ∨
    ∃ b ∈ bytes, ∃ i k, inboundPlace s b.1 = some (i, k) ∧ placedBeat s v bytes = assemble i k bytes v := by
  cases bytes with
  | nil => exact .inl rfl
  | cons b rest =>
    cases place : inboundPlace s b.1 with
    | none => exact .inl (placedBeat_of_none place)
    | some p => exact .inr ⟨b, List.mem_cons_self, p.1, p.2, place, placedBeat_of_slot place⟩

/-- Only what capture treats has moved: the records of the slots, the input queues and their totals. -/
def Capturing (s t : State) : Prop := t = { s with pu := { s.pu with
  assembly := t.pu.assembly, queues := t.pu.queues, totals := t.pu.totals } }

theorem Capturing.trans {u : State} (a : Capturing s t) (b : Capturing t u) : Capturing s u := by
  unfold Capturing at *
  rw [b, a]

theorem placedBeat_capturing (s v : State) (bytes : List (Nat × Byte)) : Capturing v (placedBeat s v bytes) := by
  rcases placedBeat_cases s v bytes with same | ⟨b, -, i, k, -, same⟩
  · rw [same]
    rfl
  · rw [same]
    exact assemble_frame ..

theorem placedBeats_capturing (s v : State) (beats : List (List (Nat × Byte))) :
    Capturing v (beats.foldl (placedBeat s) v) := by
  induction beats generalizing v with
  | nil => rfl
  | cons beat beats ih => exact (placedBeat_capturing s v beat).trans (ih _)

theorem captureBeat_eq (same : v.pu.regions = s.pu.regions) : captureBeat bytes v = placedBeat s v bytes := by
  have place (x : Nat) : inboundPlace v x = inboundPlace s x := by rw [inboundPlace, same]; rfl
  cases bytes with
  | nil => rfl
  | cons b rest =>
    cases at_ : inboundPlace s b.1 with
    | none => simp only [captureBeat, placedBeat, place, at_]
    | some p => simp only [captureBeat, placedBeat, place, at_]

theorem captureBeats_eq (same : v.pu.regions = s.pu.regions) :
    beats.foldl (fun s b => captureBeat b s) v = beats.foldl (placedBeat s) v := by
  induction beats generalizing v with
  | nil => rfl
  | cons beat beats ih =>
    rw [List.foldl_cons, List.foldl_cons, captureBeat_eq same]
    exact ih ((congrArg (·.pu.regions) (placedBeat_capturing s v beat) :).trans same)

theorem assemble_forward (x : PassTxn) : assemble i k bytes (forward x v) = forward x (assemble i k bytes v) := by
  cases marks : fullMarks (slotMarked v i k bytes).1.marks with
  | none =>
    rw [assemble_of_part marks]
    exact assemble_of_part (s := forward x v) marks
  | some all =>
    rw [assemble_of_full marks]
    exact assemble_of_full (s := forward x v) marks

theorem placedBeats_forward (x : PassTxn) :
    beats.foldl (placedBeat s) (forward x v) = forward x (beats.foldl (placedBeat s) v) := by
  have beat (v : State) (bytes : List (Nat × Byte)) :
      placedBeat s (forward x v) bytes = forward x (placedBeat s v bytes) := by
    cases bytes with
    | nil => rfl
    | cons b rest =>
      cases place : inboundPlace s b.1 with
      | none => rw [placedBeat_of_none place, placedBeat_of_none place]
      | some p => rw [placedBeat_of_slot place, placedBeat_of_slot place, assemble_forward]
  induction beats generalizing v with
  | nil => rfl
  | cons bytes beats ih => rw [List.foldl_cons, beat, ih, List.foldl_cons]

/-- A source in whose window no byte is written keeps its record, its queue and its totals. -/
theorem placedBeats_away (away : ∀ b ∈ beats.flatten, ∀ k, inboundPlace s b.1 ≠ some (i, k)) :
    (beats.foldl (placedBeat s) v).pu.queues.get i = v.pu.queues.get i ∧
    (beats.foldl (placedBeat s) v).pu.totals.get i = v.pu.totals.get i ∧
    (beats.foldl (placedBeat s) v).pu.assembly.get i = v.pu.assembly.get i := by
  induction beats generalizing v with
  | nil => exact ⟨rfl, rfl, rfl⟩
  | cons bytes beats ih =>
    rw [List.flatten_cons] at away
    obtain ⟨queues, totals, assembly⟩ := ih (v := placedBeat s v bytes) fun b mem => away b (List.mem_append_right _ mem)
    rw [List.foldl_cons, queues, totals, assembly]
    rcases placedBeat_cases s v bytes with same | ⟨b, mem, j, k, place, same⟩
    · rw [same]
      exact ⟨rfl, rfl, rfl⟩
    · have other : i ≠ j := by
        rintro rfl
        exact away b (List.mem_append_left _ mem) k place
      obtain ⟨assembly, queues, totals⟩ := assemble_others other k bytes v
      rw [same]
      exact ⟨queues, totals, assembly⟩

end Sys2Proof.Machine

namespace Sys2Proof.Machine

variable {s t : State} {written : List (Watched × Nat)} {bytes : List (Nat × Byte)} {h : Shadows} {w : Watched} {n : Nat}

/-! ## The words handed on (R110, R111) -/

/-- The watched words of the shadows, in the order in which they are handed on. -/
def wordsOf (h : Shadows) : List Handed :=
  ((List.finRange 96).map fun l => .signalWord l (h.signal.get l)) ++
    [.timeSync h.timeSync, .commandPost h.post, .eventConsumed h.evConsumed, .logConsumed h.logConsumed, .anchor h.anchor]

/-- The place of a handed word in that order. -/
def Handed.rank : Handed → Nat
  | .signalWord l _ => l.val
  | .timeSync _ => 96
  | .commandPost _ => 97
  | .eventConsumed _ => 98
  | .logConsumed _ => 99
  | .anchor _ => 100

/-- The written bytes of watched words bring about that this word is handed on. -/
def Handed.wrote (written : List (Watched × Nat)) : Handed → Bool
  | .signalWord l _ => written.any fun x => x.1 == .signal l
  | .timeSync _ => written.contains (.timeSync, 15)
  | .commandPost _ => written.any fun x => x.1 == .post
  | .eventConsumed _ => written.any fun x => x.1 == .evConsumed
  | .logConsumed _ => written.any fun x => x.1 == .logConsumed
  | .anchor _ => written.any fun x => x.1 == .anchor

theorem filter_cons_handIf (wrote : Handed → Bool) (x : Handed) (xs : List Handed) :
    (x :: xs).filter wrote = handIf (wrote x) x ++ xs.filter wrote := by
  rw [List.filter_cons, handIf]
  cases wrote x <;> rfl

theorem filter_map_handIf {α : Type} (wrote : Handed → Bool) (word : α → Handed) (ls : List α) :
    (ls.map word).filter wrote = ls.flatMap fun l => handIf (wrote (word l)) (word l) := by
  induction ls with
  | nil => rfl
  | cons l ls ih => rw [List.map_cons, filter_cons_handIf, ih, List.flatMap_cons]

theorem handOns_eq (written : List (Watched × Nat)) (h : Shadows) :
    handOns written h = (wordsOf h).filter (Handed.wrote written) := by
  rw [wordsOf, List.filter_append, filter_map_handIf]
  simp only [filter_cons_handIf, List.filter_nil, List.append_nil, ← List.append_assoc]
  rfl

theorem wordsOf_ranked (h : Shadows) : (wordsOf h).Pairwise fun x y => x.rank < y.rank := by
  have signals : ((List.finRange 96).map fun l => Handed.signalWord l (h.signal.get l)).Pairwise
      fun x y => x.rank < y.rank := List.pairwise_map.2 (List.pairwise_lt_finRange 96)
  have others : [Handed.timeSync h.timeSync, .commandPost h.post, .eventConsumed h.evConsumed, .logConsumed h.logConsumed,
      .anchor h.anchor].Pairwise fun x y => x.rank < y.rank := by simp [Handed.rank]
  refine List.pairwise_append.2 ⟨signals, others, fun x hx y hy => ?_⟩
  obtain ⟨l, -, rfl⟩ := List.mem_map.1 hx
  have low : l.val < 96 := l.isLt
  have high : 96 ≤ y.rank := by
    simp only [List.mem_cons, List.not_mem_nil, or_false] at hy
    rcases hy with rfl | rfl | rfl | rfl | rfl <;> simp [Handed.rank]
  exact lt_of_lt_of_le low high

theorem handOns_ranked (written : List (Watched × Nat)) (h : Shadows) :
    (handOns written h).Pairwise fun x y => x.rank < y.rank := by
  rw [handOns_eq]
  exact (wordsOf_ranked h).filter _

theorem handOns_nodup (written : List (Watched × Nat)) (h : Shadows) : (handOns written h).Nodup := by
  refine (handOns_ranked written h).imp fun before => ?_
  rintro rfl
  exact Nat.lt_irrefl _ before

/-- Byte `n` for which `byte` holds of the watched word `w` is among those written. -/
def Touches (s : State) (bytes : List (Nat × Byte)) (w : Watched) (byte : Nat → Prop) : Prop :=
  ∃ b ∈ bytes, ∃ n, (w, n) ∈ watchedAt s b.1 ∧ byte n

theorem any_touched : (bytes.flatMap fun b => watchedAt s b.1).any (fun x => x.1 == w) = true ↔
    Touches s bytes w fun _ => True := by
  simp only [List.any_eq_true, List.mem_flatMap, beq_iff_eq, Touches, and_true]
  constructor
  · rintro ⟨⟨_, n⟩, ⟨b, mem, here⟩, rfl⟩
    exact ⟨b, mem, n, here⟩
  · rintro ⟨b, mem, n, here⟩
    exact ⟨(w, n), ⟨b, mem, here⟩, rfl⟩

theorem contains_touched : (bytes.flatMap fun b => watchedAt s b.1).contains (w, n) = true ↔
    Touches s bytes w (· = n) := by
  simp only [List.contains_iff_mem, List.mem_flatMap, Touches, exists_eq_right]

end Sys2Proof.Machine

namespace Sys2Proof.Machine

variable {s t : State} {bytes : List (Nat × Byte)} {h : Shadows} {w : Watched} {n i : Nat} {b : Byte}

/-! ## The shadows (R110, R111) -/

theorem getLsbD_setByte {m p : Nat} (word : BitVec m) (i : Nat) (b : Byte) (inside : p < m) : (setByte word i b).getLsbD p =
    if 8 * i ≤ p ∧ p < 8 * i + 8 then b.getLsbD (p - 8 * i) else word.getLsbD p := by
  have byte : (255).testBit (p - 8 * i) = decide (p - 8 * i < 8) := Nat.testBit_two_pow_sub_one 8 _
  simp only [setByte, BitVec.getLsbD_or, BitVec.getLsbD_and, BitVec.getLsbD_not, BitVec.getLsbD_shiftLeft,
    BitVec.getLsbD_ofNat, BitVec.getLsbD_setWidth, inside, byte]
  by_cases low : p < 8 * i
  · simp [low, Nat.not_le.2 low]
  · by_cases high : p < 8 * i + 8
    · have rest : p - 8 * i < 8 := by omega
      have fits : p - 8 * i < m := by omega
      simp [low, high, Nat.not_lt.1 low, rest, fits]
    · have rest : ¬p - 8 * i < 8 := by omega
      simp [low, high, rest, BitVec.getLsbD_of_ge b (p - 8 * i) (by omega)]

theorem extract_setByte {m : Nat} (word : BitVec m) (b : Byte) (fits : 8 * i + 8 ≤ m) (n : Nat) :
    (setByte word i b).extractLsb' (8 * n) 8 = if n = i then b else word.extractLsb' (8 * n) 8 := by
  refine BitVec.eq_of_getLsbD_eq fun p low => ?_
  by_cases inside : 8 * n + p < m
  · rw [BitVec.getLsbD_extractLsb', getLsbD_setByte word i b inside]
    by_cases same : n = i
    · subst same
      simp [low]
    · have other : ¬(8 * i ≤ 8 * n + p ∧ 8 * n + p < 8 * i + 8) := by omega
      simp [same, other]
  · have same : n ≠ i := by omega
    rw [if_neg same]
    simp [BitVec.getLsbD_of_ge _ _ (Nat.not_lt.1 inside)]

/-- The number of bytes of a watched word (R183). -/
def Watched.size : Watched → Nat
  | .timeSync => 16
  | _ => 4

theorem byteOf_shadowByte_self (inside : i < w.size) (b : Byte) (h : Shadows) (n : Nat) :
    (shadowByte w i b h).byteOf w n = if n = i then b else h.byteOf w n := by
  cases w with
  | signal l =>
    simp only [shadowByte, Shadows.byteOf, Table.get_modify_self]
    exact extract_setByte _ b (by simp only [Watched.size] at inside; omega) n
  | timeSync => exact extract_setByte _ b (by simp only [Watched.size] at inside; omega) n
  | _ => exact extract_setByte _ b (by simp only [Watched.size] at inside; omega) n

theorem byteOf_shadowByte_ne {w' : Watched} (other : w' ≠ w) (i : Nat) (b : Byte) (h : Shadows) (n : Nat) :
    (shadowByte w i b h).byteOf w' n = h.byteOf w' n := by
  cases w with
  | signal l =>
    cases w' with
    | signal l' =>
      have lines : l ≠ l' := fun same => other (congrArg Watched.signal same.symm)
      simp only [shadowByte, Shadows.byteOf, Table.get_modify_ne _ _ lines]
    | _ => rfl
  | _ => cases w' <;> trivial

/-- A byte of a watched word is replaced, and every other byte of the shadows stays. -/
theorem byteOf_shadowByte (inside : i < w.size) (b : Byte) (h : Shadows) (w' : Watched) (n : Nat) :
    (shadowByte w i b h).byteOf w' n = if (w', n) = (w, i) then b else h.byteOf w' n := by
  by_cases same : w' = w
  · subst same
    simp only [byteOf_shadowByte_self inside, Prod.mk.injEq, true_and]
  · rw [byteOf_shadowByte_ne same, if_neg fun both => same (congrArg Prod.fst both)]

theorem size_of_mem_watchedAt {x : Nat} (here : (w, i) ∈ watchedAt s x) : i < w.size := by
  have placed := (mem_watchedAt_iff s x w i).1 here
  cases w <;> exact placed.1

/-- One written byte, taken in every watched word that its address lies in. -/
theorem byteOf_byte (ws : List (Watched × Nat)) (inside : ∀ w ∈ ws, w.2 < w.1.size) (b : Byte) (h : Shadows)
    (w : Watched) (n : Nat) :
    (ws.foldl (fun h w => shadowByte w.1 w.2 b h) h).byteOf w n = if (w, n) ∈ ws then b else h.byteOf w n := by
  induction ws generalizing h with
  | nil => rfl
  | cons x ws ih =>
    rw [List.foldl_cons, ih (fun w mem => inside w (List.mem_cons_of_mem _ mem)),
      byteOf_shadowByte (inside x List.mem_cons_self)]
    by_cases later : (w, n) ∈ ws
    · rw [if_pos later, if_pos (List.mem_cons_of_mem _ later)]
    · rw [if_neg later]
      exact if_congr (by rw [List.mem_cons, or_iff_left later]) rfl rfl

/-- Each byte of a shadow is the last one written there, or else stays. -/
theorem byteOf_shadowBytes (s : State) (bytes : List (Nat × Byte)) (w : Watched) (n : Nat) :
    (shadowBytes s bytes).byteOf w n =
      ((bytes.filter fun b => (watchedAt s b.1).contains (w, n)).getLast?.map (·.2)).getD (s.pu.shadows.byteOf w n) := by
  unfold shadowBytes
  generalize s.pu.shadows = h
  induction bytes generalizing h with
  | nil => rfl
  | cons b bytes ih =>
    rw [List.foldl_cons, ih, byteOf_byte _ (fun w mem => size_of_mem_watchedAt mem), List.filter_cons]
    by_cases here : (w, n) ∈ watchedAt s b.1
    · rw [if_pos here, if_pos (List.contains_iff_mem.2 here), List.getLast?_cons]
      cases (bytes.filter fun b => (watchedAt s b.1).contains (w, n)).getLast? <;> rfl
    · rw [if_neg here, if_neg (fun contained => here (List.contains_iff_mem.1 contained))]

/-- A word is its four bytes. -/
theorem word_ext {v v' : Word} (bytes : ∀ n < 4, v.extractLsb' (8 * n) 8 = v'.extractLsb' (8 * n) 8) : v = v' := by
  refine BitVec.eq_of_getLsbD_eq fun p inside => ?_
  have bit := congrArg (fun byte : Byte => byte.getLsbD (p % 8)) (bytes (p / 8) (by omega))
  have place : 8 * (p / 8) + p % 8 = p := Nat.div_add_mod p 8
  simpa [BitVec.getLsbD_extractLsb', Nat.mod_lt p (by decide : 0 < 8), place] using bit

theorem byteOf_untouched (away : ¬Touches s bytes w fun _ => True) (n : Nat) :
    (shadowBytes s bytes).byteOf w n = s.pu.shadows.byteOf w n := by
  have none_ : bytes.filter (fun b => (watchedAt s b.1).contains (w, n)) = [] :=
    List.filter_eq_nil_iff.2 fun b mem here => away ⟨b, mem, n, List.contains_iff_mem.1 here, trivial⟩
  rw [byteOf_shadowBytes, none_]
  rfl

/-- The byte of a word as `wordBytes` lists it. -/
theorem wordBytes_getD (v : Word) {n : Nat} (low : n < 4) : (wordBytes v).getD n 0 = v.extractLsb' (8 * n) 8 := by
  have listed : (wordBytes v).getD n 0 = BitVec.ofNat 8 (v.toNat / 256 ^ n) := by
    simp [wordBytes, leBytes, low]
  refine listed.trans (BitVec.eq_of_toNat_eq ?_)
  rw [BitVec.toNat_ofNat, BitVec.extractLsb'_toNat, Nat.shiftRight_eq_div_pow, pow_mul]
  rfl

/-- A word whose four bytes are written last, in order, and nowhere else read as another watched word. -/
theorem post_of_written {v : Word} {before : List (Nat × Byte)}
    (written : bytes.filter (fun b => (watchedAt s b.1).any fun w => w.1 == .post) =
      before ++ (List.range 4).map fun n => ((controlAddr s n).toNat, (wordBytes v).getD n 0))
    (apart : ∀ n, n < 4 → watchedAt s (controlAddr s n).toNat = [(.post, n)]) : (shadowBytes s bytes).post = v := by
  refine word_ext fun n low => ?_
  have last : (bytes.filter fun b => (watchedAt s b.1).contains (.post, n)).getLast? =
      some ((controlAddr s n).toNat, (wordBytes v).getD n 0) := by
    have among : (bytes.filter fun b => (watchedAt s b.1).contains (.post, n)) =
        (bytes.filter fun b => (watchedAt s b.1).any fun w => w.1 == .post).filter
          fun b => (watchedAt s b.1).contains (.post, n) := by
      rw [List.filter_filter]
      refine List.filter_congr fun b _ => (Bool.and_eq_left_iff_imp.2 fun here => ?_).symm
      exact List.any_eq_true.2 ⟨_, List.contains_iff_mem.1 here, beq_self_eq_true _⟩
    have one : (List.range 4).filter (fun m => (watchedAt s (controlAddr s m).toNat).contains (.post, n)) = [n] := by
      have reads : ∀ m ∈ List.range 4, (watchedAt s (controlAddr s m).toNat).contains (.post, n) = (m == n) := by
        intro m mem
        rw [apart m (List.mem_range.1 mem)]
        rw [Bool.eq_iff_iff, List.contains_iff_mem, List.mem_singleton, Prod.mk.injEq, beq_iff_eq]
        exact (and_iff_right rfl).trans eq_comm
      rw [List.filter_congr reads]
      interval_cases n <;> rfl
    rw [among, written, List.filter_append, List.filter_map]
    simp only [Function.comp_def, one]
    exact List.getLast?_concat
  refine (byteOf_shadowBytes s bytes .post n).trans ?_
  rw [last]
  exact wordBytes_getD v low

end Sys2Proof.Machine

namespace Sys2Proof.Machine

/-! ## The transaction (R108, R109) -/

/-- The state after the capture treatment of the beats of `t`. -/
def capturedBeats (t : WriteTxn) (s : State) : State := (txnBytes t).foldl (placedBeat s) s

theorem acceptWrite_eq (t : WriteTxn) (s : State) : acceptWrite t s =
    let shadows := shadowBytes s (txnBytes t).flatten
    let captured := capturedBeats t s
    { s with
      handed := s.handed ++ handOns ((txnBytes t).flatten.flatMap fun b => watchedAt s b.1) shadows
      pu := { s.pu with
        passWaiting := s.pu.passWaiting ++ [.write t], queues := captured.pu.queues, totals := captured.pu.totals
        assembly := captured.pu.assembly, shadows := shadows } } := by
  have captured : Capturing s (capturedBeats t s) := placedBeats_capturing s s (txnBytes t)
  have treated : acceptWrite t s = watchWords (txnBytes t).flatten (forward (.write t) (capturedBeats t s)) := by
    rw [capturedBeats, ← placedBeats_forward, ← captureBeats_eq (s := s) (v := forward (.write t) s) rfl]
    rfl
  rw [treated, captured]
  rfl

/-- The words that a transaction hands on (R110, R111). -/
theorem handOns_words (s : State) (bytes : List (Nat × Byte)) (h : Shadows) :
    let more := handOns (bytes.flatMap fun b => watchedAt s b.1) h
    let touches := Touches s bytes
    (∀ l v, .signalWord l v ∈ more ↔ touches (.signal l) (fun _ => True) ∧ v = h.signal.get l) ∧
    (∀ v, .commandPost v ∈ more ↔ touches .post (fun _ => True) ∧ v = h.post) ∧
    (∀ v, .eventConsumed v ∈ more ↔ touches .evConsumed (fun _ => True) ∧ v = h.evConsumed) ∧
    (∀ v, .logConsumed v ∈ more ↔ touches .logConsumed (fun _ => True) ∧ v = h.logConsumed) ∧
    (∀ v, .timeSync v ∈ more ↔ touches .timeSync (· = 15) ∧ v = h.timeSync) ∧
    (∀ v, .anchor v ∈ more ↔ touches .anchor (fun _ => True) ∧ v = h.anchor) := by
  intro more touches
  have mem (x : Handed) : x ∈ more ↔ x.wrote (bytes.flatMap fun b => watchedAt s b.1) = true ∧ x ∈ wordsOf h := by
    rw [show more = _ from handOns_eq .., List.mem_filter, and_comm]
  refine ⟨fun l v => ?_, fun v => ?_, fun v => ?_, fun v => ?_, fun v => ?_, fun v => ?_⟩
  all_goals
    rw [mem]
    refine and_congr ?_ (by simp [wordsOf, eq_comm])
  · exact any_touched
  · exact any_touched
  · exact any_touched
  · exact any_touched
  · exact contains_touched
  · exact any_touched

theorem signalLines_ascend (written : List (Watched × Nat)) (h : Shadows) : ((handOns written h).filterMap fun h =>
    match h with | .signalWord l _ => some l | _ => none).Pairwise (· < ·) := by
  refine (handOns_ranked written h).filterMap _ fun x y before l isX l' isY => ?_
  cases x <;> cases isX
  cases y <;> cases isY
  exact before

/-- Settles O58: a beat's slot by `assemble_treated`, the transaction by `acceptWrite_eq`, the placement of addresses by
`inboundPlace_eq_some` and `mem_watchedAt_iff`. -/
theorem upstreamWritesAreTreated : Obligations.UpstreamWritesAreTreated := by
  refine ⟨fun i k bytes s => ?_, fun t s ok => ?_, fun s x i k => inboundPlace_eq_some, mem_watchedAt_iff⟩
  · intro old torn t
    let _ : Decidable (Left k old) := inferInstanceAs (Decidable torn)
    obtain ⟨part, full⟩ := assemble_treated i k bytes s
    refine ⟨markBytes bytes (marksBefore s i k), fun m => ?_, fun absent => ?_, fun all => ?_,
      fun j other => assemble_others other k bytes s, assemble_frame i k bytes s⟩
    · rw [markBytes_get, marksBefore_get]
      rfl
    · exact part absent
    · exact ⟨_, frameOfBytes_marks _, full all⟩
  · intro written touches any placed captured
    have act : exec (.upstreamWrite t) s = .next (acceptWrite t s) := if_pos ok
    rw [acceptWrite_eq] at act
    have apart (i : SourceId) (away : ∀ b ∈ written, ∀ base, s.pu.regions.inbound = some base →
        ¬(base.toNat + 256 * i.val ≤ b.1 ∧ b.1 < base.toNat + 256 * i.val + 256)) (b : Nat × Byte) (mem : b ∈ written)
        (k : SlotId) : inboundPlace s b.1 ≠ some (i, k) := fun place => by
      obtain ⟨base, is, low, high⟩ := inboundPlace_eq_some.1 place
      have slot := k.isLt
      exact away b mem base is ⟨by omega, by omega⟩
    refine ⟨_, act, rfl, ⟨rfl, rfl, rfl⟩, fun i away => placedBeats_away (apart i away),
      ⟨_, rfl, handOns_nodup .., signalLines_ascend .., handOns_words ..⟩, byteOf_shadowBytes s written, fun away => ?_,
      fun l away => ?_, fun v ⟨before, last⟩ words => post_of_written last words, rfl⟩
    · exact word_ext fun n _ => byteOf_untouched (w := .post) away n
    · exact word_ext fun n _ => byteOf_untouched (w := .signal l) away n

end Sys2Proof.Machine

namespace Sys2Proof.Machine

variable {s t : State} {at_ e r : Nat}

/-! # The frame clock (R129 to R134, R177) -/

/-! ## A pulse on FRAME_IN, by the state of the watch -/

theorem frameInPulse_of_locked (at_ : Nat) (locked : s.ft.watch = .locked) : frameInPulse at_ s =
    frameEvent { reachTime at_ s with ft := { (reachTime at_ s).ft with watchTimer := some (s.ft.watchFrom at_) } } := by
  simp only [frameInPulse, reachTime, locked]
  rfl

/-- In FREEWHEEL, and in ACQUIRING before its first pulse, there is no spacing to test. -/
theorem frameInPulse_of_first (at_ : Nat)
    (first : s.ft.watch = .freewheel ∨ (s.ft.watch = .acquiring ∧ s.ft.refPulse = none)) :
    frameInPulse at_ s = takeReference at_ 0 (reachTime at_ s) := by
  rcases first with free | ⟨acquiring, none_⟩
  · simp only [frameInPulse, reachTime, free]
  · simp only [frameInPulse, reachTime, acquiring, none_]

theorem frameInPulse_of_spacing (at_ : Nat) (acquiring : s.ft.watch = .acquiring) (ref : s.ft.refPulse = some r) :
    frameInPulse at_ s =
      if spacingOk s.ft.clkPerMs (at_ - r) = true then
        if s.ft.good + 1 = 8 then lock at_ (reachTime at_ s) else takeReference at_ (s.ft.good + 1) (reachTime at_ s)
      else takeReference at_ 0 (reachTime at_ s) := by
  simp only [frameInPulse, reachTime, acquiring, ref]

theorem spacingOk_iff {clk cycles : Nat} :
    spacingOk clk cycles = true ↔ 95 * clk / 100 ≤ cycles ∧ cycles ≤ (105 * clk + 99) / 100 := by
  simp [spacingOk]

theorem pulseWatchExpiry_of_stopped (stopped : s.ft.watchTimer = none) : pulseWatchExpiry s = s := by
  simp only [pulseWatchExpiry, stopped]

theorem freewheelExpiry_of_stopped (stopped : s.ft.freeTimer = none) : freewheelExpiry s = s := by
  simp only [freewheelExpiry, stopped]

theorem freewheelExpiry_of_set (set_ : s.ft.freeTimer = some e) : freewheelExpiry s =
    { frameEvent (reachTime e s) with
      ft := { (frameEvent (reachTime e s)).ft with freeTimer := some (e + s.ft.clkPerMs) } } := by
  simp only [freewheelExpiry, set_]
  rfl

/-! ## The pulse watch expires -/

/-- The clock as the loss of FRAME_IN leaves it, before the loss is told (R131). -/
def clockGone (e : Nat) (s : State) : State :=
  { reachTime e s with ft := { (reachTime e s).ft with
    watch := .freewheel, watchTimer := none, clockLosses := s.ft.clockLosses + 1 } }

theorem pulseWatchExpiry_of_locked (set_ : s.ft.watchTimer = some e) (locked : s.ft.watch = .locked) :
    pulseWatchExpiry s =
      let u := frameEvent (post (.clockLost s.ft.counter) (clockGone e s))
      { u with ft := { u.ft with freeTimer := some (e + s.ft.clkPerMs) } } := by
  simp only [pulseWatchExpiry, reachTime, set_, locked]
  rfl

theorem pulseWatchExpiry_of_acquiring (set_ : s.ft.watchTimer = some e) (acquiring : s.ft.watch = .acquiring) :
    pulseWatchExpiry s = { reachTime e s with ft := { (reachTime e s).ft with
      watch := .freewheel, refPulse := none, good := 0, watchTimer := none } } := by
  simp only [pulseWatchExpiry, reachTime, set_, acquiring]

/-- An event posted between two steps of the Frame Timer and the Mixing Engine. -/
theorem posts_between {u : State} (ev : Event) (before : u = { s with ft := u.ft, me := u.me })
    (cu : t.cu = (post ev u).cu) (pu : t.pu = (post ev u).pu) (lc : t.lc = s.lc) : Posts [ev] s t := by
  have parts : s.cu = u.cu ∧ s.pu = u.pu ∧ s.lc = u.lc := by
    rw [before]
    exact ⟨rfl, rfl, rfl⟩
  obtain ⟨sc, sp, sl⟩ := parts
  exact (posts_post u ev).congr sc sp cu pu (fun l => by rw [State.line, sl]; rfl)
    fun l => by rw [State.line, lc, sl]; rfl

/-- Settles O47: each command by its equation in the state of the watch; the two that tell the host of the clock post
their event between steps of the Frame Timer (`posts_between`). -/
theorem frameClockFollowsPulses : Obligations.FrameClockFollowsPulses := by
  intro at_ e s run f n made pulse now reference
  have pulsed {t : State} (is : frameInPulse at_ s = t) : exec pulse s = .next t :=
    (inRunning_of_running _ run).trans (congrArg _ is)
  have watched {t : State} (is : pulseWatchExpiry s = t) : exec .pulseWatchExpiry s = .next t :=
    (inRunning_of_running _ run).trans (congrArg _ is)
  have freed {t : State} (is : freewheelExpiry s = t) : exec .freewheelTimerExpiry s = .next t :=
    (inRunning_of_running _ run).trans (congrArg _ is)
  refine ⟨fun locked => pulsed (frameInPulse_of_locked at_ locked), fun first => pulsed (frameInPulse_of_first at_ first),
    fun r acquiring ref => ?_, fun stopped => watched (pulseWatchExpiry_of_stopped stopped), fun set_ locked => ?_,
    fun set_ acquiring => watched (pulseWatchExpiry_of_acquiring set_ acquiring),
    fun stopped => freed (freewheelExpiry_of_stopped stopped), fun set_ => freed (freewheelExpiry_of_set set_)⟩
  · intro good
    have spaced := frameInPulse_of_spacing at_ acquiring ref
    refine ⟨fun bad => pulsed ?_, fun ok few => pulsed ?_,
      fun ok seven => ⟨lock at_ (reachTime at_ s), pulsed ?_, rfl, ?_, rfl⟩⟩
    · rw [spaced, if_neg (mt spacingOk_iff.1 bad)]
      rfl
    · rw [spaced, if_pos (spacingOk_iff.2 ok), if_neg fun eight => few (Nat.succ.inj eight)]
      rfl
    · rw [spaced, if_pos (spacingOk_iff.2 ok), if_pos (congrArg (· + 1) seven)]
    · exact posts_between (.clockRestored n) rfl rfl rfl rfl
  · exact ⟨_, watched (pulseWatchExpiry_of_locked set_ locked), rfl,
      posts_between (u := clockGone e s) (.clockLost f.counter) rfl rfl rfl rfl, rfl⟩

end Sys2Proof.Machine

namespace Sys2Proof.Machine

variable {s : State} {w : BitVec 128}

/-! # Floor time (R136 to R140, R159) -/

theorem markStepped_chan (s : State) (c : ChanId) : (markStepped s).chan c =
    if (s.chan c).state = .active
    then { s.chan c with session := (s.chan c).session.map fun x => { x with timeStepped := true } } else s.chan c :=
  Table.get_map ..

/-! ## A sync word, by its difference from floor time -/

theorem timeSync_of_unset (w : BitVec 128) (unset : s.ft.timeSet = .unset) :
    timeSync w s = timeStep (syncFloor w) .initial { s with ft := { s.ft with timeSet := .set } } := by
  simp only [timeSync, unset]

theorem timeSync_of_imperative (set_ : s.ft.timeSet = .set) (imperative : syncImperative w = true)
    (apart : (syncFloor w - s.ft.floor).toInt ≠ 0) : timeSync w s = timeStep (syncFloor w) .imperative s := by
  simp only [timeSync, set_, imperative, if_neg apart, if_true]

/-- An imperative word that says what floor time says, or another within 1 ms of it (R137, R138). -/
theorem timeSync_of_agreeing (set_ : s.ft.timeSet = .set) (agrees :
      (syncImperative w = true ∧ (syncFloor w - s.ft.floor).toInt = 0) ∨
      (syncImperative w = false ∧ -1 ≤ (syncFloor w - s.ft.floor).toInt ∧ (syncFloor w - s.ft.floor).toInt ≤ 1)) :
    timeSync w s = { s with ft := { s.ft with mismatches := 0 } } := by
  rcases agrees with ⟨imperative, same⟩ | ⟨plain, near⟩
  · simp only [timeSync, set_, imperative, if_pos same, if_true]
  · simp only [timeSync, set_, plain, if_pos near, if_neg Bool.false_ne_true]

/-- The Frame Timer once a mismatch has been counted (R139). -/
def FrameTimer.mismatched (f : FrameTimer) : FrameTimer :=
  { f with syncMismatch := f.syncMismatch + 1, mismatches := f.mismatches + 1 }

theorem timeSync_of_mismatch (set_ : s.ft.timeSet = .set) (plain : syncImperative w = false)
    (far : (syncFloor w - s.ft.floor).toInt < -1 ∨ 1 < (syncFloor w - s.ft.floor).toInt) :
    timeSync w s = if 2 ≤ s.ft.mismatches then timeStep (syncFloor w) .mismatch { s with ft := s.ft.mismatched }
      else { s with ft := s.ft.mismatched } := by
  have off : ¬(-1 ≤ (syncFloor w - s.ft.floor).toInt ∧ (syncFloor w - s.ft.floor).toInt ≤ 1) := by omega
  have third : 3 ≤ s.ft.mismatches + 1 ↔ 2 ≤ s.ft.mismatches := by omega
  simp only [timeSync, set_, plain, if_neg off, if_neg Bool.false_ne_true, third,
    FrameTimer.mismatched]

/-- Settles O48: `timeSync` case by case; the three steps of floor time differ in the Frame Timer they start from. -/
theorem syncWordSetsFloorTime : Obligations.SyncWordSetsFloorTime := by
  intro w s run v imperative d u stepped
  have taken {t : State} (is : timeSync w u = t) : exec (.timeSyncWord w) s = .next t :=
    (inRunning_of_running (fun s => timeSync w (takeHanded (.timeSync w) s)) run).trans (congrArg _ is)
  have steps {reason : StepReason} {mismatch : Word} (f : FrameTimer) (floor : f.floor = s.ft.floor)
      (set_ : ({ f with floor := v, mismatches := 0 } : FrameTimer) =
        { s.ft with timeSet := .set, floor := v, mismatches := 0, syncMismatch := mismatch })
      (is : timeSync w u = timeStep v reason { u with ft := f }) : stepped reason mismatch := by
    refine ⟨_, taken is, set_, ?_, markStepped_chan _, rfl⟩
    rw [← floor]
    exact (posts_post { u with ft := { f with floor := v, mismatches := 0 } } (.timeStep f.floor v reason)).congr rfl rfl
      rfl rfl (fun _ => rfl) fun _ => rfl
  refine ⟨fun unset => steps { s.ft with timeSet := .set } rfl rfl (timeSync_of_unset w unset), fun set_ flag apart => ?_,
    fun set_ agrees => taken (timeSync_of_agreeing set_ agrees), fun set_ plain far => ⟨fun few => ?_, fun many => ?_⟩⟩
  · exact steps s.ft rfl (by rw [← set_]) (timeSync_of_imperative set_ flag apart)
  · exact taken ((timeSync_of_mismatch (s := u) set_ plain far).trans (if_neg (Nat.not_le.2 few)))
  · exact steps s.ft.mismatched rfl (by rw [← set_]; rfl) ((timeSync_of_mismatch (s := u) set_ plain far).trans (if_pos many))

end Sys2Proof.Machine

namespace Sys2Proof.Machine

variable {s t u v : State} {c d : ChanId} {ch : Channel} {n : Word} {x y : Session} {es fs : List Event}

/-! # One recorder channel's turn at a frame event (R149 to R157) -/

/-! ## The accesses asked for -/

theorem Emission.drainFrom_eventSlots (es : List Event) (m : Emission)
    (h : ∀ a ∈ m.slots, a.purpose.isEventSlot = true) :
    ∀ a ∈ (Emission.drainFrom es m).slots, a.purpose.isEventSlot = true := by
  induction es generalizing m with
  | nil => exact h
  | cons e es ih =>
    unfold Emission.drainFrom
    split
    · refine ih _ fun a mem => ?_
      rcases List.mem_append.1 mem with old | new
      · exact h a old
      · rw [List.mem_singleton.1 new]
        rfl
    · exact h

theorem CmdUnit.takeEvent_eventSlots (cu : CmdUnit) (keep : Nat) (e : Event) :
    ∀ a ∈ (cu.takeEvent keep e).slots, a.purpose.isEventSlot = true := by
  unfold CmdUnit.takeEvent
  split
  · intro a mem
    rw [List.mem_singleton.1 mem]
    rfl
  · split
    · split
      · exact Emission.drainFrom_eventSlots _ _ (by simp)
      · simp
    · simp

theorem CmdUnit.slotWrites_eventSlots (cu : CmdUnit) (es : List Event) :
    ∀ a ∈ cu.slotWrites es, a.purpose.isEventSlot = true := by
  induction es generalizing cu with
  | nil => simp [CmdUnit.slotWrites]
  | cons e es ih =>
    intro a mem
    rcases List.mem_append.1 mem with first | later
    · exact cu.takeEvent_eventSlots _ e a first
    · exact ih _ a later

/-- The write of a close record at an index of the log (R155). -/
def recordAt (s : State) (i : Word) (y : Session) : OwnAccess :=
  ⟨.closeRecord i, s.ru.logBase + BitVec.ofNat 36 (64 * (i.toNat % s.ru.logSize)), y.logRecord, 0⟩

/-- The write of a close record that is placed now. -/
def recordWrite (s : State) (y : Session) : OwnAccess := recordAt s s.ru.produced y

/-- What one turn asks for, in order: its frame write, the slots of its events, its close record. -/
def turnAsks (write : Option OwnAccess) (es : List Event) (record : Option Session) (s : State) : List OwnAccess :=
  write.toList ++ s.cu.slotWrites es ++ (record.map (recordWrite s)).toList

/-- Channel `c` has asked for the frame write, posted the events and then placed the record; `opens` says that it has taken a
session number. Nothing else has moved but its own record. -/
structure Turn (c : ChanId) (write : Option OwnAccess) (es : List Event) (record : Option Session) (opens : Bool)
    (s t : State) : Prop where
  others : OnlyChan c s t
  unit : t.cu = s.cu.afterEvents es
  own : t.pu.own = s.pu.own ++ turnAsks write es record s
  produced : t.ru.produced = s.ru.produced + BitVec.ofNat 32 record.toList.length
  next : t.ru.nextSession = if opens then succSession s.ru.nextSession else s.ru.nextSession
  frame : t = { s with
    ru := { s.ru with channels := t.ru.channels, produced := t.ru.produced, nextSession := t.ru.nextSession }
    cu := t.cu, pu := { s.pu with own := t.pu.own } }

section
variable {write : Option OwnAccess} {record : Option Session} {opens : Bool}

theorem ChanStep.turn (h : ChanStep c es s t) : Turn c none es none false s t where
  others := h.others
  unit := h.unit
  own := by simp [h.own, turnAsks]
  produced := by rw [h.frame]; exact (BitVec.add_zero _).symm
  next := by rw [h.frame]; rfl
  frame := by rw [h.frame]

/-- A frame write is asked for (R149). -/
theorem turn_frameWrite (c : ChanId) (b : Buf) (n number : Word) (a : Addr) (bytes : List Byte) (s : State) :
    Turn c (some ⟨.frameWrite c b n number, a, bytes, 0⟩) [] none false s
      (requestOwn (.frameWrite c b n number) a bytes s) where
  others _ _ := rfl
  unit := rfl
  own := rfl
  produced := (BitVec.add_zero _).symm
  next := rfl
  frame := rfl

theorem Turn.step (h : Turn c write es none false s t) (k : ChanStep c fs t u) :
    Turn c write (es ++ fs) none false s u where
  others d other := (k.others d other).trans (h.others d other)
  unit := by rw [k.unit, h.unit, CmdUnit.afterEvents_append]
  own := by simp [k.own, h.own, h.unit, CmdUnit.slotWrites_append, turnAsks]
  produced := by rw [k.frame]; exact h.produced
  next := by rw [k.frame]; exact h.next
  frame := by rw [k.frame, h.frame]

theorem Turn.record_congr (h : Turn c write es none false s t) : recordWrite t = recordWrite s := by
  have produced : t.ru.produced = s.ru.produced := h.produced.trans (BitVec.add_zero _)
  unfold recordWrite recordAt
  rw [produced, h.frame]

theorem Turn.placeRecord (h : Turn c write es none false s t) (y : Session) :
    Turn c write es (some y) false s (placeRecord y t) where
  others := h.others
  unit := h.unit
  own := by
    have asked : (Machine.placeRecord y t).pu.own = t.pu.own ++ [recordWrite t y] := rfl
    rw [asked, h.record_congr, h.own]
    simp [turnAsks]
  produced := congrArg (· + 1) (h.produced.trans (BitVec.add_zero _))
  next := h.next
  frame := by rw [h.frame]; rfl

theorem Turn.modChan (h : Turn c write es record opens s t) (f : Channel → Channel) :
    Turn c write es record opens s (t.modChan c f) where
  others d other := (chanStep_modChan c f t).others d other |>.trans (h.others d other)
  unit := h.unit
  own := h.own
  produced := h.produced
  next := h.next
  frame := by rw [h.frame]; rfl

/-- The next session number is taken. -/
theorem Turn.number (h : Turn c write es record false s t) : Turn c write es record true s
    { t with ru := { t.ru with nextSession := succSession t.ru.nextSession } } where
  others := h.others
  unit := h.unit
  own := h.own
  produced := h.produced
  next := congrArg succSession h.next
  frame := by rw [h.frame]

theorem Turn.room (h : Turn c write es none false s t) : t.ru.room = s.ru.room := by
  have produced : t.ru.produced = s.ru.produced := h.produced.trans (BitVec.add_zero _)
  unfold RecUnit.room
  rw [produced, h.frame]

end

/-! ## A buffer is full (R150) -/

/-- A write of a frame of channel `c`'s buffer `b`, counted by the event of the buffer. -/
def inBuffer (c : ChanId) (b : Buf) (first size : Word) (p : Purpose) : Bool := match p with
  | .frameWrite d buf frame _ => d == c && buf == b && decide ((frame - first).toNat < size.toNat)
  | _ => false

/-- The writes of the buffer's frames among accesses not yet answered. -/
def unreturned (c : ChanId) (b : Buf) (first size : Word) (as : List OwnAccess) : Nat :=
  (as.filter fun a => inBuffer c b first size a.purpose).length

theorem unreturned_append (c : ChanId) (b : Buf) (first size : Word) (as bs : List OwnAccess) :
    unreturned c b first size (as ++ bs) = unreturned c b first size as + unreturned c b first size bs := by
  simp [unreturned]

theorem unreturned_middle (c : ChanId) (b : Buf) (first size : Word) (as bs : List OwnAccess) (a : OwnAccess) :
    unreturned c b first size (as ++ a :: bs) = unreturned c b first size (a :: (as ++ bs)) :=
  (List.perm_middle.filter _).length_eq

theorem writesOf_eq (s : State) (c : ChanId) (e : BufEvent) :
    writesOf s c e = unreturned c e.buf e.first e.count (s.pu.own ++ s.pu.flight) := by
  have same : (fun a : OwnAccess => match a.purpose with
      | .frameWrite d b frame _ => d == c && e.counts b frame
      | _ => false) = fun a => inBuffer c e.buf e.first e.count a.purpose := by
    funext a
    cases a.purpose <;> simp [inBuffer, BufEvent.counts, Bool.and_assoc, Bool.beq_comm]
  exact congrArg (fun p => ((s.pu.own ++ s.pu.flight).filter p).length) same

/-- The event of the current buffer once it is full, before it is known how many writes it waits for. -/
def Channel.fullEvent (ch : Channel) : BufEvent :=
  { buf := ch.current, session := ch.here.firstSession.getD 0, first := ch.here.firstFrame.getD 0,
    count := frameCount ch.here.base ch.here.ceil, waiting := 0 }

/-- What a full buffer posts at once. -/
def Channel.fullEvents (c : ChanId) (waiting : Nat) (ch : Channel) : List Event :=
  if waiting = 0 then [.recordBuffer c ch.current ch.fullEvent.session ch.fullEvent.first ch.fullEvent.count false] else []

/-- The channel with its full buffer passed on. -/
def Channel.passed (waiting : Nat) (ch : Channel) : Channel :=
  { ch.setBuffer ch.current { ch.here with owner := .host } with
    current := ch.current.other
    bufEvents := if waiting = 0 then ch.bufEvents else ch.bufEvents ++ [{ ch.fullEvent with waiting := waiting }] }

@[simp] theorem Channel.setBuffer_bufEvents (ch : Channel) (b : Buf) (y : Buffer) :
    (ch.setBuffer b y).bufEvents = ch.bufEvents := by
  cases b <;> rfl

theorem Channel.passed_zero (ch : Channel) : ch.passed 0 =
    { ch.setBuffer ch.current { ch.here with owner := .host } with current := ch.current.other } := by
  unfold Channel.passed Channel.setBuffer
  cases ch.current <;> rfl

theorem bufferFull_step (c : ChanId) (s : State) :
    ChanStep c ((s.chan c).fullEvents c (writesOf s c (s.chan c).fullEvent)) s (bufferFull c s) := by
  unfold Channel.fullEvents
  by_cases none_ : writesOf s c (s.chan c).fullEvent = 0
  · rw [if_pos none_, show bufferFull c s = post _ (s.modChan c _) from if_pos none_]
    exact (chanStep_modChan ..).trans (chanStep_post ..)
  · rw [if_neg none_, show bufferFull c s = (s.modChan c _).modChan c _ from if_neg none_]
    exact (chanStep_modChan ..).trans (chanStep_modChan ..)

theorem bufferFull_chan (c : ChanId) (s : State) :
    (bufferFull c s).chan c = (s.chan c).passed (writesOf s c (s.chan c).fullEvent) := by
  by_cases none_ : writesOf s c (s.chan c).fullEvent = 0
  · rw [none_, Channel.passed_zero, show bufferFull c s = post _ (s.modChan c _) from if_pos none_, post_chan,
      modChan_chan_self]
  · rw [show bufferFull c s = (s.modChan c _).modChan c _ from if_neg none_, modChan_chan_self, modChan_chan_self,
      Channel.passed, if_neg none_]
    simp only [Channel.setBuffer_bufEvents]
    rfl

/-! ## A frame is written or lost (R149, R151) -/

/-- The session with the frame counted among those written, or lost where the current buffer is not the part's. -/
def Channel.counting (ch : Channel) (x : Session) : Session :=
  if ch.here.owner = .part then { x with written := x.written + 1 } else { x with lost := x.lost + 1 }

/-- The buffer with one more frame at its fill. -/
def Buffer.taking (n number : Word) (b : Buffer) : Buffer :=
  { b with
    fill := b.fill + 32
    firstFrame := if b.fill = b.base then some n else b.firstFrame
    firstSession := if b.fill = b.base then some number else b.firstSession }

/-- The write of a channel's frame at the fill of its current buffer. -/
def Channel.frameWrite (c : ChanId) (r : RecFrames) (x : Session) (ch : Channel) : OwnAccess :=
  ⟨.frameWrite c ch.current r.number x.number, ch.here.fill, frameBytes (r.frames.get c), 0⟩

/-- The channel with the frame in its buffer, before the buffer is passed on if it is full. -/
def Channel.filled (n : Word) (x : Session) (ch : Channel) : Channel :=
  { ch.setBuffer ch.current (ch.here.taking n x.number) with
    session := some { x with written := x.written + 1 }, outstanding := ch.outstanding + 1 }

theorem Channel.filled_current (n : Word) (x : Session) (ch : Channel) : (ch.filled n x).current = ch.current := by
  unfold Channel.filled Channel.setBuffer
  cases ch.current <;> rfl

theorem Channel.filled_here (n : Word) (x : Session) (ch : Channel) :
    (ch.filled n x).here = ch.here.taking n x.number := by
  unfold Channel.filled Channel.setBuffer
  cases current : ch.current <;> simp [Channel.here, Channel.buffer, current]

/-- The state with the frame write asked for and the frame in the channel's record. -/
def frameAsked (c : ChanId) (r : RecFrames) (x : Session) (s : State) : State :=
  (requestOwn (.frameWrite c (s.chan c).current r.number x.number) (s.chan c).here.fill (frameBytes (r.frames.get c))
    s).modChan c (Channel.filled r.number x)

theorem writeFrame_eq (c : ChanId) (r : RecFrames) (x : Session) (s : State) :
    writeFrame c r.number (r.frames.get c) x s = if (s.chan c).here.fill + 32 = (s.chan c).here.ceil
      then bufferFull c (frameAsked c r x s) else frameAsked c r x s := by
  have taken : (if (s.chan c).here.fill = (s.chan c).here.base
      then { (s.chan c).here with
        fill := (s.chan c).here.fill + 32, firstFrame := some r.number, firstSession := some x.number }
      else { (s.chan c).here with fill := (s.chan c).here.fill + 32 }) = (s.chan c).here.taking r.number x.number := by
    unfold Buffer.taking
    split <;> rfl
  simp only [writeFrame, taken]
  rfl

/-- The writes that the event of the buffer waits for once this frame has filled it (R150). -/
def waitingWrites (c : ChanId) (r : RecFrames) (x : Session) (s : State) : Nat :=
  let ch := s.chan c
  unreturned c ch.current ((ch.here.taking r.number x.number).firstFrame.getD 0) (frameCount ch.here.base ch.here.ceil)
    (ch.frameWrite c r x :: (s.pu.own ++ s.pu.flight))

theorem frameAsked_chan (c : ChanId) (r : RecFrames) (x : Session) (s : State) :
    (frameAsked c r x s).chan c = (s.chan c).filled r.number x := by
  rw [frameAsked, modChan_chan_self, requestOwn_chan]

theorem writesOf_frameAsked (c : ChanId) (r : RecFrames) (x : Session) (s : State) :
    writesOf (frameAsked c r x s) c ((s.chan c).filled r.number x).fullEvent = waitingWrites c r x s := by
  have own : (frameAsked c r x s).pu.own = s.pu.own ++ [(s.chan c).frameWrite c r x] := rfl
  have flight : (frameAsked c r x s).pu.flight = s.pu.flight := rfl
  rw [writesOf_eq, own, flight, waitingWrites]
  simp only [Channel.fullEvent, Channel.filled_here, Channel.filled_current]
  rw [List.append_assoc, List.singleton_append, unreturned_middle]
  rfl

/-- The channel with its frame lost. -/
def Channel.losing (x : Session) (ch : Channel) : Channel :=
  { ch with session := some { x with lost := x.lost + 1 }, overflowing := true }

/-- What a lost frame posts: the first of a run is told (R151). -/
def Channel.lossEvents (c : ChanId) (n : Word) (x : Session) (ch : Channel) : List Event :=
  if ch.overflowing then [] else [.recordLoss c x.number n]

/-- The events of an ACTIVE channel's frame. -/
def frameEvents (c : ChanId) (r : RecFrames) (x : Session) (s : State) : List Event :=
  if (s.chan c).here.owner = .part then
    if (s.chan c).here.fill + 32 = (s.chan c).here.ceil
    then ((s.chan c).filled r.number x).fullEvents c (waitingWrites c r x s) else []
  else (s.chan c).lossEvents c r.number x

/-- An ACTIVE channel after its frame, before its segment is tested. -/
def framed (c : ChanId) (r : RecFrames) (x : Session) (s : State) : Channel :=
  if (s.chan c).here.owner = .part then
    if (s.chan c).here.fill + 32 = (s.chan c).here.ceil
    then ((s.chan c).filled r.number x).passed (waitingWrites c r x s) else (s.chan c).filled r.number x
  else (s.chan c).losing x

/-- The frame write of a channel with this session, if its current buffer is the part's. -/
def Channel.writes (c : ChanId) (r : RecFrames) (x : Session) (ch : Channel) : Option OwnAccess :=
  if ch.here.owner = .part then some (ch.frameWrite c r x) else none

/-- The frame of an ACTIVE channel is written or lost. -/
def takeFrame (c : ChanId) (r : RecFrames) (x : Session) (s : State) : State :=
  if (s.chan c).here.owner = .part then writeFrame c r.number (r.frames.get c) x s else loseFrame c r.number x s

theorem frameAsked_turn (c : ChanId) (r : RecFrames) (x : Session) (s : State) :
    Turn c (some ((s.chan c).frameWrite c r x)) [] none false s (frameAsked c r x s) :=
  (turn_frameWrite ..).modChan _

theorem loseFrame_eq (c : ChanId) (n : Word) (x : Session) (s : State) :
    loseFrame c n x s = postAll ((s.chan c).lossEvents c n x) (s.modChan c (Channel.losing x)) := by
  unfold loseFrame Channel.lossEvents
  cases (s.chan c).overflowing <;> rfl

theorem loseFrame_step (c : ChanId) (n : Word) (x : Session) (s : State) :
    ChanStep c ((s.chan c).lossEvents c n x) s (loseFrame c n x s) := by
  rw [loseFrame_eq]
  exact (chanStep_modChan ..).trans (chanStep_postAll ..)

theorem takeFrame_turn (c : ChanId) (r : RecFrames) (x : Session) (s : State) :
    Turn c ((s.chan c).writes c r x) (frameEvents c r x s) none false s (takeFrame c r x s) := by
  unfold Channel.writes frameEvents takeFrame
  by_cases part : (s.chan c).here.owner = .part
  · simp only [if_pos part]
    rw [writeFrame_eq]
    by_cases full : (s.chan c).here.fill + 32 = (s.chan c).here.ceil
    · rw [if_pos full, if_pos full]
      have step := bufferFull_step c (frameAsked c r x s)
      rw [frameAsked_chan, writesOf_frameAsked] at step
      exact (frameAsked_turn c r x s).step step
    · rw [if_neg full, if_neg full]
      exact frameAsked_turn c r x s
  · simp only [if_neg part]
    exact (loseFrame_step ..).turn

theorem takeFrame_chan (c : ChanId) (r : RecFrames) (x : Session) (s : State) :
    (takeFrame c r x s).chan c = framed c r x s := by
  unfold takeFrame framed
  by_cases part : (s.chan c).here.owner = .part
  · simp only [if_pos part]
    rw [writeFrame_eq]
    by_cases full : (s.chan c).here.fill + 32 = (s.chan c).here.ceil
    · rw [if_pos full, if_pos full, bufferFull_chan, frameAsked_chan, writesOf_frameAsked]
    · rw [if_neg full, if_neg full, frameAsked_chan]
  · simp only [if_neg part]
    rw [loseFrame_eq, postAll_chan, modChan_chan_self]

@[simp] theorem Channel.setBuffer_state (ch : Channel) (b : Buf) (y : Buffer) : (ch.setBuffer b y).state = ch.state := by
  cases b <;> rfl
@[simp] theorem Channel.setBuffer_segPending (ch : Channel) (b : Buf) (y : Buffer) :
    (ch.setBuffer b y).segPending = ch.segPending := by
  cases b <;> rfl
@[simp] theorem Channel.setBuffer_session (ch : Channel) (b : Buf) (y : Buffer) :
    (ch.setBuffer b y).session = ch.session := by
  cases b <;> rfl

theorem framed_state (c : ChanId) (r : RecFrames) (x : Session) (s : State) :
    (framed c r x s).state = (s.chan c).state := by
  unfold framed
  split_ifs <;> simp [Channel.passed, Channel.filled, Channel.losing]

theorem framed_segPending (c : ChanId) (r : RecFrames) (x : Session) (s : State) :
    (framed c r x s).segPending = (s.chan c).segPending := by
  unfold framed
  split_ifs <;> simp [Channel.passed, Channel.filled, Channel.losing]

theorem framed_session (c : ChanId) (r : RecFrames) (x : Session) (s : State) :
    (framed c r x s).session = some ((s.chan c).counting x) := by
  unfold framed Channel.counting
  split_ifs <;> simp [Channel.passed, Channel.filled, Channel.losing]

/-! ## The segment test (R157) -/

theorem segmentDue_iff {segLen : Nat} : segmentDue segLen n ch x = true ↔
    ch.segPending = true ∨ (0 < segLen ∧ n = x.startFrame + BitVec.ofNat 32 segLen) := by
  simp [segmentDue, or_comm]

theorem counting_startFrame (ch : Channel) (x : Session) : (ch.counting x).startFrame = x.startFrame := by
  unfold Channel.counting
  split <;> rfl

theorem segmentTest_of_active (active : (s.chan c).state = .active) (open_ : (s.chan c).session = some x) :
    segmentTest c s = if segmentDue s.ru.segLen s.ru.frameNo (s.chan c) x then
      if s.ru.room then cutSegment c x s else s.modChan c fun ch => { ch with segPending := true } else s := by
  simp only [segmentTest, active, open_]

/-- The session that a cut segment opens. -/
def nextSegment (c : ChanId) (x : Session) (s : State) : Session :=
  newSession s c x.subject (some x.number) (subjectParties s x.subject)

theorem cutSegment_chan (c : ChanId) (x : Session) (s : State) : (cutSegment c x s).chan c =
    { s.chan c with session := some (nextSegment c x s), segPending := false } :=
  Table.get_modify_self ..

/-- The segment of the channel is due, and the log has room for its record. -/
def cutsNow (c : ChanId) (x : Session) (s : State) : Bool :=
  segmentDue s.ru.segLen s.ru.frameNo (s.chan c) x && s.ru.room

section
variable {write : Option OwnAccess}

theorem Turn.cutSegment (h : Turn c write es none false s t) (x : Session) :
    Turn c write es (some (endedSession s x .segment)) true s (Machine.cutSegment c x t) := by
  have ended : endedSession t x .segment = endedSession s x .segment := by
    unfold endedSession
    rw [h.frame]
  rw [← ended]
  exact ((h.placeRecord _).modChan _).number

theorem Turn.nextSegment (h : Turn c write es none false s t) (x : Session) : nextSegment c x t = nextSegment c x s := by
  have number : t.ru.nextSession = s.ru.nextSession := h.next
  have parties : subjectParties t x.subject = subjectParties s x.subject := by
    rw [h.frame]
    cases x.subject <;> rfl
  unfold Machine.nextSegment newSession
  rw [number, parties, h.frame]

end

/-- The record that an ACTIVE channel with session `x` places. -/
def segmentRecord (c : ChanId) (x : Session) (s : State) : Option Session :=
  if cutsNow c x s then some (endedSession s ((s.chan c).counting x) .segment) else none

/-- An ACTIVE channel after its turn. -/
def activeTaken (c : ChanId) (r : RecFrames) (x : Session) (s : State) : Channel :=
  { framed c r x s with
    session := some (if cutsNow c x s then nextSegment c ((s.chan c).counting x) s else (s.chan c).counting x)
    segPending := segmentDue s.ru.segLen s.ru.frameNo (s.chan c) x && !s.ru.room }

theorem segmentDue_takeFrame (c : ChanId) (r : RecFrames) (x : Session) (s : State) :
    segmentDue (takeFrame c r x s).ru.segLen (takeFrame c r x s).ru.frameNo (framed c r x s) ((s.chan c).counting x) =
      segmentDue s.ru.segLen s.ru.frameNo (s.chan c) x := by
  rw [(takeFrame_turn c r x s).frame]
  unfold segmentDue
  rw [framed_segPending, counting_startFrame]

theorem segmentTest_takeFrame (c : ChanId) (r : RecFrames) (x : Session) (active : (s.chan c).state = .active) :
    segmentTest c (takeFrame c r x s) = if segmentDue s.ru.segLen s.ru.frameNo (s.chan c) x then
      if s.ru.room then cutSegment c ((s.chan c).counting x) (takeFrame c r x s)
      else (takeFrame c r x s).modChan c fun ch => { ch with segPending := true }
    else takeFrame c r x s := by
  have chan := takeFrame_chan c r x s
  have still : ((takeFrame c r x s).chan c).state = .active := by rw [chan, framed_state, active]
  have open_ : ((takeFrame c r x s).chan c).session = some ((s.chan c).counting x) := by rw [chan, framed_session]
  rw [segmentTest_of_active still open_, chan, segmentDue_takeFrame, (takeFrame_turn c r x s).room]

theorem activeTaken_turn (c : ChanId) (r : RecFrames) (x : Session) (active : (s.chan c).state = .active) :
    Turn c ((s.chan c).writes c r x) (frameEvents c r x s) (segmentRecord c x s) (cutsNow c x s) s
      (segmentTest c (takeFrame c r x s)) := by
  have taken := takeFrame_turn c r x s
  rw [segmentTest_takeFrame c r x active]
  unfold segmentRecord cutsNow
  cases segmentDue s.ru.segLen s.ru.frameNo (s.chan c) x with
  | false => exact taken
  | true =>
    cases s.ru.room with
    | false => exact taken.modChan _
    | true => exact taken.cutSegment _

theorem activeTaken_chan (c : ChanId) (r : RecFrames) (x : Session) (active : (s.chan c).state = .active) :
    (segmentTest c (takeFrame c r x s)).chan c = activeTaken c r x s := by
  have chan := takeFrame_chan c r x s
  have session := framed_session c r x s
  have pending := framed_segPending c r x s
  rw [segmentTest_takeFrame c r x active]
  unfold activeTaken cutsNow
  cases due : segmentDue s.ru.segLen s.ru.frameNo (s.chan c) x with
  | false =>
    have off : (s.chan c).segPending = false := by simp_all [segmentDue]
    have same : framed c r x s =
        { framed c r x s with session := (framed c r x s).session, segPending := (framed c r x s).segPending } := rfl
    rw [session, pending, off] at same
    exact chan.trans same
  | true =>
    cases s.ru.room with
    | false =>
      simp only [Bool.and_false, if_neg Bool.false_ne_true, if_true, ← session, modChan_chan_self, chan]
      rfl
    | true =>
      simp only [Bool.and_true, if_true, cutSegment_chan, chan, (takeFrame_turn c r x s).nextSegment]
      rfl

/-! ## A DRAINING channel's turn (R154) -/

/-- The close step follows from this frame event (R154). -/
def Channel.closing (ch : Channel) : Bool := ch.state == .draining && !ch.closeDone && ch.outstanding == 0

theorem closes_of_frameSeen (ch : Channel) : ({ ch with frameSeen := true } : Channel).closes = ch.closing := by
  simp [Channel.closes, Channel.closing]

theorem setBuffer_of_frameSeen (ch : Channel) (b : Buf) (y : Buffer) :
    ({ ch with frameSeen := true } : Channel).setBuffer b y = { ch.setBuffer b y with frameSeen := true } := by
  cases b <;> rfl

theorem shut_of_frameSeen (ch : Channel) :
    ({ ch with frameSeen := true } : Channel).shut = { ch.shut with frameSeen := true } := by
  have short : ({ ch with frameSeen := true } : Channel).short = ch.short := rfl
  rw [Channel.shut, Channel.shut, short, setBuffer_of_frameSeen]
  cases ch.short <;> rfl

theorem placeHeld_of_none (none_ : (s.chan c).closeRecord = none) : placeHeld c s = s := by
  simp only [placeHeld, none_]

theorem Turn.placeHeld (h : Turn c none es none false s t) :
    Turn c none es (t.chan c).closeRecord false s (Machine.placeHeld c t) := by
  cases held : (t.chan c).closeRecord with
  | none =>
    rw [placeHeld_of_none held]
    exact h
  | some y =>
    rw [placeHeld_of_record held]
    exact (h.placeRecord y).modChan _

/-- The record that a channel places at its close step. -/
def closeRecordNow (c : ChanId) (s : State) : Option Session := if s.ru.room then (s.chan c).closeRecord else none

/-- The channel after its close step. -/
def closeTaken (c : ChanId) (s : State) : Channel :=
  { (s.chan c).shut with
    closeDone := true
    placed := if (s.chan c).closeRecord.isSome && s.ru.room then some s.ru.produced else (s.chan c).placed }

theorem closeStep_turn (h : ChanStep c [] s t) :
    Turn c none ((t.chan c).finalEvents c) (closeRecordNow c t) false s (closeStep c t) := by
  have shut : Turn c none ((t.chan c).finalEvents c) none false s (bufferShut c t) :=
    (h.trans (bufferShut_step c t)).turn
  rw [closeStep_eq, closeRecordNow]
  cases t.ru.room with
  | false => exact shut
  | true =>
    have placed := shut.placeHeld
    rw [bufferShut_chan] at placed
    rw [← (t.chan c).shut_closeRecord]
    exact placed

theorem placeHeld_chan (c : ChanId) (s : State) : (placeHeld c s).chan c = { s.chan c with
    placed := if (s.chan c).closeRecord.isSome then some s.ru.produced else (s.chan c).placed } := by
  rcases Option.eq_none_or_eq_some (s.chan c).closeRecord with none_ | ⟨y, held⟩
  · have off : (s.chan c).closeRecord.isSome = false := by rw [none_]; rfl
    rw [placeHeld_of_none none_, off]
    rfl
  · have on : (s.chan c).closeRecord.isSome = true := by rw [held]; rfl
    rw [placeHeld_of_record held, modChan_chan_self, on]
    rfl

theorem closeStep_chan (c : ChanId) (s : State) : (closeStep c s).chan c = closeTaken c s := by
  have produced : (bufferShut c s).ru.produced = s.ru.produced := by rw [(bufferShut_step c s).frame]
  rw [closeStep_eq, closeTaken]
  cases s.ru.room with
  | false =>
    simp only [Bool.and_false, if_neg Bool.false_ne_true, bufferShut_chan]
    rw [← (s.chan c).shut_placed]
  | true =>
    simp only [Bool.and_true, if_true, placeHeld_chan, bufferShut_chan, produced, Channel.shut_closeRecord,
      Channel.shut_placed]

/-! ## A channel's turn, by its state (R149) -/

/-- The frame write that the channel asks for. -/
def turnWrite (c : ChanId) (r : RecFrames) (ch : Channel) : Option OwnAccess :=
  match ch.state, ch.session with
  | .active, some x => ch.writes c r x
  | _, _ => none

/-- The events that the channel posts. -/
def turnEvents (c : ChanId) (r : RecFrames) (s : State) : List Event :=
  match (s.chan c).state, (s.chan c).session with
  | .active, some x => frameEvents c r x s
  | .draining, _ => if (s.chan c).closing then (s.chan c).finalEvents c else []
  | _, _ => []

/-- The record that the channel places. -/
def turnRecord (c : ChanId) (s : State) : Option Session :=
  match (s.chan c).state, (s.chan c).session with
  | .active, some x => segmentRecord c x s
  | .draining, _ => if (s.chan c).closing then closeRecordNow c s else none
  | _, _ => none

/-- The channel takes a session number. -/
def turnOpens (c : ChanId) (s : State) : Bool :=
  match (s.chan c).state, (s.chan c).session with
  | .active, some x => cutsNow c x s
  | _, _ => false

/-- The channel after its turn. -/
def turnTaken (c : ChanId) (r : RecFrames) (s : State) : Channel :=
  match (s.chan c).state, (s.chan c).session with
  | .active, some x => activeTaken c r x s
  | .draining, _ => if (s.chan c).closing then { closeTaken c s with frameSeen := true }
    else { s.chan c with frameSeen := true }
  | _, _ => s.chan c

/-- A FREE channel takes no frame; neither does an ACTIVE one without a session. -/
def Channel.idles (ch : Channel) : Prop := ch.state = .free ∨ (ch.state = .active ∧ ch.session = none)

/-- The state once a DRAINING channel has seen the frame event. -/
def frameNoted (c : ChanId) (s : State) : State := s.modChan c fun ch => { ch with frameSeen := true }

theorem frameNoted_chan (c : ChanId) (s : State) : (frameNoted c s).chan c = { s.chan c with frameSeen := true } :=
  modChan_chan_self ..

section
variable {r : RecFrames}

theorem takeChannelFrame_of_idles (idle : (s.chan c).idles) : takeChannelFrame r.number r.frames c s = s := by
  rcases idle with free | ⟨active, none_⟩
  · simp only [takeChannelFrame, free]
  · simp only [takeChannelFrame, active, none_]

theorem takeChannelFrame_of_active (active : (s.chan c).state = .active) (open_ : (s.chan c).session = some x) :
    takeChannelFrame r.number r.frames c s = segmentTest c (takeFrame c r x s) := by
  simp only [takeChannelFrame, active, open_]
  rfl

theorem takeChannelFrame_of_draining (draining : (s.chan c).state = .draining) :
    takeChannelFrame r.number r.frames c s =
      if (s.chan c).closing then closeStep c (frameNoted c s) else frameNoted c s := by
  rw [← closes_of_frameSeen, ← frameNoted_chan]
  simp only [takeChannelFrame, draining]
  rfl

theorem turn_of_idles (idle : (s.chan c).idles) :
    turnWrite c r (s.chan c) = none ∧ turnEvents c r s = [] ∧ turnTaken c r s = s.chan c := by
  rcases idle with free | ⟨active, none_⟩
  · simp only [turnWrite, turnEvents, turnTaken, free, and_self]
  · simp only [turnWrite, turnEvents, turnTaken, active, none_, and_self]

theorem record_of_idles (idle : (s.chan c).idles) : turnRecord c s = none ∧ turnOpens c s = false := by
  rcases idle with free | ⟨active, none_⟩
  · simp only [turnRecord, turnOpens, free, and_self]
  · simp only [turnRecord, turnOpens, active, none_, and_self]

theorem turn_of_active (active : (s.chan c).state = .active) (open_ : (s.chan c).session = some x) :
    turnWrite c r (s.chan c) = (s.chan c).writes c r x ∧ turnEvents c r s = frameEvents c r x s ∧
      turnTaken c r s = activeTaken c r x s := by
  simp only [turnWrite, turnEvents, turnTaken, active, open_, and_self]

theorem record_of_active (active : (s.chan c).state = .active) (open_ : (s.chan c).session = some x) :
    turnRecord c s = segmentRecord c x s ∧ turnOpens c s = cutsNow c x s := by
  simp only [turnRecord, turnOpens, active, open_, and_self]

theorem turn_of_draining (draining : (s.chan c).state = .draining) : turnWrite c r (s.chan c) = none ∧
    turnEvents c r s = (if (s.chan c).closing then (s.chan c).finalEvents c else []) ∧
    turnTaken c r s = if (s.chan c).closing then { closeTaken c s with frameSeen := true }
      else { s.chan c with frameSeen := true } := by
  simp only [turnWrite, turnEvents, turnTaken, draining, and_self]

theorem record_of_draining (draining : (s.chan c).state = .draining) :
    turnRecord c s = (if (s.chan c).closing then closeRecordNow c s else none) ∧ turnOpens c s = false := by
  simp only [turnRecord, turnOpens, draining, and_self]

theorem channel_cases (ch : Channel) :
    ch.idles ∨ (∃ x, ch.state = .active ∧ ch.session = some x) ∨ ch.state = .draining := by
  cases state : ch.state with
  | free => exact .inl (.inl state)
  | active => cases open_ : ch.session with
    | none => exact .inl (.inr ⟨state, open_⟩)
    | some x => exact .inr (.inl ⟨x, rfl, rfl⟩)
  | draining => exact .inr (.inr rfl)

theorem closeRecordNow_frameNoted (c : ChanId) (s : State) : closeRecordNow c (frameNoted c s) = closeRecordNow c s := by
  unfold closeRecordNow
  rw [frameNoted_chan]
  rfl

theorem closeTaken_frameNoted (c : ChanId) (s : State) :
    closeTaken c (frameNoted c s) = { closeTaken c s with frameSeen := true } := by
  unfold closeTaken
  rw [frameNoted_chan, shut_of_frameSeen]
  rfl

/-- What a channel's turn does, whatever its state. -/
theorem takeChannelFrame_turn (c : ChanId) (r : RecFrames) (s : State) :
    Turn c (turnWrite c r (s.chan c)) (turnEvents c r s) (turnRecord c s) (turnOpens c s) s
      (takeChannelFrame r.number r.frames c s) := by
  rcases channel_cases (s.chan c) with idle | ⟨x, active, open_⟩ | draining
  · obtain ⟨write, events, -⟩ := turn_of_idles (r := r) idle
    obtain ⟨record, opens⟩ := record_of_idles idle
    rw [takeChannelFrame_of_idles idle, write, events, record, opens]
    exact (ChanStep.refl c s).turn
  · obtain ⟨write, events, -⟩ := turn_of_active (r := r) active open_
    obtain ⟨record, opens⟩ := record_of_active active open_
    rw [takeChannelFrame_of_active active open_, write, events, record, opens]
    exact activeTaken_turn c r x active
  · obtain ⟨write, events, -⟩ := turn_of_draining (r := r) draining
    obtain ⟨record, opens⟩ := record_of_draining draining
    have noted : ChanStep c [] s (frameNoted c s) := chanStep_modChan ..
    rw [takeChannelFrame_of_draining draining, write, events, record, opens]
    cases (s.chan c).closing with
    | false => exact noted.turn
    | true =>
      have closed := closeStep_turn noted
      rw [frameNoted_chan, closeRecordNow_frameNoted] at closed
      exact closed

theorem takeChannelFrame_chan (c : ChanId) (r : RecFrames) (s : State) :
    (takeChannelFrame r.number r.frames c s).chan c = turnTaken c r s := by
  rcases channel_cases (s.chan c) with idle | ⟨x, active, open_⟩ | draining
  · obtain ⟨-, -, taken⟩ := turn_of_idles (r := r) idle
    rw [takeChannelFrame_of_idles idle, taken]
  · obtain ⟨-, -, taken⟩ := turn_of_active (r := r) active open_
    rw [takeChannelFrame_of_active active open_, taken, activeTaken_chan c r x active]
  · obtain ⟨-, -, taken⟩ := turn_of_draining (r := r) draining
    rw [takeChannelFrame_of_draining draining, taken]
    cases (s.chan c).closing with
    | false => exact frameNoted_chan c s
    | true => exact (closeStep_chan c _).trans (closeTaken_frameNoted c s)

end

end Sys2Proof.Machine

namespace Sys2Proof.Machine

variable {s t u : State} {c d : ChanId} {k : Nat}

/-! # All channels take their frames, in number order (R149) -/

/-! ## Turns in a row -/

/-- The channels `cs` have had their turns, with the frame writes and events told; `more` was asked for, and so many records
were placed. -/
structure Turns (cs : List ChanId) (write : ChanId → Option OwnAccess) (ev : ChanId → List Event) (more : List OwnAccess)
    (placed : Nat) (s t : State) : Prop where
  others : ∀ d, d ∉ cs → t.chan d = s.chan d
  unit : t.cu = s.cu.afterEvents (cs.flatMap ev)
  own : t.pu.own = s.pu.own ++ more
  frames : more.filter (fun b => b.purpose.isFrameWrite) = cs.filterMap write
  records : more.filterMap (fun b => b.purpose.recordIndex) =
    (List.range placed).map fun m => s.ru.produced + BitVec.ofNat 32 m
  slots : more.filter (fun b => b.purpose.isEventSlot) = s.cu.slotWrites (cs.flatMap ev)
  sorts : ∀ b ∈ more, b.purpose.isFrameWrite = true ∨ b.purpose.recordIndex.isSome = true ∨ b.purpose.isEventSlot = true
  produced : t.ru.produced = s.ru.produced + BitVec.ofNat 32 placed
  few : placed ≤ cs.length
  frame : t = { s with
    ru := { s.ru with channels := t.ru.channels, produced := t.ru.produced, nextSession := t.ru.nextSession }
    cu := t.cu, pu := { s.pu with own := t.pu.own } }

theorem Turns.nil (write : ChanId → Option OwnAccess) (ev : ChanId → List Event) (s : State) :
    Turns [] write ev [] 0 s s where
  others _ _ := rfl
  unit := rfl
  own := (List.append_nil _).symm
  frames := rfl
  records := rfl
  slots := rfl
  sorts _ mem := nomatch mem
  produced := (BitVec.add_zero _).symm
  few := Nat.le_refl 0
  frame := rfl

section
variable {write : Option OwnAccess} {es : List Event} {record : Option Session}

/-- A write of a frame of channel `c`. -/
def FrameWriteOf (c : ChanId) (a : OwnAccess) : Prop := ∃ b n number, a.purpose = .frameWrite c b n number

theorem turnWrite_frameWriteOf {r : RecFrames} {ch : Channel} : ∀ a ∈ turnWrite c r ch, FrameWriteOf c a := by
  intro a asked
  unfold turnWrite Channel.writes at asked
  split at asked
  · split at asked
    · rw [← Option.some.inj asked]
      exact ⟨_, _, _, rfl⟩
    · exact nomatch asked
  · exact nomatch asked

theorem frameWrite_sort (isWrite : ∀ a ∈ write, FrameWriteOf c a) : ∀ a ∈ write.toList,
    a.purpose.isFrameWrite = true ∧ a.purpose.recordIndex = none ∧ a.purpose.isEventSlot = false := by
  intro a asked
  obtain ⟨_, _, _, is⟩ := isWrite a (Option.mem_toList.1 asked)
  rw [is]
  exact ⟨rfl, rfl, rfl⟩

theorem slotWrite_sort (cu : CmdUnit) : ∀ a ∈ cu.slotWrites es,
    a.purpose.isFrameWrite = false ∧ a.purpose.recordIndex = none ∧ a.purpose.isEventSlot = true := by
  intro a mem
  have slot := cu.slotWrites_eventSlots es a mem
  generalize a.purpose = p at slot ⊢
  cases p
  case eventSlot => exact ⟨rfl, rfl, rfl⟩
  all_goals exact nomatch slot

theorem recordWrite_sort (s : State) : ∀ a ∈ (record.map (recordWrite s)).toList,
    a.purpose.isFrameWrite = false ∧ a.purpose.recordIndex = some s.ru.produced ∧ a.purpose.isEventSlot = false := by
  intro a placed
  obtain ⟨y, -, is⟩ := Option.map_eq_some_iff.1 (Option.mem_toList.1 placed)
  rw [← is]
  exact ⟨rfl, rfl, rfl⟩

theorem turnAsks_frames (isWrite : ∀ a ∈ write, FrameWriteOf c a) (s : State) :
    (turnAsks write es record s).filter (fun b => b.purpose.isFrameWrite) = write.toList := by
  rw [turnAsks, List.filter_append, List.filter_append,
    List.filter_eq_self.2 fun a mem => (frameWrite_sort isWrite a mem).1, List.filter_eq_nil_iff.2 fun a mem => by simp [slotWrite_sort s.cu a mem],
    List.filter_eq_nil_iff.2 fun a mem => by simp [recordWrite_sort s a mem], List.append_nil, List.append_nil]

theorem turnAsks_records (isWrite : ∀ a ∈ write, FrameWriteOf c a) (s : State) :
    (turnAsks write es record s).filterMap (fun b => b.purpose.recordIndex) = record.toList.map fun _ => s.ru.produced := by
  rw [turnAsks, List.filterMap_append, List.filterMap_append,
    List.filterMap_eq_nil_iff.2 fun a mem => (frameWrite_sort isWrite a mem).2.1,
    List.filterMap_eq_nil_iff.2 fun a mem => (slotWrite_sort s.cu a mem).2.1]
  cases record <;> rfl

theorem turnAsks_slots (isWrite : ∀ a ∈ write, FrameWriteOf c a) (s : State) :
    (turnAsks write es record s).filter (fun b => b.purpose.isEventSlot) = s.cu.slotWrites es := by
  rw [turnAsks, List.filter_append, List.filter_append,
    List.filter_eq_nil_iff.2 fun a mem => by simp [frameWrite_sort isWrite a mem],
    List.filter_eq_self.2 fun a mem => (slotWrite_sort s.cu a mem).2.2,
    List.filter_eq_nil_iff.2 fun a mem => by simp [recordWrite_sort s a mem], List.nil_append, List.append_nil]

theorem turnAsks_sorts (isWrite : ∀ a ∈ write, FrameWriteOf c a) (s : State) : ∀ b ∈ turnAsks write es record s,
    b.purpose.isFrameWrite = true ∨ b.purpose.recordIndex.isSome = true ∨ b.purpose.isEventSlot = true := by
  intro b mem
  rcases List.mem_append.1 mem with early | placed
  · rcases List.mem_append.1 early with asked | slot
    · exact .inl (frameWrite_sort isWrite b asked).1
    · exact .inr (.inr (slotWrite_sort s.cu b slot).2.2)
  · exact .inr (.inl (by rw [(recordWrite_sort s b placed).2.1]; rfl))

end

theorem Turns.snoc {cs : List ChanId} {write : ChanId → Option OwnAccess} {ev : ChanId → List Event}
    {more : List OwnAccess} {placed : Nat} {record : Option Session} {opens : Bool} (h : Turns cs write ev more placed s t)
    (turn : Turn c (write c) (ev c) record opens t u) (isWrite : ∀ a ∈ write c, FrameWriteOf c a) :
    Turns (cs ++ [c]) write ev (more ++ turnAsks (write c) (ev c) record t) (placed + record.toList.length) s u where
  others d new := by
    rw [List.mem_append, not_or, List.mem_singleton] at new
    exact (turn.others d new.2).trans (h.others d new.1)
  unit := by rw [turn.unit, h.unit, ← CmdUnit.afterEvents_append]; simp
  own := by rw [turn.own, h.own, List.append_assoc]
  frames := by
    rw [List.filter_append, h.frames, turnAsks_frames isWrite, List.filterMap_append]
    cases asked : write c <;> simp [asked]
  records := by
    rw [List.filterMap_append, h.records, turnAsks_records isWrite, h.produced]
    cases record <;> simp [List.range_succ]
  slots := by
    rw [List.filter_append, h.slots, turnAsks_slots isWrite, h.unit, ← CmdUnit.slotWrites_append]
    simp
  sorts b mem := (List.mem_append.1 mem).elim (h.sorts b) (turnAsks_sorts isWrite t b)
  produced := by rw [turn.produced, h.produced, BitVec.add_assoc, BitVec.ofNat_add]
  few := by
    have one : record.toList.length ≤ 1 := by cases record <;> simp
    have few := h.few
    simp only [List.length_append, List.length_singleton]
    omega
  frame := by rw [turn.frame, h.frame]

/-! ## The states between the turns -/

/-- The state before the turn of channel `k`. -/
def turnState (r : RecFrames) (s : State) (k : Nat) : State :=
  ((List.finRange 32).take k).foldl (fun s c => takeChannelFrame r.number r.frames c s) s

theorem take_finRange_succ (below : k < 32) :
    (List.finRange 32).take (k + 1) = (List.finRange 32).take k ++ [⟨k, below⟩] := by
  rw [List.take_add_one, List.getElem?_eq_getElem (by simpa using below), List.getElem_finRange]
  rfl

theorem take_finRange_all : (List.finRange 32).take 32 = List.finRange 32 := List.take_of_length_le (by simp)

theorem lt_of_mem_take (mem : c ∈ (List.finRange 32).take k) : c.val < k := by
  obtain ⟨i, below, is⟩ := List.mem_take_iff_getElem.1 mem
  rw [← is, List.getElem_finRange]
  simp at below ⊢
  omega

theorem turnState_succ (r : RecFrames) (s : State) (c : ChanId) :
    turnState r s (c.val + 1) = takeChannelFrame r.number r.frames c (turnState r s c.val) := by
  rw [turnState, take_finRange_succ c.isLt, List.foldl_append]
  rfl

theorem takeFrames_eq (r : RecFrames) (s : State) :
    takeFrames r s = turnState r { s with ru := { s.ru with frameNo := r.number } } 32 := by
  rw [turnState, take_finRange_all]
  rfl

/-- The events that a channel posts at its turn. -/
def eventsAt (r : RecFrames) (s : State) (c : ChanId) : List Event := turnEvents c r (turnState r s c.val)

theorem turn_at (r : RecFrames) (s : State) (c : ChanId) :
    Turn c (turnWrite c r ((turnState r s c.val).chan c)) (eventsAt r s c) (turnRecord c (turnState r s c.val))
      (turnOpens c (turnState r s c.val)) (turnState r s c.val) (turnState r s (c.val + 1)) := by
  rw [turnState_succ]
  exact takeChannelFrame_turn ..

theorem turns_below (r : RecFrames) (s : State) (k : Nat) (most : k ≤ 32) : ∃ (more : List OwnAccess) (placed : Nat),
    Turns ((List.finRange 32).take k) (fun c => turnWrite c r (s.chan c)) (eventsAt r s) more placed s
      (turnState r s k) := by
  induction k with
  | zero => exact ⟨[], 0, .nil ..⟩
  | succ k ih =>
    obtain ⟨more, placed, below⟩ := ih (by omega)
    have turn := turn_at r s ⟨k, most⟩
    rw [below.others _ fun mem => Nat.lt_irrefl k (lt_of_mem_take mem)] at turn
    have turns := below.snoc turn turnWrite_frameWriteOf
    rw [← take_finRange_succ most] at turns
    exact ⟨_, _, turns⟩

/-- Later turns leave a channel's record, and what has been asked for, as they are. -/
theorem turnState_later (r : RecFrames) (s : State) (c : ChanId) (after : c.val + 1 ≤ k) (most : k ≤ 32) :
    (turnState r s k).chan c = turnTaken c r (turnState r s c.val) ∧
      ∀ a ∈ (turnState r s (c.val + 1)).pu.own, a ∈ (turnState r s k).pu.own := by
  induction k, after using Nat.le_induction with
  | base => exact ⟨by rw [turnState_succ, takeChannelFrame_chan], fun _ mem => mem⟩
  | succ k after ih =>
    obtain ⟨chan, own⟩ := ih (by omega)
    have turn := turn_at r s ⟨k, most⟩
    refine ⟨(turn.others c fun same => ?_).trans chan, fun a mem => ?_⟩
    · rw [same] at after
      exact Nat.not_succ_le_self k after
    · rw [turn.own]
      exact List.mem_append_left _ (own a mem)

/-! ## What a channel finds at its turn -/

/-- `u` is the state that channel `c` finds at its turn: the earlier channels have asked for writes of their own frames, and
placed one record each at most. -/
structure Finds (c : ChanId) (s u : State) : Prop where
  chan : u.chan c = s.chan c
  own : ∃ more, u.pu.own = s.pu.own ++ more ∧ ∀ a ∈ more, ¬FrameWriteOf c a
  produced : ∃ placed ≤ c.val, u.ru.produced = s.ru.produced + BitVec.ofNat 32 placed
  frame : u = { s with
    ru := { s.ru with channels := u.ru.channels, produced := u.ru.produced, nextSession := u.ru.nextSession }
    cu := u.cu, pu := { s.pu with own := u.pu.own } }

theorem finds_at (r : RecFrames) (s : State) (c : ChanId) : Finds c s (turnState r s c.val) := by
  obtain ⟨more, placed, below⟩ := turns_below r s c.val c.isLt.le
  refine ⟨below.others c fun mem => Nat.lt_irrefl _ (lt_of_mem_take mem), ⟨more, below.own, fun a mem is => ?_⟩,
    ⟨placed, below.few.trans (List.length_take_le ..), below.produced⟩, below.frame⟩
  obtain ⟨b, n, number, is⟩ := is
  have frame : a ∈ more.filter fun b => b.purpose.isFrameWrite := List.mem_filter.2 ⟨mem, by rw [is]; rfl⟩
  rw [below.frames] at frame
  obtain ⟨d, early, asked⟩ := List.mem_filterMap.1 frame
  obtain ⟨b', n', number', other⟩ := turnWrite_frameWriteOf a asked
  rw [is] at other
  injection other with same
  exact Nat.lt_irrefl _ (same ▸ lt_of_mem_take early)

section
variable {r : RecFrames} {x : Session}

theorem unreturned_others {b : Buf} {first size : Word} {more : List OwnAccess} (others : ∀ a ∈ more, ¬FrameWriteOf c a) :
    unreturned c b first size more = 0 := by
  refine List.length_eq_zero_iff.2 (List.filter_eq_nil_iff.2 fun a mem counted => others a mem ?_)
  unfold inBuffer at counted
  split at counted
  · next d buf frame number is =>
    simp only [Bool.and_eq_true, beq_iff_eq] at counted
    obtain ⟨⟨same, -⟩, -⟩ := counted
    exact ⟨buf, frame, number, same ▸ is⟩
  · exact nomatch counted

theorem Finds.waitingWrites (h : Finds c s u) : waitingWrites c r x u = waitingWrites c r x s := by
  obtain ⟨more, own, others⟩ := h.own
  have flight : u.pu.flight = s.pu.flight := by rw [h.frame]
  unfold Machine.waitingWrites
  rw [h.chan, own, flight]
  simp only [← List.cons_append, unreturned_append, unreturned_others others, Nat.add_zero]

theorem Finds.frameEvents (h : Finds c s u) : frameEvents c r x u = frameEvents c r x s := by
  unfold Machine.frameEvents
  rw [h.chan, h.waitingWrites]

theorem Finds.framed (h : Finds c s u) : framed c r x u = framed c r x s := by
  unfold Machine.framed
  rw [h.chan, h.waitingWrites]

/-- The segment of the channel's session is due (R157). -/
def Cuts (c : ChanId) (x : Session) (s : State) : Prop := (s.chan c).state = .active ∧ (s.chan c).session = some x ∧
  ((s.chan c).segPending = true ∨ (0 < s.ru.segLen ∧ s.ru.frameNo = x.startFrame + BitVec.ofNat 32 s.ru.segLen))

/-- The close step follows from this frame event, as a proposition (R154). -/
def Closing (ch : Channel) : Prop := ch.state = .draining ∧ ch.closeDone = false ∧ ch.outstanding = 0

/-- The channel has a record to place at this frame event (R154, R157). -/
def Wants (c : ChanId) (s : State) : Prop :=
  (∃ x, Cuts c x s) ∨ (Closing (s.chan c) ∧ (s.chan c).closeRecord ≠ none)

theorem Finds.cuts (h : Finds c s u) : Cuts c x u = Cuts c x s := by
  unfold Cuts
  rw [h.chan, h.frame]

theorem Finds.wants (h : Finds c s u) : Wants c u = Wants c s := by
  unfold Wants
  simp only [h.cuts, h.chan]

theorem cuts_iff_due (active : (s.chan c).state = .active) (open_ : (s.chan c).session = some x) :
    Cuts c x s ↔ segmentDue s.ru.segLen s.ru.frameNo (s.chan c) x = true := by
  rw [segmentDue_iff]
  exact ⟨fun ⟨_, _, due⟩ => due, fun due => ⟨active, open_, due⟩⟩

theorem cutsNow_iff (active : (s.chan c).state = .active) (open_ : (s.chan c).session = some x) :
    cutsNow c x s = true ↔ Cuts c x s ∧ s.ru.room = true := by
  rw [cutsNow, Bool.and_eq_true, cuts_iff_due active open_]

theorem exists_cuts_iff (active : (s.chan c).state = .active) (open_ : (s.chan c).session = some x) :
    (∃ y, Cuts c y s) ↔ Cuts c x s := by
  refine ⟨fun ⟨y, _, other, due⟩ => ⟨active, open_, ?_⟩, fun cuts => ⟨x, cuts⟩⟩
  rw [open_] at other
  rw [Option.some.inj other]
  exact due

theorem not_cuts_of_idles (idle : (s.chan c).idles) : ¬∃ x, Cuts c x s := by
  rintro ⟨x, active, open_, -⟩
  rcases idle with free | ⟨-, none_⟩
  · exact nomatch free.symm.trans active
  · exact nomatch none_.symm.trans open_

theorem not_cuts_of_draining (draining : (s.chan c).state = .draining) : ¬∃ x, Cuts c x s :=
  fun ⟨_, active, _⟩ => nomatch draining.symm.trans active

theorem closing_iff (ch : Channel) : ch.closing = true ↔ Closing ch := by
  simp [Channel.closing, Closing, and_assoc]

theorem not_closing_of_idles {ch : Channel} (idle : ch.idles) : ¬Closing ch := by
  rintro ⟨draining, -⟩
  rcases idle with free | ⟨active, -⟩
  · exact nomatch free.symm.trans draining
  · exact nomatch active.symm.trans draining

theorem turnOpens_iff : turnOpens c s = true ↔ (∃ x, Cuts c x s) ∧ s.ru.room = true := by
  rcases channel_cases (s.chan c) with idle | ⟨x, active, open_⟩ | draining
  · obtain ⟨-, opens⟩ := record_of_idles idle
    simp [opens, not_cuts_of_idles idle]
  · obtain ⟨-, opens⟩ := record_of_active active open_
    rw [opens, cutsNow_iff active open_, exists_cuts_iff active open_]
  · obtain ⟨-, opens⟩ := record_of_draining draining
    simp [opens, not_cuts_of_draining draining]

theorem turnRecord_isSome_iff : (turnRecord c s).isSome = true ↔ Wants c s ∧ s.ru.room = true := by
  rcases channel_cases (s.chan c) with idle | ⟨x, active, open_⟩ | draining
  · obtain ⟨record, -⟩ := record_of_idles idle
    simp [record, Wants, not_cuts_of_idles idle, not_closing_of_idles idle]
  · obtain ⟨record, -⟩ := record_of_active active open_
    have opened : ¬Closing (s.chan c) := fun ⟨draining, _⟩ => nomatch active.symm.trans draining
    have placed : (segmentRecord c x s).isSome = cutsNow c x s := by
      unfold segmentRecord
      cases cutsNow c x s <;> rfl
    rw [record, placed, cutsNow_iff active open_, Wants, exists_cuts_iff active open_]
    simp [opened]
  · obtain ⟨record, -⟩ := record_of_draining draining
    rw [record, Wants, ← closing_iff]
    simp only [not_cuts_of_draining draining, false_or, closeRecordNow, Option.ne_none_iff_isSome]
    cases (s.chan c).closing <;> cases s.ru.room <;> simp

end

end Sys2Proof.Machine

namespace Sys2Proof.Machine

variable {s t u : State} {c : ChanId} {r : RecFrames} {rest : List RecFrames} {x : Session} {n : Word}

/-! # Recorder frames and segments -/

/-! ## A channel after its turn, said of the state that the frames met -/

theorem setBuffer_filled (n : Word) (x : Session) (ch : Channel) (y : Buffer) :
    (ch.filled n x).setBuffer ch.current y = { ch.setBuffer ch.current y with
      session := some { x with written := x.written + 1 }, outstanding := ch.outstanding + 1 } := by
  unfold Channel.filled
  cases ch.current <;> rfl

theorem passed_filled (n : Word) (x : Session) (waiting : Nat) (ch : Channel) : (ch.filled n x).passed waiting =
    { ch.setBuffer ch.current { ch.here.taking n x.number with owner := .host } with
      session := some { x with written := x.written + 1 }
      outstanding := ch.outstanding + 1
      current := ch.current.other
      bufEvents := if waiting = 0 then ch.bufEvents else ch.bufEvents ++
        [⟨ch.current, (ch.here.taking n x.number).firstSession.getD 0, (ch.here.taking n x.number).firstFrame.getD 0,
          frameCount ch.here.base ch.here.ceil, waiting⟩] } := by
  have events : (ch.filled n x).bufEvents = ch.bufEvents := ch.setBuffer_bufEvents ..
  simp only [Channel.passed, Channel.fullEvent, Channel.filled_here, Channel.filled_current, setBuffer_filled, events]
  rfl

/-- The state that the channels' turns begin with. -/
def framesArrived (r : RecFrames) (rest : List RecFrames) (s : State) : State :=
  { s with ru := { s.ru with inbox := rest, frameNo := r.number } }

/-- The state after all turns. -/
def framesTaken (r : RecFrames) (rest : List RecFrames) (s : State) : State := turnState r (framesArrived r rest s) 32

/-- The state that channel `c` finds at its turn. -/
def turnOf (r : RecFrames) (rest : List RecFrames) (s : State) (c : ChanId) : State :=
  turnState r (framesArrived r rest s) c.val

theorem finds_turnOf (r : RecFrames) (rest : List RecFrames) (s : State) (c : ChanId) :
    Finds c (framesArrived r rest s) (turnOf r rest s c) := finds_at ..

theorem exec_recorderFrames (run : s.running = true) (waits : s.ru.inbox = r :: rest) :
    exec .recorderFrames s = .next (framesTaken r rest s) := by
  refine (inRunning_of_running _ run).trans (congrArg Host.Outcome.next ?_)
  simp only [recorderFrames, waits, takeFrames_eq]
  rfl

theorem framesTaken_chan (r : RecFrames) (rest : List RecFrames) (s : State) (c : ChanId) :
    (framesTaken r rest s).chan c = turnTaken c r (turnOf r rest s c) :=
  (turnState_later (k := 32) r (framesArrived r rest s) c c.isLt (Nat.le_refl 32)).1

/-- What a channel asks for at its turn is asked for in the end. -/
theorem asked_framesTaken {a : OwnAccess} (asked : a ∈ turnAsks (turnWrite c r ((turnOf r rest s c).chan c))
    (eventsAt r (framesArrived r rest s) c) (turnRecord c (turnOf r rest s c)) (turnOf r rest s c)) :
    a ∈ (framesTaken r rest s).pu.own := by
  unfold framesTaken
  refine (turnState_later (k := 32) r (framesArrived r rest s) c c.isLt (Nat.le_refl 32)).2 a ?_
  rw [(turn_at r (framesArrived r rest s) c).own]
  exact List.mem_append_right _ asked

theorem turns_framesTaken (r : RecFrames) (rest : List RecFrames) (s : State) : ∃ (more : List OwnAccess) (placed : Nat),
    Turns (List.finRange 32) (fun c => turnWrite c r (s.chan c)) (eventsAt r (framesArrived r rest s)) more placed
      (framesArrived r rest s) (framesTaken r rest s) := by
  have turns := turns_below r (framesArrived r rest s) 32 (Nat.le_refl 32)
  rw [take_finRange_all] at turns
  exact turns

/-- The log's produced count and the next session number from one turn to the next. -/
theorem counts_of_turn {write : Option OwnAccess} {es : List Event}
    (h : Turn c write es (turnRecord c u) (turnOpens c u) u t) :
    (Wants c u → u.ru.room = true → t.ru.produced = u.ru.produced + 1) ∧
    (¬Wants c u ∨ u.ru.room = false → t.ru.produced = u.ru.produced) ∧
    ((∃ x, Cuts c x u) → u.ru.room = true → t.ru.nextSession = succSession u.ru.nextSession) ∧
    ((¬∃ x, Cuts c x u) ∨ u.ru.room = false → t.ru.nextSession = u.ru.nextSession) := by
  refine ⟨fun wants room => ?_, fun stays => ?_, fun cuts room => ?_, fun stays => ?_⟩
  · obtain ⟨y, is⟩ := Option.isSome_iff_exists.1 (turnRecord_isSome_iff.2 ⟨wants, room⟩)
    rw [h.produced, is]
    rfl
  · have none_ : turnRecord c u = none := by
      rw [← Option.not_isSome_iff_eq_none, turnRecord_isSome_iff]
      rintro ⟨wants, room⟩
      rcases stays with not_wants | full
      · exact not_wants wants
      · exact Bool.false_ne_true (full.symm.trans room)
    rw [h.produced, none_]
    exact BitVec.add_zero _
  · rw [h.next, if_pos (turnOpens_iff.2 ⟨cuts, room⟩)]
  · refine h.next.trans (if_neg fun opens => ?_)
    obtain ⟨cuts, room⟩ := turnOpens_iff.1 opens
    rcases stays with not_cuts | full
    · exact not_cuts cuts
    · exact Bool.false_ne_true (full.symm.trans room)

/-- An ACTIVE channel's session record and mark after its turn, and the record that it places (R157). -/
theorem segment_of_active (active : (u.chan c).state = .active) (open_ : (u.chan c).session = some x) :
    let y := (u.chan c).counting x
    (¬Cuts c x u → (turnTaken c r u).session = some y ∧ (turnTaken c r u).segPending = (u.chan c).segPending) ∧
    (Cuts c x u → u.ru.room = false → (turnTaken c r u).session = some y ∧ (turnTaken c r u).segPending = true) ∧
    (Cuts c x u → u.ru.room = true → (turnTaken c r u).segPending = false ∧
      (turnTaken c r u).session = some (nextSegment c y u) ∧
      turnRecord c u = some (endedSession u y .segment)) := by
  obtain ⟨-, -, taken⟩ := turn_of_active (r := r) active open_
  obtain ⟨record, -⟩ := record_of_active active open_
  simp only [taken, record, activeTaken, segmentRecord, cutsNow, cuts_iff_due active open_]
  refine ⟨fun off => ?_, fun due full => ?_, fun due room => ?_⟩
  · have no := Bool.eq_false_iff.2 off
    have unmarked : (u.chan c).segPending = false := by simp_all [segmentDue]
    simp [no, unmarked]
  · simp [due, full]
  · simp [due, room]

theorem nextSegment_counting (h : Finds c (framesArrived r rest s) u) (ch : Channel) :
    nextSegment c (ch.counting x) u = ⟨u.ru.nextSession, some x.number, x.subject, c, r.number, none, s.ft.floor, none,
      subjectParties s x.subject, 0, 0, none, false⟩ := by
  have same : (ch.counting x).number = x.number ∧ (ch.counting x).subject = x.subject := by
    unfold Channel.counting
    split <;> exact ⟨rfl, rfl⟩
  have parties : subjectParties u x.subject = subjectParties s x.subject := by
    rw [h.frame]
    cases x.subject <;> rfl
  unfold nextSegment newSession
  rw [same.1, same.2, parties, h.frame]
  rfl

theorem mem_turnAsks_write {es : List Event} {record : Option Session} (a : OwnAccess) (u : State) :
    a ∈ turnAsks (some a) es record u :=
  List.mem_append_left _ (List.mem_append_left _ (List.mem_singleton_self a))

theorem mem_turnAsks_record {write : Option OwnAccess} {es : List Event} (y : Session) (u : State) :
    recordWrite u y ∈ turnAsks write es (some y) u :=
  List.mem_append_right _ (List.mem_singleton_self _)

theorem recordWrite_turnOf (y : Session) :
    recordWrite (turnOf r rest s c) y = recordAt s (turnOf r rest s c).ru.produced y := by
  unfold recordWrite recordAt
  rw [(finds_turnOf r rest s c).frame]
  rfl

theorem room_turnOf (r : RecFrames) (rest : List RecFrames) (s : State) (c : ChanId) : (turnOf r rest s c).ru.room =
    decide (((turnOf r rest s c).ru.produced - s.ru.consumed).toNat < s.ru.logSize) := by
  unfold RecUnit.room
  rw [(finds_turnOf r rest s c).frame]
  rfl

theorem turnOf_chan (r : RecFrames) (rest : List RecFrames) (s : State) (c : ChanId) :
    (turnOf r rest s c).chan c = s.chan c := (finds_turnOf r rest s c).chan

section
variable (active : (s.chan c).state = .active) (open_ : (s.chan c).session = some x)
include active open_

/-- A cut segment: the record is placed and the channel goes on under a new session (R157). -/
theorem cut_framesTaken (cuts : Cuts c x (framesArrived r rest s)) (room : (turnOf r rest s c).ru.room = true) :
    ((framesTaken r rest s).chan c).segPending = false ∧
    ((framesTaken r rest s).chan c).session = some ⟨(turnOf r rest s c).ru.nextSession, some x.number, x.subject, c,
      r.number, none, s.ft.floor, none, subjectParties s x.subject, 0, 0, none, false⟩ ∧
    recordAt s (turnOf r rest s c).ru.produced { (s.chan c).counting x with
      endFrame := some r.number, endTime := some s.ft.floor, cause := some .segment } ∈ (framesTaken r rest s).pu.own := by
  have finds := finds_turnOf r rest s c
  rw [← turnOf_chan r rest s c] at active open_
  obtain ⟨-, -, cut⟩ := segment_of_active (r := r) active open_
  rw [← finds.cuts] at cuts
  obtain ⟨pending, session, record⟩ := cut cuts room
  rw [nextSegment_counting finds] at session
  refine ⟨by rw [framesTaken_chan, pending], by rw [framesTaken_chan, session], ?_⟩
  have ended : endedSession (turnOf r rest s c) (((turnOf r rest s c).chan c).counting x) .segment =
      { (s.chan c).counting x with endFrame := some r.number, endTime := some s.ft.floor, cause := some .segment } := by
    unfold endedSession
    rw [turnOf_chan, finds.frame]
    rfl
  rw [← ended, ← recordWrite_turnOf]
  refine asked_framesTaken (c := c) ?_
  rw [record]
  exact mem_turnAsks_record ..

/-- An ACTIVE channel after all turns: its frame, and what the segment test leaves of its session. -/
theorem framesTaken_of_active : (framesTaken r rest s).chan c = { framed c r x s with
    session := ((framesTaken r rest s).chan c).session, segPending := ((framesTaken r rest s).chan c).segPending } := by
  rw [← turnOf_chan r rest s c] at active open_
  obtain ⟨-, -, taken⟩ := turn_of_active (r := r) active open_
  have framed_eq : framed c r x (turnOf r rest s c) = framed c r x s := (finds_turnOf r rest s c).framed
  rw [framesTaken_chan, taken, ← framed_eq]
  rfl

theorem eventsAt_of_active : eventsAt r (framesArrived r rest s) c = frameEvents c r x s := by
  rw [← turnOf_chan r rest s c] at active open_
  obtain ⟨-, events, -⟩ := turn_of_active (r := r) active open_
  exact events.trans (finds_turnOf r rest s c).frameEvents

theorem frameWrite_framesTaken (part : (s.chan c).here.owner = .part) :
    (s.chan c).frameWrite c r x ∈ (framesTaken r rest s).pu.own := by
  refine asked_framesTaken (c := c) ?_
  obtain ⟨write, -⟩ := turn_of_active (r := r) active open_
  rw [turnOf_chan, write, Channel.writes, if_pos part]
  exact mem_turnAsks_write ..

end

/-- The close step of a DRAINING channel, and what it takes (R154). -/
theorem framesTaken_of_draining (draining : (s.chan c).state = .draining) :
    (framesTaken r rest s).chan c = (if (s.chan c).closing
      then { closeTaken c (turnOf r rest s c) with frameSeen := true } else { s.chan c with frameSeen := true }) ∧
    eventsAt r (framesArrived r rest s) c = if (s.chan c).closing then (s.chan c).finalEvents c else [] := by
  rw [framesTaken_chan, ← turnOf_chan r rest s c] at *
  obtain ⟨-, events, taken⟩ := turn_of_draining (r := r) draining
  exact ⟨taken, events⟩

theorem record_framesTaken (closing : (s.chan c).closing = true) (held : (s.chan c).closeRecord = some x)
    (room : (turnOf r rest s c).ru.room = true) :
    recordAt s (turnOf r rest s c).ru.produced x ∈ (framesTaken r rest s).pu.own := by
  obtain ⟨draining, -⟩ := (closing_iff _).1 closing
  rw [← turnOf_chan r rest s c] at draining closing held
  obtain ⟨record, -⟩ := record_of_draining draining
  rw [if_pos closing, closeRecordNow, if_pos room, held] at record
  rw [← recordWrite_turnOf]
  refine asked_framesTaken (c := c) ?_
  rw [record]
  exact mem_turnAsks_record ..

theorem turnWrite_eq (c : ChanId) (r : RecFrames) (ch : Channel) : turnWrite c r ch =
    match ch.state, ch.session, ch.here.owner with
    | .active, some x, .part => some (ch.frameWrite c r x)
    | _, _, _ => none := by
  unfold turnWrite Channel.writes
  cases ch.state with
  | free => rfl
  | draining => rfl
  | active => cases ch.session with
    | none => rfl
    | some x => cases ch.here.owner <;> rfl

end Sys2Proof.Machine

namespace Sys2Proof.Machine

variable {s t u : State} {c : ChanId} {r : RecFrames} {rest : List RecFrames} {x : Session}

/-! ## SESSION_SEGMENT (R141, R157) -/

theorem segmentWaits_iff : segmentWaits c s = true ↔ ∃ r rest x, s.ru.inbox = r :: rest ∧ (s.chan c).state = .active ∧
    (s.chan c).session = some x ∧ segmentDue s.ru.segLen r.number (s.chan c) x = true := by
  unfold segmentWaits
  split
  · next waits active open_ => simp [waits, active, open_]
  · next other =>
    refine iff_of_false Bool.false_ne_true ?_
    rintro ⟨r, rest, x, waits, active, open_, -⟩
    exact other r rest x waits active open_

theorem exec_sessionSegment (run : s.running = true) (waits : segmentWaits c s = true) :
    exec (.sessionSegment c) s = exec .recorderFrames s :=
  (inRunning_of_running _ run).trans ((congrArg _ (if_pos waits)).trans (inRunning_of_running recorderFrames run).symm)

theorem exec_sessionSegment_of_none (run : s.running = true) (off : segmentWaits c s = false) :
    exec (.sessionSegment c) s = .next s :=
  (inRunning_of_running _ run).trans (congrArg _ (if_neg (Bool.eq_false_iff.1 off)))

/-- The log has room at a channel's turn if it has room for a record of each earlier channel besides. -/
theorem room_of_fewer (room : (s.ru.produced - s.ru.consumed).toNat + c.val < s.ru.logSize) :
    (turnOf r rest s c).ru.room = true := by
  obtain ⟨placed, few, produced⟩ := (finds_turnOf r rest s c).produced
  have produced : (turnOf r rest s c).ru.produced = s.ru.produced + BitVec.ofNat 32 placed := produced
  have ahead : s.ru.produced + BitVec.ofNat 32 placed - s.ru.consumed =
      s.ru.produced - s.ru.consumed + BitVec.ofNat 32 placed := by ring
  rw [room_turnOf, produced, ahead, decide_eq_true_iff]
  refine Nat.lt_of_le_of_lt ?_ room
  calc _ ≤ (s.ru.produced - s.ru.consumed).toNat + (BitVec.ofNat 32 placed).toNat := by
        rw [BitVec.toNat_add]
        exact Nat.mod_le ..
    _ ≤ _ := Nat.add_le_add_left ((Nat.mod_le ..).trans few) _

/-! ## The frames of a frame event -/

/-- The log's produced count and the next session number, from one channel's turn to the next. -/
theorem counts_turnState (r : RecFrames) (rest : List RecFrames) (s : State) (c : ChanId) :
    let turn (k : Nat) : Word := (turnState r (framesArrived r rest s) k).ru.produced
    let next (k : Nat) : Word := (turnState r (framesArrived r rest s) k).ru.nextSession
    let room : Bool := decide ((turn c.val - s.ru.consumed).toNat < s.ru.logSize)
    (Wants c (framesArrived r rest s) → room = true → turn (c.val + 1) = turn c.val + 1) ∧
    (¬Wants c (framesArrived r rest s) ∨ room = false → turn (c.val + 1) = turn c.val) ∧
    ((∃ x, Cuts c x (framesArrived r rest s)) → room = true → next (c.val + 1) = succSession (next c.val)) ∧
    ((¬∃ x, Cuts c x (framesArrived r rest s)) ∨ room = false → next (c.val + 1) = next c.val) := by
  intro turn next room
  have finds := finds_at r (framesArrived r rest s) c
  have counts := counts_of_turn (turn_at r (framesArrived r rest s) c)
  rw [finds.wants, funext fun x => finds.cuts (x := x),
    show (turnState r (framesArrived r rest s) c.val).ru.room = room from room_turnOf ..] at counts
  exact counts

theorem framesTaken_of_idles (idle : (s.chan c).idles) :
    (framesTaken r rest s).chan c = s.chan c ∧ eventsAt r (framesArrived r rest s) c = [] := by
  rw [framesTaken_chan]
  rw [← turnOf_chan r rest s c] at idle ⊢
  obtain ⟨-, events, taken⟩ := turn_of_idles (r := r) idle
  exact ⟨taken, events⟩

section
variable (active : (s.chan c).state = .active) (open_ : (s.chan c).session = some x)
include active open_

/-- The session of an ACTIVE channel that is not cut at its turn. -/
theorem uncut_framesTaken :
    (¬Cuts c x (framesArrived r rest s) →
      ((framesTaken r rest s).chan c).session = some ((s.chan c).counting x) ∧
      ((framesTaken r rest s).chan c).segPending = (s.chan c).segPending) ∧
    (Cuts c x (framesArrived r rest s) → (turnOf r rest s c).ru.room = false →
      ((framesTaken r rest s).chan c).session = some ((s.chan c).counting x) ∧
      ((framesTaken r rest s).chan c).segPending = true) := by
  have finds := finds_turnOf r rest s c
  rw [← turnOf_chan r rest s c] at active open_ ⊢
  obtain ⟨whole, full, -⟩ := segment_of_active (r := r) active open_
  rw [framesTaken_chan, ← finds.cuts]
  exact ⟨whole, full⟩

theorem framesTaken_of_host (host : (s.chan c).here.owner = .host) :
    eventsAt r (framesArrived r rest s) c = (if (s.chan c).overflowing then [] else [.recordLoss c x.number r.number]) ∧
    (framesTaken r rest s).chan c = { s.chan c with
      session := ((framesTaken r rest s).chan c).session
      segPending := ((framesTaken r rest s).chan c).segPending
      overflowing := true } := by
  have part : ¬(s.chan c).here.owner = .part := by simp [host]
  have lost : framed c r x s = (s.chan c).losing x := if_neg part
  have chan := framesTaken_of_active (r := r) (rest := rest) active open_
  rw [lost] at chan
  exact ⟨(eventsAt_of_active active open_).trans (if_neg part), chan⟩

theorem framesTaken_of_part (part : (s.chan c).here.owner = .part)
    (space : (s.chan c).here.fill + 32 ≠ (s.chan c).here.ceil) :
    eventsAt r (framesArrived r rest s) c = [] ∧
    (framesTaken r rest s).chan c = { (s.chan c).setBuffer (s.chan c).current ((s.chan c).here.taking r.number x.number) with
      session := ((framesTaken r rest s).chan c).session
      segPending := ((framesTaken r rest s).chan c).segPending
      outstanding := (s.chan c).outstanding + 1 } := by
  have filled : framed c r x s = (s.chan c).filled r.number x := (if_pos part).trans (if_neg space)
  have chan := framesTaken_of_active (r := r) (rest := rest) active open_
  rw [filled] at chan
  exact ⟨(eventsAt_of_active active open_).trans ((if_pos part).trans (if_neg space)), chan⟩

theorem framesTaken_of_full (part : (s.chan c).here.owner = .part)
    (full : (s.chan c).here.fill + 32 = (s.chan c).here.ceil) :
    let ch := s.chan c
    let b := ch.here.taking r.number x.number
    let size := frameCount b.base b.ceil
    let waiting := waitingWrites c r x s
    eventsAt r (framesArrived r rest s) c = (if waiting = 0
      then [.recordBuffer c ch.current (b.firstSession.getD 0) (b.firstFrame.getD 0) size false] else []) ∧
    (framesTaken r rest s).chan c = { ch.setBuffer ch.current { b with owner := .host } with
      session := ((framesTaken r rest s).chan c).session
      segPending := ((framesTaken r rest s).chan c).segPending
      outstanding := ch.outstanding + 1
      current := ch.current.other
      bufEvents := if waiting = 0 then ch.bufEvents
        else ch.bufEvents ++ [⟨ch.current, b.firstSession.getD 0, b.firstFrame.getD 0, size, waiting⟩] } := by
  intro ch b size waiting
  have passed : framed c r x s = ((s.chan c).filled r.number x).passed waiting := (if_pos part).trans (if_pos full)
  have events : frameEvents c r x s = ((s.chan c).filled r.number x).fullEvents c waiting :=
    (if_pos part).trans (if_pos full)
  have chan := framesTaken_of_active (r := r) (rest := rest) active open_
  rw [passed, passed_filled] at chan
  refine ⟨(eventsAt_of_active active open_).trans (events.trans ?_), chan⟩
  simp only [Channel.fullEvents, Channel.fullEvent, Channel.filled_here, Channel.filled_current]
  rfl

end

theorem Turns.recorder {cs : List ChanId} {write : ChanId → Option OwnAccess} {ev : ChanId → List Event}
    {more : List OwnAccess} {placed : Nat} (h : Turns cs write ev more placed (framesArrived r rest s) t) :
    t.ru.inbox = rest ∧ t.ru.frameNo = r.number ∧ t.pu = { s.pu with own := s.pu.own ++ more } ∧
    t = { s with ru := { t.ru with logBase := s.ru.logBase, logSize := s.ru.logSize, consumed := s.ru.consumed,
                                   logFaults := s.ru.logFaults, segLen := s.ru.segLen },
                 cu := t.cu, pu := { s.pu with own := t.pu.own } } := by
  refine ⟨?_, ?_, ?_, ?_⟩
  · rw [h.frame]
    rfl
  · rw [h.frame]
    rfl
  · rw [h.frame, h.own]
    rfl
  · rw [h.frame]
    rfl

/-- Channel `c` after its close step, said of the state that the frames met. -/
theorem closeTaken_turnOf (r : RecFrames) (rest : List RecFrames) (s : State) (c : ChanId) :
    closeTaken c (turnOf r rest s c) = { (s.chan c).shut with
      closeDone := true
      placed := if (s.chan c).closeRecord.isSome && (turnOf r rest s c).ru.room
        then some (turnOf r rest s c).ru.produced else (s.chan c).placed } := by
  rw [closeTaken, turnOf_chan]

/-- SESSION_SEGMENT where the segment is due and the log has room for it and for all records of earlier channels. -/
theorem sessionSegment_cut (run : s.running = true) (waits : s.ru.inbox = r :: rest) (active : (s.chan c).state = .active)
    (open_ : (s.chan c).session = some x) (cuts : Cuts c x (framesArrived r rest s))
    (room : (s.ru.produced - s.ru.consumed).toNat + c.val < s.ru.logSize) :
    ∃ (t : State) (i number : Word), exec .recorderFrames s = .next t ∧ (t.chan c).segPending = false ∧
      (t.chan c).state = .active ∧
      (t.chan c).session = some ⟨number, some x.number, x.subject, c, r.number, none, s.ft.floor, none,
        subjectParties s x.subject, 0, 0, none, false⟩ ∧
      recordAt s i { (s.chan c).counting x with
        endFrame := some r.number, endTime := some s.ft.floor, cause := some .segment } ∈ t.pu.own := by
  obtain ⟨pending, session, placed⟩ := cut_framesTaken active open_ cuts (room_of_fewer room)
  have state := congrArg Channel.state (framesTaken_of_active (r := r) (rest := rest) active open_)
  exact ⟨framesTaken r rest s, _, _, exec_recorderFrames run waits, pending,
    state.trans ((framed_state c r x s).trans active), session, placed⟩

/-- Settles O53: the channels take their turns one after the other (`turns_framesTaken`), and each turn is known by the
channel's state. -/
theorem recorderFramesAndSegments : Obligations.RecorderFramesAndSegments := by
  refine ⟨fun r rest s run waits => ?_, fun c s run => ?_⟩
  · intro n room cuts closing wants recordAt_ parties written
    obtain ⟨more, placed, all⟩ := turns_framesTaken r rest s
    obtain ⟨inbox, frameNo, asked, frame⟩ := all.recorder
    have room_eq (c : ChanId) : (turnOf r rest s c).ru.room = room (turnOf r rest s c).ru.produced := room_turnOf ..
    refine ⟨framesTaken r rest s, fun k => (turnState r (framesArrived r rest s) k).ru.produced,
      fun k => (turnState r (framesArrived r rest s) k).ru.nextSession, eventsAt r (framesArrived r rest s), more, placed,
      exec_recorderFrames run waits, inbox, frameNo, all.unit, asked, ?_, all.records, ?_, all.produced, all.slots,
      all.sorts, ⟨rfl, by rw [framesTaken], rfl, by rw [framesTaken]⟩, counts_turnState r rest s,
      fun c => framesTaken_of_idles, fun c x active open_ => ?_, fun c draining => ?_, frame⟩
    · rw [all.frames]
      exact List.filterMap_congr fun c _ => turnWrite_eq c r (s.chan c)
    · exact all.few.trans (List.length_finRange ..).le
    · intro ch b b' first size asked waiting y
      have uncut := uncut_framesTaken (r := r) (rest := rest) active open_
      have cut := cut_framesTaken (r := r) (rest := rest) active open_
      rw [room_eq] at uncut cut
      refine ⟨uncut.1, uncut.2, cut, framesTaken_of_host active open_, fun part =>
        ⟨frameWrite_framesTaken active open_ part, framesTaken_of_part active open_ part,
          framesTaken_of_full active open_ part⟩⟩
    · intro ch b short
      obtain ⟨chan, events⟩ := framesTaken_of_draining (r := r) (rest := rest) draining
      refine ⟨fun off => ?_, fun on => ?_⟩
      · have off : ¬(s.chan c).closing = true := mt (closing_iff _).1 off
        rw [if_neg off] at chan events
        exact ⟨chan, events⟩
      · have on : (s.chan c).closing = true := (closing_iff _).2 on
        rw [if_pos on] at chan events
        rw [closeTaken_turnOf, room_eq] at chan
        refine ⟨chan, events, fun x held space => record_framesTaken on held ?_⟩
        rw [room_eq]
        exact space
  · intro due
    refine ⟨fun none_ => exec_sessionSegment_of_none run (Bool.eq_false_iff.2 fun is => ?_),
      fun r rest x waits active open_ now => ?_⟩
    · obtain ⟨r, rest, x, waits, active, open_, now⟩ := segmentWaits_iff.1 is
      exact none_ r rest x waits active open_ (segmentDue_iff.1 now)
    · have is : exec (.sessionSegment c) s = exec .recorderFrames s :=
        exec_sessionSegment run (segmentWaits_iff.2 ⟨r, rest, x, waits, active, open_, segmentDue_iff.2 now⟩)
      refine ⟨is, fun room => ?_⟩
      obtain ⟨t, i, number, act, pending, still, session, placed⟩ :=
        sessionSegment_cut run waits active open_ ⟨active, open_, now⟩ room
      exact ⟨t, subjectParties s x.subject, i, number, is.trans act, fun l line => by rw [line]; rfl,
        fun g group => by rw [group]; rfl, pending, still, session, placed⟩

end Sys2Proof.Machine

namespace Sys2Proof.Machine

/-! # Sessions, and the commands of the recorder (R145 to R148, R152, R153) -/

theorem openSession_onlyChan (c : ChanId) (x : Subject) (ps : List PosId) (s : State) : OnlyChan c s (openSession c x ps s) :=
  (chanStep_modChan ..).others

theorem openSession_chan_self (c : ChanId) (x : Subject) (ps : List PosId) (s : State) :
    (openSession c x ps s).chan c = { s.chan c with
      state := .active, subject := some x, overflowing := false, segPending := false, current := (s.chan c).startBuf
      session := some (newSession s c x none ps), closeRecord := none, closeDone := false, frameSeen := false
      placed := none } := modChan_chan_self ..

/-- Settles O22: the channel that is found takes the session; the record of a party or of an end is that channel's alone. -/
theorem sessionsOpenAndEnd : Obligations.SessionsOpenAndEnd := by
  refine ⟨fun x ps c s low => ?_, fun x ps s none_ => allocate_of_noneFree none_ x ps, fun c p x s open_ => ?_,
    fun c cause x s open_ => ?_⟩
  · exact ⟨_, allocate_of_lowest low x ps, openSession_chan_self .., openSession_onlyChan c x ps s, rfl, rfl⟩
  · refine ⟨?_, (chanStep_modChan ..).others, rfl⟩
    rw [partyArrival, modChan_chan_self, open_]
    rfl
  · intro t
    have ended : t = s.modChan c fun ch => ch.drained x cause s := sessionEnd_of_some s open_ cause
    exact ⟨by rw [ended, modChan_chan_self]; rfl, sessionEnd_onlyChan s c cause, by rw [ended]; rfl⟩

/-! ## RECORDER_SET and RECORD_RETURN (R146, R152) -/

theorem recorderSet_of_ok {baseA ceilA baseB ceilB : Addr} (okA : bufferOk baseA ceilA = true)
    (okB : bufferOk baseB ceilB = true) (k : ChanId) (s : State) : recorderSet (finByte k) baseA ceilA baseB ceilB s =
      if (s.chan k).state = .free then (setBuffers k baseA ceilA baseB ceilB s, .ok) else (s, .busy) := by
  simp only [recorderSet, idArg_finByte_chan, okA, okB, Bool.and_self, if_true]

theorem recordReturn_of_args (k : ChanId) (b : Buf) (s : State) : recordReturn (finByte k) b.code s =
    if ((s.chan k).buffer b).owner = .part then (s, .ok) else (s.modChan k (returnBuffer b), .ok) := by
  simp only [recordReturn, idArg_finByte_chan, bufArg_code]

/-- A command that moves one recorder channel and completes. -/
theorem answers_modChan (s : State) (k : ChanId) (f : Channel → Channel) (st : Status) :
    Answers [] st s (complete st (s.modChan k f)) ∧ OnlyChan k s (complete st (s.modChan k f)) ∧
    (complete st (s.modChan k f)).chan k = f (s.chan k) :=
  ⟨(Posts.of_eq (s := s) (t := s.modChan k f) rfl rfl fun _ => rfl).answers st, (chanStep_modChan k f s).others,
    modChan_chan_self ..⟩

/-- An empty buffer of the part's, where `x` was. -/
def Buffer.emptied (x : Buffer) : Buffer := { x with owner := .part, fill := x.base, firstFrame := none, firstSession := none }

theorem returnBuffer_eq (b : Buf) (ch : Channel) : returnBuffer b ch =
    if ch.here.owner = .host then { ch.setBuffer b (ch.buffer b).emptied with current := b, overflowing := false }
    else ch.setBuffer b (ch.buffer b).emptied := rfl

theorem returnBuffer_buffers (b : Buf) (ch : Channel) : (returnBuffer b ch).buffer b = (ch.buffer b).emptied ∧
    (returnBuffer b ch).buffer b.other = ch.buffer b.other := by
  rw [returnBuffer_eq]
  cases b <;> split <;> exact ⟨rfl, rfl⟩

theorem returnBuffer_current (b : Buf) (ch : Channel) :
    (ch.here.owner = .host → (returnBuffer b ch).current = b ∧ (returnBuffer b ch).overflowing = false) ∧
    (ch.here.owner = .part → (returnBuffer b ch).current = ch.current ∧ (returnBuffer b ch).overflowing = ch.overflowing) := by
  rw [returnBuffer_eq]
  refine ⟨fun host => ?_, fun part => ?_⟩
  · rw [if_pos host]; exact ⟨rfl, rfl⟩
  · rw [if_neg (by simp [part])]; cases b <;> exact ⟨rfl, rfl⟩

/-- Only the buffers, the current one and the mark of an overflow can have moved. -/
theorem returnBuffer_frame (b : Buf) (ch : Channel) : returnBuffer b ch = { ch with
    bufA := (returnBuffer b ch).bufA, bufB := (returnBuffer b ch).bufB, current := (returnBuffer b ch).current,
    overflowing := (returnBuffer b ch).overflowing } := by
  rw [returnBuffer_eq]
  cases b <;> split <;> rfl

/-- Settles O35: RECORDER_SET by the channel's state, RECORD_RETURN by the buffer's owner. -/
theorem recorderCommandsSetBuffers : Obligations.RecorderCommandsSetBuffers := by
  refine ⟨fun k baseA ceilA baseB ceilB s => ?_, fun k b s => ?_⟩
  · intro c holds baseA_at ceilA_at sizeA baseB_at ceilB_at sizeB
    have act := recorderSet_of_ok (bufferOk_iff.2 ⟨baseA_at, ceilA_at, sizeA⟩) (bufferOk_iff.2 ⟨baseB_at, ceilB_at, sizeB⟩) k s
    refine ⟨fun used => onlyAnswers_of_eq s (runCommand_next holds (act.trans (if_neg used))), fun free => ?_⟩
    obtain ⟨answers, others, chan⟩ := answers_modChan s k
      (fun ch => { ch with bufA := .fresh baseA ceilA, bufB := .fresh baseB ceilB, current := .bufA }) .ok
    exact ⟨_, runCommand_next holds (act.trans (if_pos free)), answers, others, chan, rfl⟩
  · intro c ch holds
    have act := recordReturn_of_args k b s
    refine ⟨fun part => onlyAnswers_of_eq s (runCommand_next holds (act.trans (if_pos part))), fun host => ?_⟩
    obtain ⟨answers, others, chan⟩ := answers_modChan s k (returnBuffer b) .ok
    obtain ⟨this_, other⟩ := returnBuffer_buffers b ch
    obtain ⟨taken, kept⟩ := returnBuffer_current b ch
    refine ⟨_, runCommand_next holds (act.trans (if_neg (host.trans_ne (by decide)))), answers, others, ?_⟩
    rw [chan]
    exact ⟨this_, other, taken, kept, returnBuffer_frame b ch, rfl⟩

end Sys2Proof.Machine

namespace Sys2Proof.Machine

variable {s t u v : State} {c : ChanId} {ch ch' : Channel} {l : LineId} {g : GroupId} {p : PosId}

/-! # The law of the recorder channels is kept (R143)

The law speaks of each channel alone. A step keeps it if every channel that meets it goes on to meet it. -/

/-! ## One channel -/

/-- What the law reads of a channel's record. -/
def Channel.outline (ch : Channel) : ChanState × Bool × Bool × Bool × Bool :=
  (ch.state, ch.session.isSome, ch.closeRecord.isSome, ch.subject.isSome, ch.segPending)

theorem ChannelLaw.of_outline (law : ChannelLaw ch) (same : ch'.outline = ch.outline) : ChannelLaw ch' := by
  simp only [Channel.outline, Prod.mk.injEq] at same
  obtain ⟨state, session, record, subject, pending⟩ := same
  exact ⟨by rw [session, state]; exact law.session, by rw [record, state]; exact law.closeRecord,
    by rw [subject, state]; exact law.subject, by rw [pending, state]; exact law.pendingSegment⟩

/-- A FREE channel holds nothing. -/
theorem ChannelLaw.of_free (state : ch.state = .free) (session : ch.session = none) (record : ch.closeRecord = none)
    (subject : ch.subject = none) (pending : ch.segPending = false) : ChannelLaw ch := by
  constructor <;> simp [state, session, record, subject, pending]

/-- An ACTIVE channel holds a session and its subject. -/
theorem ChannelLaw.of_active (state : ch.state = .active) (session : ch.session.isSome = true)
    (record : ch.closeRecord = none) (subject : ch.subject.isSome = true) : ChannelLaw ch := by
  constructor <;> simp [state, session, record, subject]

/-- A DRAINING channel holds a close record and its subject. -/
theorem ChannelLaw.of_draining (state : ch.state = .draining) (session : ch.session = none)
    (record : ch.closeRecord.isSome = true) (subject : ch.subject.isSome = true) (pending : ch.segPending = false) :
    ChannelLaw ch := by
  constructor <;> simp [state, session, record, subject, pending]

theorem ChannelLaw.closeRecord_eq_none (law : ChannelLaw ch) (off : ch.state ≠ .draining) : ch.closeRecord = none :=
  Option.not_isSome_iff_eq_none.1 (mt law.closeRecord.1 off)

theorem ChannelLaw.segPending_eq_false (law : ChannelLaw ch) (off : ch.state ≠ .active) : ch.segPending = false :=
  Bool.eq_false_iff.2 (mt law.pendingSegment off)

@[simp] theorem setBuffer_outline (ch : Channel) (b : Buf) (y : Buffer) : (ch.setBuffer b y).outline = ch.outline := by
  cases b <;> rfl

theorem returnBuffer_outline (b : Buf) (ch : Channel) : (returnBuffer b ch).outline = ch.outline := by
  unfold returnBuffer
  dsimp only
  split
  · exact setBuffer_outline ..
  · exact setBuffer_outline ..

theorem shut_outline (ch : Channel) : ch.shut.outline = ch.outline := by
  unfold Channel.shut
  split
  · exact setBuffer_outline ..
  · rfl

theorem returned_outline (b : Buf) (n number : Word) (error : Bool) (ch : Channel) :
    (ch.returned b n number error).outline = ch.outline := by
  simp only [Channel.outline, Channel.returned, Option.isSome_map, apply_ite Option.isSome, ite_self]

/-! ## The whole unit -/

/-- Every recorder channel that meets its law goes on to meet it. -/
structure KeepsChannels (s t : State) : Prop where
  channel : ∀ c : ChanId, ChannelLaw (s.chan c) → ChannelLaw (t.chan c)

theorem KeepsChannels.law (keep : KeepsChannels s t) (law : RecorderLaw s) : RecorderLaw t :=
  fun c => keep.channel c (law c)

theorem KeepsChannels.refl (s : State) : KeepsChannels s s := ⟨fun _ => id⟩

theorem KeepsChannels.trans (a : KeepsChannels s t) (b : KeepsChannels t u) : KeepsChannels s u :=
  ⟨fun c law => b.channel c (a.channel c law)⟩

theorem KeepsChannels.of_eq (same : t.ru.channels = s.ru.channels := by simp) : KeepsChannels s t :=
  ⟨fun c law => by rwa [State.chan, same]⟩

theorem KeepsChannels.of_outline (same : ∀ c, (t.chan c).outline = (s.chan c).outline) : KeepsChannels s t :=
  ⟨fun c law => law.of_outline (same c)⟩

theorem KeepsChannels.of_onlyChan (others : OnlyChan c s t) (one : ChannelLaw (s.chan c) → ChannelLaw (t.chan c)) :
    KeepsChannels s t := by
  refine ⟨fun d law => ?_⟩
  by_cases e : d = c
  · subst e; exact one law
  · rwa [others d e]

theorem KeepsChannels.foldl {α : Type} {f : State → α → State} (step : ∀ s a, KeepsChannels s (f s a)) (as : List α) :
    ∀ s, KeepsChannels s (as.foldl f s) := by
  induction as with
  | nil => exact .refl
  | cons a as ih => exact fun s => (step s a).trans (ih (f s a))

theorem keepsChannels_modChan {f : Channel → Channel} (one : ChannelLaw (s.chan c) → ChannelLaw (f (s.chan c))) :
    KeepsChannels s (s.modChan c f) :=
  .of_onlyChan (chanStep_modChan c f s).others (by rwa [modChan_chan_self])

/-! ## Sessions (R147, R148, R153, R159) -/

theorem keepsChannels_openSession (c : ChanId) (x : Subject) (ps : List PosId) (s : State) :
    KeepsChannels s (openSession c x ps s) :=
  .of_onlyChan (openSession_onlyChan c x ps s) fun _ => by
    rw [openSession_chan_self]; exact .of_active rfl rfl rfl rfl

theorem keepsChannels_allocate {x : Subject} {ps : List PosId} (given : allocate x ps s = some (c, u)) :
    KeepsChannels s u := by
  obtain ⟨d, -, e⟩ := Option.map_eq_some_iff.1 given
  cases e
  exact keepsChannels_openSession ..

theorem keepsChannels_partyArrival (c : ChanId) (p : PosId) (s : State) : KeepsChannels s (partyArrival c p s) :=
  keepsChannels_modChan fun law => law.of_outline (by simp [Channel.outline])

theorem keepsChannels_sessionEnd (c : ChanId) (cause : SessionCause) (s : State) : KeepsChannels s (sessionEnd c cause s) := by
  cases open_ : (s.chan c).session with
  | none => rw [sessionEnd_of_none s open_]; exact .refl s
  | some x =>
    rw [sessionEnd_of_some s open_]
    refine keepsChannels_modChan fun law => ?_
    have active : (s.chan c).state = .active := law.session.1 (by rw [open_]; rfl)
    exact .of_draining rfl rfl rfl (law.subject.2 (active.trans_ne (by decide))) rfl

theorem keepsChannels_markStepped (s : State) : KeepsChannels s (markStepped s) := .of_outline fun c => by
  have chan : (markStepped s).chan c = if (s.chan c).state = .active
      then { s.chan c with session := (s.chan c).session.map fun x => { x with timeStepped := true } } else s.chan c :=
    Table.get_map ..
  rw [chan]
  split
  · simp [Channel.outline]
  · rfl

/-! ## The Recording Log (R155, R156) -/

theorem keepsChannels_placeHeld (c : ChanId) (s : State) : KeepsChannels s (placeHeld c s) :=
  .of_onlyChan (ChanStep.refl c s).turn.placeHeld.others fun law => law.of_outline (by rw [placeHeld_chan]; rfl)

theorem keepsChannels_placeWaiting (s : State) : KeepsChannels s (placeWaiting s) :=
  .foldl (fun s c => by split; exacts [keepsChannels_placeHeld c s, .refl s]) _ s

theorem keepsChannels_freeWritten (count : Word) (s : State) : KeepsChannels s (freeWritten count s) := by
  refine ⟨fun c law => ?_⟩
  rw [freeWritten_chan]
  split
  · next drains =>
    have idle : (s.chan c).state ≠ .active := drains.1.trans_ne (by decide)
    exact .of_free rfl (Option.not_isSome_iff_eq_none.1 (mt law.session.1 idle)) rfl rfl (law.segPending_eq_false idle)
  · exact law

theorem keepsChannels_logConsumed (n : Word) (s : State) : KeepsChannels s (logConsumed n s) := by
  unfold logConsumed
  split
  · exact .of_eq rfl
  · exact .trans (t := { s with ru := { s.ru with consumed := n } }) (.of_eq rfl) (keepsChannels_placeWaiting _)

/-! ## Frames (R149 to R151, R154, R157) -/

@[simp] theorem setBuffer_closeRecord (ch : Channel) (b : Buf) (y : Buffer) :
    (ch.setBuffer b y).closeRecord = ch.closeRecord := by cases b <;> rfl
@[simp] theorem setBuffer_subject (ch : Channel) (b : Buf) (y : Buffer) : (ch.setBuffer b y).subject = ch.subject := by
  cases b <;> rfl

theorem framed_closeRecord (c : ChanId) (r : RecFrames) (x : Session) (s : State) :
    (framed c r x s).closeRecord = (s.chan c).closeRecord := by
  unfold framed
  split_ifs <;> simp [Channel.passed, Channel.filled, Channel.losing]

theorem framed_subject (c : ChanId) (r : RecFrames) (x : Session) (s : State) :
    (framed c r x s).subject = (s.chan c).subject := by
  unfold framed
  split_ifs <;> simp [Channel.passed, Channel.filled, Channel.losing]

theorem closeTaken_outline (c : ChanId) (s : State) : (closeTaken c s).outline = (s.chan c).outline :=
  shut_outline (s.chan c)

theorem turnTaken_law (c : ChanId) (r : RecFrames) (s : State) (law : ChannelLaw (s.chan c)) :
    ChannelLaw (turnTaken c r s) := by
  rcases channel_cases (s.chan c) with idle | ⟨x, active, open_⟩ | draining
  · obtain ⟨-, -, taken⟩ := turn_of_idles (r := r) idle
    rwa [taken]
  · obtain ⟨-, -, taken⟩ := turn_of_active (r := r) active open_
    have record := law.closeRecord_eq_none (active.trans_ne (by decide))
    have subject := law.subject.2 (active.trans_ne (by decide))
    rw [taken]
    exact .of_active ((framed_state ..).trans active) rfl ((framed_closeRecord ..).trans record)
      ((congrArg Option.isSome (framed_subject c r x s)).trans subject)
  · obtain ⟨-, -, taken⟩ := turn_of_draining (r := r) draining
    rw [taken]
    split
    · exact law.of_outline (closeTaken_outline c s)
    · exact law.of_outline rfl

theorem keepsChannels_takeFrames (r : RecFrames) (s : State) : KeepsChannels s (takeFrames r s) := by
  have turn (s : State) (c : ChanId) : KeepsChannels s (takeChannelFrame r.number r.frames c s) :=
    .of_onlyChan (takeChannelFrame_turn c r s).others fun law => by rw [takeChannelFrame_chan]; exact turnTaken_law c r s law
  exact .trans (t := { s with ru := { s.ru with frameNo := r.number } }) (.of_eq rfl) (.foldl turn _ _)

theorem keepsChannels_recorderFrames (s : State) : KeepsChannels s (recorderFrames s) := by
  unfold recorderFrames
  split
  · exact .refl s
  · next r rest _ =>
    exact .trans (t := { s with ru := { s.ru with inbox := rest } }) (.of_eq rfl) (keepsChannels_takeFrames ..)

theorem keepsChannels_sessionSegment (c : ChanId) (s : State) : KeepsChannels s (sessionSegment c s) := by
  unfold sessionSegment
  split
  · exact keepsChannels_recorderFrames s
  · exact .refl s

theorem keepsChannels_closeStep (c : ChanId) (s : State) : KeepsChannels s (closeStep c s) :=
  .of_onlyChan (closeStep_turn (ChanStep.refl c s)).others fun law =>
    law.of_outline (by rw [closeStep_chan, closeTaken_outline])

theorem keepsChannels_frameReturned (c : ChanId) (b : Buf) (n number : Word) (error : Bool) (s : State) :
    KeepsChannels s (frameReturned c b n number error s) := by
  have taken : KeepsChannels s (responseTaken c b n number error s) :=
    .of_onlyChan (responseTaken_step c b n number error s).others fun law =>
      law.of_outline (by rw [responseTaken_chan, returned_outline])
  rw [frameReturned_eq]
  split
  · exact taken.trans (keepsChannels_closeStep ..)
  · exact taken

/-! ## Responses (R126) -/

theorem takeFlight_ru {which : Purpose → Bool} {k : Nat} {a : OwnAccess} (back : takeFlight which k s = some (a, u)) :
    u.ru = s.ru := by
  unfold takeFlight at back
  split at back <;> cases back
  rfl

/-- A response whose access is taken out of flight, and its fault told. -/
theorem keepsChannels_faulted {which : Purpose → Bool} {k : Nat} {a : OwnAccess}
    (back : takeFlight which k s = some (a, u)) (error : Bool) : KeepsChannels s (faultIf error a u) :=
  .of_eq (by rw [faultIf_ru, takeFlight_ru back])

theorem keepsChannels_frameWriteResponse (k : Nat) (error : Bool) (s : State) :
    KeepsChannels s (frameWriteResponse k error s) := by
  unfold frameWriteResponse
  split
  · exact .refl s
  · next back =>
    split
    · exact (keepsChannels_faulted back error).trans (keepsChannels_frameReturned ..)
    · exact .refl s

theorem keepsChannels_logWriteResponse (k : Nat) (error : Bool) (s : State) :
    KeepsChannels s (logWriteResponse k error s) := by
  unfold logWriteResponse
  split
  · exact .refl s
  · next back =>
    have told := keepsChannels_faulted back error
    dsimp only
    split
    · split
      · exact told.trans (.of_eq rfl)
      · exact told
    · exact told.trans (keepsChannels_freeWritten ..)
    · exact .refl s

end Sys2Proof.Machine

namespace Sys2Proof.Machine

variable {s t u v : State} {l : LineId} {g : GroupId} {p : PosId} {k : Nat} {error : Bool}

/-! # The steps that leave the Recorder Unit alone -/

/-! ## Responses -/

theorem controlWordWriteResponse_ru (k : Nat) (error : Bool) (s : State) : (controlWordWriteResponse k error s).ru = s.ru := by
  unfold controlWordWriteResponse
  split
  · rfl
  · next back => exact (faultIf_ru ..).trans (takeFlight_ru back)

theorem indexWordWriteResponse_ru (k : Nat) (error : Bool) (s : State) : (indexWordWriteResponse k error s).ru = s.ru := by
  unfold indexWordWriteResponse
  split
  · rfl
  · next back => exact (faultIf_ru ..).trans (takeFlight_ru back)

theorem execStatusWordWriteResponse_ru (next : execStatusWordWriteResponse k error s = .next t) : t.ru = s.ru := by
  unfold execStatusWordWriteResponse at next
  split at next <;> cases next
  · rfl
  · next back => exact (faultIf_ru ..).trans (takeFlight_ru back)

theorem snapshotWriteResponse_ru (k : Nat) (error : Bool) (s : State) : (snapshotWriteResponse k error s).ru = s.ru := by
  unfold snapshotWriteResponse
  split
  · rfl
  · next back =>
    unfold snapshotReturned
    dsimp only
    split <;> simp [takeFlight_ru back]

theorem eventWriteResponse_ru (k : Nat) (error : Bool) (s : State) : (eventWriteResponse k error s).ru = s.ru := by
  unfold eventWriteResponse
  split
  · rfl
  · next back =>
    dsimp only
    split <;> simp [requestEventWord, takeFlight_ru back]

theorem fetched_ru (a : OwnAccess) (error : Bool) (bs : List Byte) (s : State) : (fetched a error bs s).ru = s.ru := by
  unfold fetched
  dsimp only
  split
  · simp [setCurrent]
  · split
    · simp [setCurrent]
    · rfl

theorem commandFetchResponse_ru (error : Bool) (slot : Table 32 Byte) (s : State) :
    (commandFetchResponse error slot s).ru = s.ru := by
  unfold commandFetchResponse
  split
  · rfl
  · next back =>
    split
    · exact (fetched_ru ..).trans (takeFlight_ru back)
    · exact takeFlight_ru back

/-! ## The Command and Event Unit -/

theorem commandPost_ru (n : Word) (s : State) : (commandPost n s).ru = s.ru := by unfold commandPost; split <;> simp
theorem commandFetch_ru (s : State) : (commandFetch s).ru = s.ru := by unfold commandFetch; split <;> simp
theorem eventConsumed_ru (n : Word) (s : State) : (eventConsumed n s).ru = s.ru := by unfold eventConsumed; split <;> simp

theorem writeSnapshot_ru (target : Addr) (bs : List Byte) (s : State) : (writeSnapshot target bs s).ru = s.ru :=
  foldl_keeps (·.ru) (fun s (b : List Byte × Nat) =>
    requestOwn .snapshot (target + BitVec.ofNat 36 (Config.burstBytes * b.2)) b.1 s) (fun _ _ => rfl) (burstsOf bs).zipIdx s

/-- A QUERY clears a counter of the Recorder Unit at most. -/
theorem execQuery_channels {kind index clear : Byte} {target : Addr} (next : execQuery kind index clear target s = .next t) :
    t.ru.channels = s.ru.channels := by
  unfold execQuery at next
  split at next
  · split at next <;> cases next
    · simp
    · next item c _ =>
      unfold takeSnapshot
      dsimp only
      rw [writeSnapshot_ru]
      split
      · cases item <;> rfl
      · rfl
  · cases next; rfl

/-! ## The Frame Timer and the Mixing Engine -/

theorem frameInPulse_ru (n : Nat) (s : State) : (frameInPulse n s).ru = s.ru := by
  unfold frameInPulse
  dsimp only
  split
  · rfl
  · rfl
  · split
    · rfl
    · split_ifs <;> rfl

theorem pulseWatchExpiry_ru (s : State) : (pulseWatchExpiry s).ru = s.ru := by
  unfold pulseWatchExpiry
  split
  · rfl
  · dsimp only
    split <;> rfl

theorem freewheelExpiry_ru (s : State) : (freewheelExpiry s).ru = s.ru := by unfold freewheelExpiry; split <;> rfl

/-- The Mixing Engine hands the Recorder Unit its frames, and moves no channel. -/
theorem frameEventMix_channels (s : State) : (frameEventMix s).ru.channels = s.ru.channels := by
  unfold frameEventMix; split <;> rfl

/-! ## The path unit -/

theorem captureBeat_ru (bytes : List (Nat × Byte)) (s : State) : (captureBeat bytes s).ru = s.ru := by
  unfold captureBeat
  split
  · rfl
  · split
    · unfold assemble; dsimp only; split <;> rfl
    · rfl

theorem execUpstreamWrite_ru {x : WriteTxn} (next : execUpstreamWrite x s = .next t) : t.ru = s.ru := by
  unfold execUpstreamWrite at next
  split at next <;> cases next
  exact (foldl_keeps (·.ru) (fun s b => captureBeat b s) (fun s b => captureBeat_ru b s) (txnBytes x) (forward (.write x) s) :)

theorem execUpstreamRead_ru {b : Burst} (next : execUpstreamRead b s = .next t) : t.ru = s.ru := by
  unfold execUpstreamRead at next
  split at next <;> cases next
  unfold acceptRead
  split <;> rfl

theorem grantOwn_ru (a : OwnAccess) (s : State) : (grantOwn a s).ru = s.ru := by
  unfold grantOwn clearMark
  dsimp only
  split <;> rfl

theorem execDownstreamGrant_ru (next : execDownstreamGrant s = .next t) : t.ru = s.ru := by
  unfold execDownstreamGrant at next
  split at next
  · cases next; rfl
  · cases next; exact grantOwn_ru ..
  · cases next; rfl
  · split at next <;> cases next
    · rfl
    · exact grantOwn_ru ..

theorem execPassThroughResponse_ru {resp : Resp} {data : List (BitVec 64)}
    (next : execPassThroughResponse k resp data s = .next t) : t.ru = s.ru := by
  unfold execPassThroughResponse at next
  split at next <;> cases next <;> rfl

/-! ## Settings, lines and rings -/

theorem handsetSet_ru (pos side volume micPad : Byte) (s : State) : (handsetSet pos side volume micPad s).1.ru = s.ru := by
  unfold handsetSet; split <;> rfl

theorem positionSet_ru (pos micPad duck ringLevel recallLevel supervisor : Byte) (s : State) :
    (positionSet pos micPad duck ringLevel recallLevel supervisor s).1.ru = s.ru := by
  unfold positionSet; split <;> rfl

theorem speakerSet_ru (pos chan kind subject flags volume : Byte) (s : State) :
    (speakerSet pos chan kind subject flags volume s).1.ru = s.ru := by
  unfold speakerSet
  split
  · rfl
  · dsimp only
    split
    · rfl
    · split <;> rfl
  · rfl

theorem lineSet_ru (line type pad preferred ringDelay policy : Byte) (recallTime : Half) (s : State) :
    (lineSet line type pad preferred ringDelay policy recallTime s).1.ru = s.ru := by
  unfold lineSet
  split
  · split <;> simp
  · rfl

theorem appearSet_ru (pos key line : Byte) (s : State) : (appearSet pos key line s).1.ru = s.ru := by
  unfold appearSet
  split
  · next p k new _ _ _ =>
    dsimp only
    split_ifs
    iterate 3 rfl
    cases (s.map p).get k <;> cases new <;> simp
  · rfl

theorem hold_ru (pos side : Byte) (s : State) : (hold pos side s).1.ru = s.ru := by
  unfold hold
  split
  · rfl
  · split
    · rfl
    · exact setLineState_ru ..

theorem privacy_ru (pos side value : Byte) (s : State) : (privacy pos side value s).1.ru = s.ru := by
  unfold privacy
  split
  · rfl
  · split <;> rfl

theorem holdRecallExpiry_ru (l : LineId) (s : State) : (holdRecallExpiry l s).ru = s.ru := by
  unfold holdRecallExpiry
  dsimp only
  split
  · split <;> simp
  · rfl

theorem ringDelayExpiry_ru (l : LineId) (s : State) : (ringDelayExpiry l s).ru = s.ru := by
  unfold ringDelayExpiry
  split
  · rfl
  · split
    · split <;> simp
    · rfl

theorem queueTimeoutExpiry_ru (g : GroupId) (s : State) : (queueTimeoutExpiry g s).ru = s.ru := by
  unfold queueTimeoutExpiry; split <;> simp

end Sys2Proof.Machine

namespace Sys2Proof.Machine

variable {s t u v : State} {l : LineId} {g : GroupId} {p : PosId} {k : Nat} {error : Bool}

/-! # The steps that reach the recorder channels -/

/-! ## Lines (R3, R13 to R16, R22, R23) -/

/-- A step in which the Recorder Unit ends a session, or does nothing. -/
theorem KeepsChannels.of_ended {recorder : Option ChanId} {cause : SessionCause} (ru : t.ru = ruAfterEnd s recorder cause) :
    KeepsChannels s t := by
  cases recorder with
  | none => exact .of_eq (congrArg RecUnit.channels ru)
  | some c => exact (keepsChannels_sessionEnd c cause s).trans (.of_eq (congrArg RecUnit.channels ru))

theorem keepsChannels_clearLine (l : LineId) (cause : LineCause) (st : LineState) (s : State) :
    KeepsChannels s (clearLine l cause st s) :=
  .of_ended (by rw [clearLine_eq, levelRule_ru, clearedLine_ru])

theorem keepsChannels_farEndChange (l : LineId) (far : Hook) (s : State) : KeepsChannels s (farEndChange l far s) := by
  have posted : KeepsChannels s (post (.farEnd l far) s) := .of_eq
  unfold farEndChange
  dsimp only
  split
  · exact posted.trans (keepsChannels_clearLine ..)
  · exact posted

theorem ringChange_ru (l : LineId) (ind : RingInd) (s : State) : (ringChange l ind s).ru = s.ru := by
  unfold ringChange
  dsimp only
  split
  · rfl
  · split
    · exact enterRinging_ru ..
    · split
      · rfl
      · simp [abandonRing]
    · rfl

theorem keepsChannels_signalWord (l : LineId) (w : Word) (s : State) : KeepsChannels s (signalWord l w s) := by
  have stored : KeepsChannels s (s.modLine l fun r => { r with farEnd := wordFarEnd w, ringInd := wordRing w }) := .of_eq
  have told := stored.trans (keepsChannels_farEndChange l (wordFarEnd w) _)
  have rung (v : State) : KeepsChannels v (ringChange l (wordRing w) v) := .of_eq (by rw [ringChange_ru])
  unfold signalWord
  dsimp only
  split_ifs
  · exact .refl s
  · exact stored
  · exact stored
  · exact told
  · exact stored.trans (rung _)
  · exact told.trans (rung _)

theorem keepsChannels_recorderCheck {st : Status} (check : recorderCheck l p s = some (v, st)) : KeepsChannels s v := by
  have given {c : ChanId} {x : State} (a : allocate (.line l) [p] s = some (c, x)) :
      KeepsChannels s (x.modLine l fun r => { r with recorder := some c }) := (keepsChannels_allocate a).trans (.of_eq rfl)
  unfold recorderCheck at check
  split at check
  · cases check; exact .refl s
  · split at check <;> cases check
    · next a => exact given a
    · exact .refl s
  · split at check <;> cases check
    next a => exact given a

theorem keepsChannels_lineParty (l : LineId) (p : PosId) (s : State) : KeepsChannels s (lineParty l p s) := by
  unfold lineParty
  split
  · exact .refl s
  · exact keepsChannels_partyArrival ..

theorem keepsChannels_takeLine (h : Handset) (l : LineId) (cause : LineCause) (s : State) :
    KeepsChannels s (takeLine h l cause s) := .of_eq (by rw [takeLine_ru])

theorem keepsChannels_seizeIdle (h : Handset) (l : LineId) (s : State) : KeepsChannels s (seizeIdle h l s).1 := by
  unfold seizeIdle
  split
  · exact .refl s
  · next check => exact (keepsChannels_recorderCheck check).trans (keepsChannels_takeLine ..)

theorem keepsChannels_seizeRinging (h : Handset) (l : LineId) (s : State) : KeepsChannels s (seizeRinging h l s).1 := by
  have ended (v : State) : KeepsChannels v (endRing l .answered (some h.pos) v) := .of_eq
  unfold seizeRinging
  split
  · exact .refl s
  · split_ifs
    · exact .refl s
    · exact ((ended s).trans (keepsChannels_takeLine ..)).trans (keepsChannels_lineParty ..)
    · split
      · exact .refl s
      · next check => exact ((keepsChannels_recorderCheck check).trans (ended _)).trans (keepsChannels_takeLine ..)

theorem keepsChannels_seizeConnected (h : Handset) (l : LineId) (s : State) :
    KeepsChannels s (seizeConnected h l s).1 := by
  have bound : KeepsChannels s ((bindHandset h l s).modLine l fun r => { r with owners := r.owners ++ [h] }) := .of_eq rfl
  unfold seizeConnected
  dsimp only
  split_ifs
  · exact .refl s
  · exact .refl s
  · exact bound.trans (keepsChannels_lineParty ..)

theorem keepsChannels_seizeHeld (h : Handset) (l : LineId) (s : State) : KeepsChannels s (seizeHeld h l s).1 := by
  have unheld : KeepsChannels s (s.modLine l fun r => { r with recallDeadline := none, heldBy := none }) := .of_eq rfl
  unfold seizeHeld
  dsimp only
  split_ifs
  · exact .refl s
  · exact (unheld.trans (keepsChannels_takeLine ..)).trans (keepsChannels_lineParty ..)

theorem keepsChannels_seize (pos side line : Byte) (s : State) : KeepsChannels s (seize pos side line s).1 := by
  unfold seize
  split
  · dsimp only
    split_ifs
    iterate 4 exact .refl s
    split
    · exact keepsChannels_seizeIdle ..
    · exact keepsChannels_seizeRinging ..
    · exact keepsChannels_seizeConnected ..
    · exact keepsChannels_seizeHeld ..
    · exact .refl s
    · exact .refl s
  · exact .refl s

theorem keepsChannels_release (pos side : Byte) (s : State) : KeepsChannels s (release pos side s).1 := by
  have left (h : Handset) (l : LineId) : KeepsChannels s (leaveLine h l s) := .of_eq rfl
  unfold release
  split
  · exact .refl s
  · dsimp only
    split
    · dsimp only; exact (left ..).trans (keepsChannels_clearLine ..)
    · exact left ..

theorem keepsChannels_forceClear (line : Byte) (s : State) : KeepsChannels s (forceClear line s).1 := by
  unfold forceClear
  split
  · exact .refl s
  · split
    · exact .refl s
    iterate 3 dsimp only; exact keepsChannels_clearLine ..
    · exact .refl s
    · exact .refl s

/-! ## Groups (R49, R50, R54 to R56, R65, R66) -/

theorem keepsChannels_endGroupSession (g : GroupId) (cause : SessionCause) (s : State) :
    KeepsChannels s (endGroupSession g cause s) := .of_ended (endGroupSession_ru ..)

theorem keepsChannels_startHang (g : GroupId) (s : State) : KeepsChannels s (startHang g s) := by
  unfold startHang
  dsimp only
  split
  · exact .refl s
  · split
    · exact .of_eq rfl
    · exact keepsChannels_endGroupSession ..

theorem keepsChannels_hangExpiry (g : GroupId) (s : State) : KeepsChannels s (hangExpiry g s) := by
  have stopped : KeepsChannels s (s.modGroup g fun r => { r with hangDeadline := none }) := .of_eq rfl
  unfold hangExpiry
  split
  · exact .refl s
  · split
    · exact stopped.trans (keepsChannels_endGroupSession ..)
    · exact .refl s

theorem keepsChannels_grantPlace (g : GroupId) (p : PosId) (standing : Bool) (s : State) :
    KeepsChannels s (grantPlace g p standing s) := by
  unfold grantPlace
  dsimp only
  split
  · exact .of_eq rfl
  · next c _ =>
    have told (v : State) (same : v.ru = s.ru) : KeepsChannels s (partyArrival c p v) :=
      .trans (.of_eq (congrArg RecUnit.channels same)) (keepsChannels_partyArrival c p v)
    exact told _ rfl

theorem keepsChannels_grantPassN : ∀ (n : Nat) (g : GroupId) (s : State), KeepsChannels s (grantPassN n g s)
  | 0, _, s => .refl s
  | n + 1, g, s => by
    unfold grantPassN
    split
    · exact .refl s
    · next e rest _ =>
      split
      · have taken : KeepsChannels s (s.modGroup g fun r => { r with queue := rest }) := .of_eq rfl
        exact (taken.trans (keepsChannels_grantPlace ..)).trans (keepsChannels_grantPassN n g _)
      · exact .refl s

theorem keepsChannels_grantPass (g : GroupId) (s : State) : KeepsChannels s (grantPass g s) := keepsChannels_grantPassN ..

/-- Where the group recorder check passes (R49). -/
theorem keepsChannels_groupCheck {policy : Policy} {parties : List PosId} {st : Status}
    (check : groupCheck g policy parties s = some (v, st)) : KeepsChannels s v := by
  have given {x : State} (a : allocateGroup g parties s = some x) : KeepsChannels s x := by
    obtain ⟨⟨c, y⟩, opened, rfl⟩ := Option.map_eq_some_iff.1 a
    exact (keepsChannels_allocate opened).trans (.of_eq rfl)
  unfold groupCheck at check
  split at check
  · cases check; exact .refl s
  · split at check <;> cases check
    · next a => exact given a
    · exact .refl s
  · obtain ⟨x, a, e⟩ := Option.map_eq_some_iff.1 check
    cases e
    exact given a

theorem keepsChannels_talkFull (g : GroupId) (p : PosId) (s : State) : KeepsChannels s (talkFull g p s).1 := by
  unfold talkFull
  dsimp only
  split
  · next q _ =>
    have revoked : KeepsChannels s (post (.floorRevoked g q.pos .preempt)
        (s.modGroup g fun r => { r with holders := r.holders.erase q })) := .of_eq rfl
    exact revoked.trans (keepsChannels_grantPlace ..)
  · split
    · exact .of_eq rfl
    · exact .refl s

theorem keepsChannels_talk (pos group : Byte) (s : State) : KeepsChannels s (talk pos group s).1 := by
  unfold talk
  split
  · dsimp only
    split_ifs
    iterate 4 exact .refl s
    · split
      · exact .refl s
      · next check => exact (keepsChannels_groupCheck check).trans (keepsChannels_grantPlace ..)
    · exact keepsChannels_grantPlace ..
    · exact keepsChannels_talkFull ..
  · exact .refl s

theorem keepsChannels_talkEnd (pos group : Byte) (s : State) : KeepsChannels s (talkEnd pos group s).1 := by
  unfold talkEnd
  split
  · next p g _ _ =>
    have left : KeepsChannels s (s.modGroup g fun r => { r with holders := dropEntry p r.holders }) := .of_eq rfl
    dsimp only
    split_ifs
    · exact (left.trans (keepsChannels_grantPass ..)).trans (keepsChannels_startHang ..)
    · exact .of_eq rfl
    · exact .refl s
  · exact .refl s

theorem keepsChannels_talkLimitExpiry (g : GroupId) (s : State) : KeepsChannels s (talkLimitExpiry g s) := by
  unfold talkLimitExpiry
  split
  · exact .refl s
  · next e _ =>
    have revoked : KeepsChannels s (post (.floorRevoked g e.pos .talkLimit)
        (s.modGroup g fun r => { r with holders := r.holders.erase e })) := .of_eq rfl
    exact (revoked.trans (keepsChannels_grantPass ..)).trans (keepsChannels_startHang ..)

/-! ## GROUP_SET and LINE_SERVICE (R23, R58 to R64) -/

theorem keepsChannels_recordingStep {members : PosSet} {hoots : List LineId} {most : Nat} {policy : Policy} {st : Status}
    (records : recordingStep g members hoots most policy s = some (v, st)) : KeepsChannels s v := by
  unfold recordingStep at records
  dsimp only at records
  split_ifs at records
  · cases records; exact .refl s
  · exact keepsChannels_groupCheck records
  · exact keepsChannels_groupCheck records
  · cases records; exact .refl s

theorem keepsChannels_hangStep (g : GroupId) (recorded : Bool) (s : State) : KeepsChannels s (hangStep g recorded s) := by
  unfold hangStep
  dsimp only
  split_ifs
  · exact .of_eq rfl
  · exact keepsChannels_startHang ..
  · exact .refl s

theorem rebridged_ru (g : GroupId) (old hoots : List LineId) (s : State) : (rebridged g old hoots s).ru = s.ru := by
  unfold rebridged
  rw [foldl_keeps (·.ru) (fun s l => bridge g l s) (fun s l => bridge_ru s g l),
    foldl_keeps (·.ru) (fun s l => unbridge l s) (fun s l => unbridge_ru s l)]

theorem keepsChannels_applyGroup (c : GroupArgs) (hoots : List LineId) (policy : Policy) (old : GroupRec) (s : State) :
    KeepsChannels s (applyGroup g c hoots policy old s) := by
  have bridged : KeepsChannels s (rebridged g old.hootLines hoots (s.modGroup g (GroupRec.configured c hoots policy))) :=
    .of_eq (by rw [rebridged_ru]; rfl)
  have left (v : State) : KeepsChannels v (limitStep g (clampTalkers c.maxTalkers) (membershipStep g c.members v)) := .of_eq
  exact ((bridged.trans (left _)).trans (keepsChannels_grantPass ..)).trans (keepsChannels_hangStep ..)

theorem keepsChannels_groupSet (group : Byte) (c : GroupArgs) (s : State) : KeepsChannels s (groupSet group c s).1 := by
  unfold groupSet
  split
  · split
    · split
      · exact .refl s
      · split
        · exact .refl s
        · next records => dsimp only; exact (keepsChannels_recordingStep records).trans (keepsChannels_applyGroup ..)
    · exact .refl s
  · exact .refl s

theorem keepsChannels_bridgedOut (l : LineId) (s : State) : KeepsChannels s (bridgedOut l s) := by
  unfold bridgedOut
  split
  · exact .of_eq
  · next g _ =>
    have out : KeepsChannels s (setLineState l .outOfService .outOfService
        ((removeHoot g l s).modLine l fun r => { r with group := none })) := .of_eq (by rw [setLineState_ru]; rfl)
    exact out.trans (keepsChannels_startHang ..)

theorem keepsChannels_lineService (line dir : Byte) (s : State) : KeepsChannels s (lineService line dir s).1 := by
  unfold lineService
  split
  · split
    · exact .of_eq
    · exact .refl s
  · split
    · exact .refl s
    · exact .of_eq
    iterate 3 dsimp only; exact keepsChannels_clearLine ..
    · dsimp only; exact keepsChannels_bridgedOut ..
  · exact .refl s

/-! ## RESTART and time steps (R28, R68, R140, R173) -/

theorem keepsChannels_restartLine (l : LineId) (s : State) : KeepsChannels s (restartLine l s) := by
  unfold restartLine
  split
  iterate 3 exact keepsChannels_clearLine ..
  iterate 3 exact .refl s

theorem keepsChannels_restartGroup (g : GroupId) (s : State) : KeepsChannels s (restartGroup g s) := by
  have emptied : KeepsChannels s (floorEmptied g s) := .of_eq (by simp [floorEmptied])
  rw [restartGroup_eq]
  split
  · exact emptied.trans (keepsChannels_endGroupSession ..)
  · exact emptied

theorem keepsChannels_restart (s : State) : KeepsChannels s (restart s).1 := by
  have lines : KeepsChannels s (restartLines s) := .foldl (fun s l => keepsChannels_restartLine l s) _ s
  have groups (v : State) : KeepsChannels v (restartGroups v) := .foldl (fun s g => keepsChannels_restartGroup g s) _ v
  rw [restart_eq]
  exact (lines.trans (groups _)).trans (.of_eq (by rw [flushed_eq]))

theorem keepsChannels_timeSync (w : BitVec 128) (s : State) : KeepsChannels s (timeSync w s) := by
  have stepped (new : FloorTime) (reason : StepReason) (v : State) (same : v.ru = s.ru) :
      KeepsChannels s (timeStep new reason v) :=
    have posted : KeepsChannels s (post (.timeStep v.ft.floor new reason)
        { v with ft := { v.ft with floor := new, mismatches := 0 } }) := .of_eq (congrArg RecUnit.channels same)
    posted.trans (keepsChannels_markStepped _)
  unfold timeSync
  dsimp only
  split
  · exact stepped _ _ _ rfl
  · split_ifs
    · exact .of_eq rfl
    · exact stepped _ _ _ rfl
    · exact .of_eq rfl
    · exact stepped _ _ _ rfl
    · exact .of_eq rfl

/-! ## The Configuration Loader (R177 to R180) -/

theorem keepsChannels_startLoad (n : Word) (s : State) : KeepsChannels s (startLoad n s) := .of_outline fun c => by
  have chan : (startLoad n s).chan c = { s.chan c with bufA := .reset, bufB := .reset, current := .bufA } := Table.get_map ..
  rw [chan]
  rfl

theorem keepsChannels_anchorWrite (n : Word) (s : State) : KeepsChannels s (anchorWrite n s) := by
  have loads : KeepsChannels s (if n = 0 then s else startLoad n s) := by
    split
    · exact .refl s
    · exact keepsChannels_startLoad ..
  unfold anchorWrite
  split
  · exact loads
  · exact loads
  · exact .refl s
  · exact .refl s

theorem keepsChannels_storeSection (ident : Nat) (body : List Byte) (s : State) :
    KeepsChannels s (storeSection ident body s) := by
  unfold storeSection
  split
  case h_7 =>
    refine .of_outline fun c => ?_
    have chan : (loadRecorders body s).chan c = loadChannel (record 32 body c.val) (s.chan c) := Table.get_build ..
    rw [chan]
    rfl
  all_goals exact .of_eq rfl

theorem keepsChannels_bridgeGroup (g : GroupId) (s : State) : KeepsChannels s (bridgeGroup g s) := by
  have recorded : KeepsChannels s (hootRecorded g s) := by
    unfold hootRecorded
    cases check : groupCheck g (s.group g).policy [] s with
    | none => exact .refl s
    | some x => exact keepsChannels_groupCheck check
  rw [bridgeGroup_eq]
  split
  · exact .refl s
  · exact recorded.trans (.of_eq (by rw [bridgeHoots_ru]))

theorem keepsChannels_enterRunning (length : Nat) (s : State) : KeepsChannels s (enterRunning length s) := by
  have here : KeepsChannels s (entered s) := .of_eq (by rw [(entered_entered s).frame])
  have bridged (v : State) : KeepsChannels v (bridgeGroups v) := .foldl (fun s g => keepsChannels_bridgeGroup g s) _ v
  rw [enterRunning_eq]
  generalize entered s = v at *
  have all := here.trans (bridged v)
  generalize bridgeGroups v = w at *
  exact all.trans (.of_eq rfl)

theorem keepsChannels_takeSections : ∀ (n : Nat) (s : State), KeepsChannels s (takeSections n s)
  | 0, _ => .of_eq rfl
  | n + 1, s => by
    unfold takeSections
    split
    · exact .of_eq rfl
    · exact .of_eq rfl
    · exact .of_eq rfl
    · next length _ =>
      have stored : KeepsChannels s (nextSection length s) := (keepsChannels_storeSection ..).trans (.of_eq rfl)
      exact stored.trans (keepsChannels_takeSections n _)
    · exact keepsChannels_enterRunning ..

theorem keepsChannels_configReadResponse {data : List Byte} (next : execConfigReadResponse error data s = .next t) :
    KeepsChannels s t := by
  unfold execConfigReadResponse at next
  split at next
  · cases next; exact .refl s
  · next a u back =>
    have taken : KeepsChannels s u := .of_eq (by rw [takeFlight_ru back])
    split at next
    · split at next <;> cases next
      · exact taken.trans (.of_eq rfl)
      · have held : KeepsChannels u (imageHeld data u) := .of_eq rfl
        exact (taken.trans held).trans (keepsChannels_takeSections 10 _)
    · cases next
      exact keepsChannels_faulted back error

end Sys2Proof.Machine

namespace Sys2Proof.Machine

variable {s t u : State} {c : Instr}

/-! # Every command keeps the law of the recorder channels (R143) -/

theorem keepsChannels_recorderSet (chan : Byte) (baseA ceilA baseB ceilB : Addr) (s : State) :
    KeepsChannels s (recorderSet chan baseA ceilA baseB ceilB s).1 := by
  unfold recorderSet
  split
  · exact .refl s
  · split_ifs
    · exact keepsChannels_modChan fun law => law.of_outline rfl
    · exact .refl s
    · exact .refl s

theorem keepsChannels_recordReturn (chan buffer : Byte) (s : State) : KeepsChannels s (recordReturn chan buffer s).1 := by
  unfold recordReturn
  split
  · split
    · exact .refl s
    · exact keepsChannels_modChan fun law => law.of_outline (returnBuffer_outline ..)
  · exact .refl s

theorem KeepsChannels.of_ru (same : t.ru = s.ru) : KeepsChannels s t := .of_eq (congrArg RecUnit.channels same)

theorem runCommand_keepsChannels {act : State → State × Status} (acts : ∀ s, KeepsChannels s (act s).1)
    (next : runCommand c act s = .next t) : KeepsChannels s t := by
  unfold runCommand at next
  split at next <;> cases next
  · exact (acts s).trans (.of_ru (complete_ru ..))
  · exact .refl s

theorem inRunning_keepsChannels {act : State → State} (acts : ∀ s, KeepsChannels s (act s))
    (next : inRunning act s = .next t) : KeepsChannels s t :=
  inRunning_keeps (P := KeepsChannels s) (.refl s) (fun _ => acts s) next

/-- A watched word that its block takes from the hand-over list. -/
theorem inRunning_handed_keepsChannels {act : State → State} {w : Handed} (acts : ∀ s, KeepsChannels s (act s))
    (next : inRunning (fun s => act (takeHanded w s)) s = .next t) : KeepsChannels s t :=
  inRunning_keepsChannels (act := fun s => act (takeHanded w s))
    (fun s => .trans (t := takeHanded w s) (.of_ru rfl) (acts _)) next

theorem exec_keepsChannels (next : exec c s = .next t) : KeepsChannels s t := by
  cases c with
  | lineSet line type pad preferred ringDelay policy recallTime =>
    exact runCommand_keepsChannels (fun s => .of_ru (lineSet_ru ..)) next
  | lineService line dir => exact runCommand_keepsChannels (keepsChannels_lineService line dir) next
  | appearSet pos key line => exact runCommand_keepsChannels (fun s => .of_ru (appearSet_ru ..)) next
  | seize pos side line => exact runCommand_keepsChannels (keepsChannels_seize pos side line) next
  | release pos side => exact runCommand_keepsChannels (keepsChannels_release pos side) next
  | hold pos side => exact runCommand_keepsChannels (fun s => .of_ru (hold_ru ..)) next
  | privacy pos side value => exact runCommand_keepsChannels (fun s => .of_ru (privacy_ru ..)) next
  | forceClear line => exact runCommand_keepsChannels (keepsChannels_forceClear line) next
  | handsetSet pos side volume micPad => exact runCommand_keepsChannels (fun s => .of_ru (handsetSet_ru ..)) next
  | positionSet pos micPad duck ringLevel recallLevel supervisor =>
    exact runCommand_keepsChannels (fun s => .of_ru (positionSet_ru ..)) next
  | speakerSet pos chan kind subject flags volume =>
    exact runCommand_keepsChannels (fun s => .of_ru (speakerSet_ru ..)) next
  | groupSet group cfg => exact runCommand_keepsChannels (keepsChannels_groupSet group cfg) next
  | talk pos group => exact runCommand_keepsChannels (keepsChannels_talk pos group) next
  | talkEnd pos group => exact runCommand_keepsChannels (keepsChannels_talkEnd pos group) next
  | recorderSet chan baseA ceilA baseB ceilB =>
    exact runCommand_keepsChannels (keepsChannels_recorderSet chan baseA ceilA baseB ceilB) next
  | recordReturn chan buffer => exact runCommand_keepsChannels (keepsChannels_recordReturn chan buffer) next
  | query kind index clear target => exact .of_eq (execQuery_channels next)
  | restart => exact runCommand_keepsChannels keepsChannels_restart next
  | commandPost n => exact inRunning_handed_keepsChannels (fun s => .of_ru (commandPost_ru n s)) next
  | commandFetch => exact inRunning_keepsChannels (fun s => .of_ru (commandFetch_ru s)) next
  | commandFetchResponse error slot => exact inRunning_keepsChannels (fun s => .of_ru (commandFetchResponse_ru ..)) next
  | eventConsumed n => exact inRunning_handed_keepsChannels (fun s => .of_ru (eventConsumed_ru n s)) next
  | eventWriteResponse k error => exact inRunning_keepsChannels (fun s => .of_ru (eventWriteResponse_ru ..)) next
  | logConsumed n => exact inRunning_handed_keepsChannels (keepsChannels_logConsumed n) next
  | signalWord l w => exact inRunning_handed_keepsChannels (keepsChannels_signalWord l w) next
  | holdRecallExpiry l => exact inRunning_keepsChannels (fun s => .of_ru (holdRecallExpiry_ru ..)) next
  | ringDelayExpiry l => exact inRunning_keepsChannels (fun s => .of_ru (ringDelayExpiry_ru ..)) next
  | queueTimeoutExpiry g => exact inRunning_keepsChannels (fun s => .of_ru (queueTimeoutExpiry_ru ..)) next
  | talkLimitExpiry g => exact inRunning_keepsChannels (keepsChannels_talkLimitExpiry g) next
  | hangExpiry g => exact inRunning_keepsChannels (keepsChannels_hangExpiry g) next
  | frameInPulse n => exact inRunning_keepsChannels (fun s => .of_ru (frameInPulse_ru ..)) next
  | pulseWatchExpiry => exact inRunning_keepsChannels (fun s => .of_ru (pulseWatchExpiry_ru s)) next
  | freewheelTimerExpiry => exact inRunning_keepsChannels (fun s => .of_ru (freewheelExpiry_ru s)) next
  | frameEventMix => exact inRunning_keepsChannels (fun s => .of_eq (frameEventMix_channels s)) next
  | recorderFrames => exact inRunning_keepsChannels keepsChannels_recorderFrames next
  | sessionSegment d => exact inRunning_keepsChannels (keepsChannels_sessionSegment d) next
  | frameWriteResponse k error => exact inRunning_keepsChannels (keepsChannels_frameWriteResponse k error) next
  | logWriteResponse k error => exact inRunning_keepsChannels (keepsChannels_logWriteResponse k error) next
  | controlWordWriteResponse k error =>
    exact inRunning_keepsChannels (fun s => .of_ru (controlWordWriteResponse_ru ..)) next
  | snapshotWriteResponse k error => exact inRunning_keepsChannels (fun s => .of_ru (snapshotWriteResponse_ru ..)) next
  | indexWordWriteResponse k error => exact inRunning_keepsChannels (fun s => .of_ru (indexWordWriteResponse_ru ..)) next
  | statusWordWriteResponse k error => exact .of_ru (execStatusWordWriteResponse_ru next)
  | configReadResponse error data => exact keepsChannels_configReadResponse next
  | anchorWrite n =>
    cases next
    exact .trans (t := takeHanded (.anchor n) s) (.of_ru rfl) (keepsChannels_anchorWrite ..)
  | timeSyncWord w => exact inRunning_handed_keepsChannels (keepsChannels_timeSync w) next
  | upstreamWrite x => exact .of_ru (execUpstreamWrite_ru next)
  | upstreamRead b => exact .of_ru (execUpstreamRead_ru next)
  | outboundRead b => exact .of_ru (execUpstreamRead_ru next)
  | passThroughResponse k resp data => exact .of_ru (execPassThroughResponse_ru next)
  | downstreamGrant => exact .of_ru (execDownstreamGrant_ru next)
  | powerOn straps => cases next; exact ⟨fun d _ => recorderLaw_afterReset _ _ _ _ d⟩
  | resetN straps => cases next; exact ⟨fun d _ => recorderLaw_afterReset _ _ _ _ d⟩

/-- Settles O10: a step is a cycle of CLK or a command, and `exec_keepsChannels` says what a command leaves. -/
theorem stepKeepsRecorderLaw : Obligations.StepKeepsRecorderLaw := by
  intro s t law next
  unfold step at next
  split at next
  · cases next; exact (KeepsChannels.of_ru rfl).law law
  · next rest _ =>
    have taken : KeepsChannels s { s with pending := rest } := .of_ru rfl
    exact (taken.trans (exec_keepsChannels next)).law law

end Sys2Proof.Machine

namespace Sys2Proof.Machine

variable {s t u : State}

/-! # The event ring and the Recording Log have room again (R155, R156, R168) -/

theorem add_ofNat_succ (w : Word) (k : Nat) : w + BitVec.ofNat 32 (k + 1) = w + BitVec.ofNat 32 k + 1 := by
  rw [BitVec.ofNat_add]
  exact (BitVec.add_assoc ..).symm

/-! ## Events drain into the ring (R168)

After `k` events have gone into the ring the next one goes to the slot at index `k` from the first. -/

/-- The unit with `k` events more in its ring, and the events `es` waiting. -/
def CmdUnit.emitted (c : CmdUnit) (k : Nat) (es : List Event) : CmdUnit :=
  { c with evProduced := c.evProduced + BitVec.ofNat 32 k, backlog := es }

/-- The write of the slot that is `k` places on. -/
def CmdUnit.slotAt (c : CmdUnit) (k : Nat) (e : Event) : OwnAccess :=
  let i := c.evProduced + BitVec.ofNat 32 k
  ⟨.eventSlot i, c.evBase + BitVec.ofNat 36 (16 * (i.toNat % c.evSize)), e.bytes, 0⟩

/-- The ring has room for the event that is `k` places on. -/
def CmdUnit.roomAt (c : CmdUnit) (k : Nat) : Bool :=
  decide ((c.evProduced + BitVec.ofNat 32 k - c.evConsumed).toNat < c.evSize)

theorem emitted_zero (c : CmdUnit) : c.emitted 0 c.backlog = c := by
  have produced : c.evProduced + BitVec.ofNat 32 0 = c.evProduced := BitVec.add_zero _
  rw [CmdUnit.emitted, produced]

theorem write_emitted (c : CmdUnit) (k : Nat) (es : List Event) (slots : List OwnAccess) (e : Event) :
    Emission.write ⟨c.emitted k es, slots⟩ e = ⟨c.emitted (k + 1) es, slots ++ [c.slotAt k e]⟩ := by
  rw [CmdUnit.emitted, CmdUnit.emitted, add_ofNat_succ]
  rfl

/-- The drain goes on while there is room, and with nothing waiting any more it ends. -/
theorem drainFrom_emitted (c : CmdUnit) (es : List Event) : ∀ (k : Nat) (old : List Event) (slots : List OwnAccess),
    ∃ n, n ≤ es.length ∧ (∀ m, k ≤ m → m < k + n → c.roomAt m = true) ∧ (n < es.length → c.roomAt (k + n) = false) ∧
      Emission.drainFrom es ⟨c.emitted k old, slots⟩ =
        ⟨c.emitted (k + n) (es.drop n), slots ++ ((es.take n).zipIdx k).map fun e => c.slotAt e.2 e.1⟩ := by
  induction es with
  | nil => exact fun k old slots => ⟨0, le_refl _, by omega, by simp, by simp [Emission.drainFrom, CmdUnit.emitted]⟩
  | cons e es ih =>
    intro k old slots
    have room : (c.emitted k old).room = c.roomAt k := rfl
    unfold Emission.drainFrom
    rw [room]
    cases here : c.roomAt k with
    | false =>
      refine ⟨0, Nat.zero_le _, by omega, fun _ => here, ?_⟩
      simp [CmdUnit.emitted]
    | true =>
      obtain ⟨n, few, roomy, full, drained⟩ := ih (k + 1) old (slots ++ [c.slotAt k e])
      rw [if_pos rfl, write_emitted, drained]
      have on : k + 1 + n = k + (n + 1) := by omega
      refine ⟨n + 1, Nat.succ_le_succ few, fun m low high => ?_, fun more => ?_, ?_⟩
      · rcases Nat.eq_or_lt_of_le low with is | later
        · exact is ▸ here
        · exact roomy m later (by omega)
      · exact on ▸ full (by simpa using more)
      · simp [on, List.zipIdx_cons]

/-- The unit's own backlog drains. -/
theorem drained_emitted (c : CmdUnit) : ∃ n, n ≤ c.backlog.length ∧ (∀ m, m < n → c.roomAt m = true) ∧
    (n < c.backlog.length → c.roomAt n = false) ∧
    c.drained = ⟨c.emitted n (c.backlog.drop n), (c.backlog.take n).zipIdx.map fun e => c.slotAt e.2 e.1⟩ := by
  obtain ⟨n, few, roomy, full, drained⟩ := drainFrom_emitted c c.backlog 0 c.backlog []
  rw [Nat.zero_add] at *
  rw [emitted_zero] at drained
  exact ⟨n, few, fun m => roomy m (Nat.zero_le m), full, drained⟩

/-! ## Close records go into the log (R156)

The channels are gone through in number order; the waiting ones among those gone through take the next indices. -/

/-- The log index that is `k` places on. -/
def logIndex (s : State) (k : Nat) : Word := s.ru.produced + BitVec.ofNat 32 k

/-- The log has room for the record that is `k` places on. -/
def logRoomAt (s : State) (k : Nat) : Bool := decide ((logIndex s k - s.ru.consumed).toNat < s.ru.logSize)

/-- The channel waits with a record to place. -/
def Channel.waitsRecord (ch : Channel) : Bool := ch.waits && ch.closeRecord.isSome

/-- Of the waiting channels `ws` the first `n` have had their records placed: there was room for each of them, and none is left
if one still waits. -/
structure Placed (ws : List ChanId) (n : Nat) (s t : State) : Prop where
  few : n ≤ ws.length
  roomy : ∀ m, m < n → logRoomAt s m = true
  full : n < ws.length → logRoomAt s n = false
  chan : ∀ m c, ws[m]? = some c → t.chan c = if m < n then { s.chan c with placed := some (logIndex s m) } else s.chan c
  others : ∀ c, c ∉ ws → t.chan c = s.chan c
  own : t.pu.own = s.pu.own ++ (ws.take n).zipIdx.filterMap fun e =>
    (s.chan e.1).closeRecord.map (recordAt s (logIndex s e.2))
  frame : t = { s with ru := { s.ru with channels := t.ru.channels, produced := logIndex s n }
                       pu := { s.pu with own := t.pu.own } }

theorem Placed.nil (s : State) : Placed [] 0 s s where
  few := le_refl _
  roomy _ none_ := absurd none_ (Nat.not_lt_zero _)
  full none_ := absurd none_ (Nat.not_lt_zero _)
  chan _ _ mem := nomatch mem
  others _ _ := rfl
  own := (List.append_nil _).symm
  frame := by rw [logIndex, show BitVec.ofNat 32 0 = 0#32 from rfl, BitVec.add_zero]

section
variable {ws : List ChanId} {n : Nat} {c : ChanId}

theorem logIndex_succ (s : State) (k : Nat) : logIndex s (k + 1) = logIndex s k + 1 :=
  add_ofNat_succ ..

theorem Placed.room (h : Placed ws n s t) : t.ru.room = logRoomAt s n := by rw [h.frame]; rfl

theorem getElem?_last {m : Nat} {d : ChanId} (last : ws.length ≤ m) (at_ : (ws ++ [c])[m]? = some d) :
    m = ws.length ∧ c = d := by
  rw [List.getElem?_append_right last, List.getElem?_singleton] at at_
  split at at_
  · next first => exact ⟨by omega, Option.some.inj at_⟩
  · cases at_

/-- A channel that still waits while there is no room. -/
theorem Placed.skip (h : Placed ws n s t) (new : c ∉ ws) (full : t.ru.room = false) : Placed (ws ++ [c]) n s t where
  few := h.few.trans (by simp)
  roomy := h.roomy
  full _ := h.room ▸ full
  chan m d at_ := by
    rcases Nat.lt_or_ge m ws.length with old | last
    · exact h.chan m d (by rwa [List.getElem?_append_left old] at at_)
    · have few := h.few
      obtain ⟨-, rfl⟩ := getElem?_last last at_
      rw [if_neg (by omega)]
      exact h.others c new
  others d not_ := h.others d fun mem => not_ (List.mem_append_left _ mem)
  own := by rw [List.take_append_of_le_length h.few]; exact h.own
  frame := h.frame

/-- Where there is room still, no channel waits any more. -/
theorem Placed.all_of_room (h : Placed ws n s t) (room : t.ru.room = true) : n = ws.length := by
  by_contra less
  have full := h.full (Nat.lt_of_le_of_ne h.few less)
  rw [← h.room, room] at full
  cases full

/-- A channel whose record goes into the log. -/
theorem Placed.place (h : Placed ws n s t) (new : c ∉ ws) (room : t.ru.room = true) {y : Session}
    (held : (s.chan c).closeRecord = some y) : Placed (ws ++ [c]) (n + 1) s (placeHeld c t) := by
  obtain rfl : n = ws.length := h.all_of_room room
  have same := h.others c new
  have produced : t.ru.produced = logIndex s ws.length := by rw [h.frame]
  rw [placeHeld_of_record ((congrArg Channel.closeRecord same).trans held), produced]
  constructor
  case few => simp
  case roomy =>
    intro m below
    rcases Nat.lt_succ_iff_lt_or_eq.1 below with old | is
    · exact h.roomy m old
    · exact is ▸ h.room ▸ room
  case full => simp
  case chan =>
    intro m d at_
    rcases Nat.lt_or_ge m ws.length with old | last
    · rw [List.getElem?_append_left old] at at_
      have other : c ≠ d := fun e => new (e ▸ List.mem_of_getElem? at_)
      rw [modChan_chan, if_neg other, if_pos (Nat.lt_succ_of_lt old)]
      exact (h.chan m d at_).trans (if_pos old)
    · obtain ⟨rfl, rfl⟩ := getElem?_last last at_
      rw [modChan_chan_self, if_pos (Nat.lt_succ_self _), ← same]
      rfl
  case others =>
    intro d not_
    rw [List.mem_append, List.mem_singleton, not_or] at not_
    rw [modChan_chan, if_neg (Ne.symm not_.2)]
    exact h.others d not_.1
  case own =>
    have asked : recordWrite t y = recordAt s (logIndex s ws.length) y := by rw [recordWrite, produced, h.frame]; rfl
    have before := h.own
    rw [List.take_length] at before
    change t.pu.own ++ [recordWrite t y] = _
    rw [before, asked, List.take_of_length_le (by simp), List.zipIdx_append, List.filterMap_append, List.append_assoc]
    simp [held]
  case frame =>
    rw [logIndex_succ, ← produced, h.frame]
    rfl

/-- A channel is gone through: it waits with a record, or nothing happens. -/
theorem Placed.step (h : Placed ws n s t) (new : c ∉ ws) : ∃ m, Placed (ws ++ if (s.chan c).waitsRecord then [c] else []) m s
    (if t.ru.room && (t.chan c).waits then placeHeld c t else t) := by
  rw [h.others c new]
  cases waits : (s.chan c).waitsRecord with
  | false =>
    have nothing : (if t.ru.room && (s.chan c).waits then placeHeld c t else t) = t := by
      rcases Bool.and_eq_false_iff.1 waits with off | none_
      · rw [off, Bool.and_false]; rfl
      · have none_ : (t.chan c).closeRecord = none := by rw [h.others c new]; simpa using none_
        rw [placeHeld_of_none none_, ite_self]
    rw [nothing, if_neg Bool.false_ne_true, List.append_nil]
    exact ⟨n, h⟩
  | true =>
    obtain ⟨on, some_⟩ := Bool.and_eq_true_iff.1 waits
    obtain ⟨y, held⟩ := Option.isSome_iff_exists.1 some_
    rw [on, Bool.and_true, if_pos rfl]
    cases room : t.ru.room with
    | true => exact ⟨n + 1, h.place new room held⟩
    | false => exact ⟨n, h.skip new room⟩

/-- Going through channels places records while there is room. -/
theorem foldl_placed (s : State) (cs : List ChanId) (once : cs.Nodup) : ∃ n, Placed
    (cs.filter fun c => (s.chan c).waitsRecord) n s
    (cs.foldl (fun s c => if s.ru.room && (s.chan c).waits then placeHeld c s else s) s) := by
  induction cs using List.reverseRecOn with
  | nil => exact ⟨0, .nil s⟩
  | append_singleton cs c ih =>
    obtain ⟨old, -, apart⟩ := List.nodup_append.1 once
    obtain ⟨n, h⟩ := ih old
    have new : c ∉ cs.filter fun c => (s.chan c).waitsRecord := fun mem =>
      apart c (List.mem_of_mem_filter mem) c (List.mem_singleton_self c) rfl
    rw [List.foldl_append, List.filter_append, List.filter_cons, List.filter_nil]
    exact h.step new

/-- The log never holds more than its size. -/
theorem Placed.bound (h : Placed ws n s t) (fits : (s.ru.produced - s.ru.consumed).toNat ≤ s.ru.logSize) :
    (logIndex s n - s.ru.consumed).toNat ≤ s.ru.logSize := by
  cases n with
  | zero =>
    have here : logIndex s 0 = s.ru.produced := BitVec.add_zero _
    rwa [here]
  | succ n =>
    have room := of_decide_eq_true (h.roomy n (Nat.lt_succ_self n))
    rw [logIndex_succ]
    bv_omega

end

/-! ## The two consumed words -/

/-- The unit with the event consumed value taken. -/
def CmdUnit.consuming (c : CmdUnit) (v : Word) : CmdUnit := { c with evConsumed := v }

/-- The Recorder Unit with the log consumed value taken. -/
def logTaken (v : Word) (s : State) : State := { s with ru := { s.ru with consumed := v } }

theorem exec_eventConsumed (run : s.running = true) (v : Word) :
    exec (.eventConsumed v) s = .next (eventConsumed v (takeHanded (.eventConsumed v) s)) :=
  inRunning_of_running (fun s => eventConsumed v (takeHanded (.eventConsumed v) s)) run

theorem exec_logConsumed (run : s.running = true) (v : Word) :
    exec (.logConsumed v) s = .next (logConsumed v (takeHanded (.logConsumed v) s)) :=
  inRunning_of_running (fun s => logConsumed v (takeHanded (.logConsumed v) s)) run

/-- Settles O40: `drained_emitted` for the event ring, `foldl_placed` for the log. -/
theorem consumedWordsMakeRoom : Obligations.ConsumedWordsMakeRoom := by
  refine ⟨fun v s run => ?_, fun v s run => ?_⟩
  · intro u
    refine ⟨fun beyond => ?_, fun fits => ?_⟩
    · rw [exec_eventConsumed run]
      exact congrArg Host.Outcome.next (if_pos beyond)
    · obtain ⟨n, few, roomy, full, drained⟩ := drained_emitted (s.cu.consuming v)
      have acts : eventConsumed v u = emit (s.cu.consuming v).drained { u with cu := s.cu.consuming v } :=
        if_neg (Nat.not_lt.2 fits)
      rw [drained] at acts
      exact ⟨_, n, (exec_eventConsumed run v).trans (congrArg Host.Outcome.next acts), few,
        fun m below => of_decide_eq_true (roomy m below), rfl, full, rfl, rfl⟩
  · intro u
    refine ⟨fun beyond => ?_, fun fits => ?_⟩
    · rw [exec_logConsumed run]
      exact congrArg Host.Outcome.next (if_pos beyond)
    · obtain ⟨n, h⟩ := foldl_placed (logTaken v u) (List.finRange 32) (List.nodup_finRange 32)
      have acts : logConsumed v u = placeWaiting (logTaken v u) := if_neg (Nat.not_lt.2 fits)
      have answer := (exec_logConsumed run v).trans (congrArg Host.Outcome.next acts)
      change Placed _ n _ (placeWaiting (logTaken v u)) at h
      generalize placeWaiting (logTaken v u) = t at *
      have consumed : t.ru.consumed = v := by rw [h.frame]; rfl
      have produced : t.ru.produced = logIndex s n := by rw [h.frame]; rfl
      refine ⟨t, n, answer, ?_⟩
      intro waiting index
      refine ⟨consumed, produced, h.few, fun m below => of_decide_eq_true (h.roomy m below), ?_, fun less => ?_, h.chan,
        h.others, h.own, ?_⟩
      · rw [produced]; exact h.bound fits
      · rw [produced]; exact Nat.not_lt.1 (of_decide_eq_false (h.full less))
      · rw [produced]; exact h.frame

end Sys2Proof.Machine
